-- ==== Sys2Proof/Word.lean ====
section
/-! DEFINITION. The words of the hardware: the widths the spec gives its registers, wide values and bytes (R257, R263). -/

namespace Sys2Proof

/-- A register is a 32-bit word (R257). -/
abbrev W32 := BitVec 32

/-- One byte of a frame, of a command packet or of a memory. -/
abbrev Byte := BitVec 8

end Sys2Proof
end

