-- ==== Sys2Proof/RegName.lean ====
section
/-! DEFINITION. The register names of the spec (the register tables of its chapters), one constructor per 32-bit register or wide value. -/

namespace Sys2Proof

/-- The registers of BAR0 and of the ring pages of BAR2 (R255, R254), by the names the register tables give them. Where three tables use one name, a letter group in front says which rings are meant: CMD_ (Table 12.7), PKT_ (Table 11.4), SMP_ (Table 10.12). -/
inductive RegName where
  | GLB_SRC_MAP0
  | GLB_SRC_MAP1
  | MAC_MACRO_CFG
  | MAC_EVT
  | MAC_TXMAP
  | MAC_RXMAP
  | MAC_POL
  | LANE_TXEQ
  | LANE_RXEQ
  | LANE_TXCTL
  | LANE_STAT
  | PORT_FLOW
  | PORT_PFC_TIME
  | PORT_STAT
  | PORT_PTP
  | MAC_TS_POP
  | PARSE_CFG0
  | PARSE_CFG1
  | PARSE_CFG2
  | PARSE_ERR_ACT
  | GLB_HASH_SEED
  | PIPE_CFG_STAT
  | PIPE_IMG_ID
  | PIPE_IMG_INFO
  | PIPE_STAT
  | PIPE_PARSE_CNT
  | PIPE_LIMIT_CNT
  | SKETCH_ENTRY
  | TBL_STAT0
  | TBL_STAT1
  | TBL_STAT2
  | TBL_STAT3
  | LEARN_STAT
  | LEARN_EVT
  | EPOCH_STAT
  | EPOCH_STATE0
  | EPOCH_STATE1
  | EPOCH_CFG
  | EPOCH_EVT
  | EPOCH_INFLIGHT
  | TCAM_STAT
  | TCAM_EVT
  | FALSE_HIT_CNT
  | SCRUB_FIX_CNT
  | SCRUB_SWEEPS
  | EPOCH_EXPIRE_DROPS
  | TCAM_TBL_STAT0
  | TCAM_TBL_STAT1
  | PIPE_TCAM_WAIT
  | PIPE_TCAM_RETRY
  | PAL_CFG
  | PAL_EVT
  | PAL_STAT0
  | PAL_STAT1
  | PAL_STAT2
  | PAL_WD_CFG
  | MC_STAT
  | PAL_POOL_SIZE
  | PAL_HP_SIZE
  | PAL_POOL_USED
  | PAL_HP_USED
  | PAL_POOL_EFF
  | PAL_DROP_CNT
  | QUEUE_ADM0
  | QUEUE_ADM1
  | QUEUE_DEPTH0
  | QUEUE_DEPTH1
  | PG_CFG
  | PG_STAT0
  | PG_STAT1
  | PORT_WD
  | PORT_ADM
  | HOST_FLOW
  | FIFO_DROP_LOSSY
  | FIFO_DROP_LOSSLESS
  | FIFO_DROP_CONTROL
  | FIFO_STAT
  | CPU_QUEUE_ADM
  | CPU_QUEUE_DEPTH
  | SCH_NODE0_Q
  | SCH_NODE0_S
  | SCH_NODE0_P
  | SCH_NODE0_C
  | SCH_NODE1_Q
  | SCH_NODE1_S
  | SCH_NODE1_P
  | SCH_NODE1_C
  | SHP_RATE_Q
  | SHP_RATE_S
  | SHP_RATE_P
  | SHP_RATE_C
  | SHP_BURST_Q
  | SHP_BURST_S
  | SHP_BURST_P
  | SHP_BURST_C
  | SCH_EVT
  | SCH_STAT
  | SCH_PARK_CNT
  | SCH_LATE_CNT
  | SCH_LATE_MAX
  | TEL_CFG
  | TEL_PEN
  | EXP_ROUTE
  | FLOW_CFG
  | PC_CFG
  | PC_LAT
  | PC_DROP_MASK
  | IOAM_CFG0
  | IOAM_CFG1
  | IOAM_CFG2
  | TEL_EVT
  | PC_TAC_SEL
  | IOAM_PORT
  | TGT_STAT
  | BATCHES
  | BATCH_LATE_CNT
  | REC_SENT
  | REC_LATE
  | REC_OVF
  | WRAP_COUNT
  | NEXT_SEQ
  | GPOS
  | FLOW_ACTIVE
  | FLOW_EXPORTED
  | FLOW_EVICT
  | PC_SENT
  | PC_LIMITED
  | IOAM_INSERT
  | IOAM_FILL
  | IOAM_DECAP
  | IOAM_SKIP
  | SMP_RING_BASE
  | SMP_WB_ADDR
  | SMP_RING_CFG
  | PROD
  | CONS
  | DEV_LEVEL
  | SMP_DROP
  | TRACE_CFG
  | TRACE_TAGGED
  | SWATCH_CFG
  | SWATCH_BUF_A
  | SWATCH_BUF_B
  | SWATCH_STAT
  | SWATCH_SEQ
  | CNT_EVT
  | SWATCH_SKIP_CNT
  | VF_DENIED_CNT
  | METER_LAST_END
  | METER_STATIC_UJ
  | METER_MERGED_CNT
  | PORT_RATE_CFG
  | SMP_CFG
  | HIF_ID0
  | HIF_ID1
  | HIF_SERIAL
  | HIF_CFG
  | HIF_EVT
  | HIF_TOUCH_ADDR
  | HIF_UNMAP_ADDR
  | HIF_XFAIL_ADDR
  | HIF_LINK
  | HIF_TOUCH_CNT
  | WIDE_MBX_ADDR
  | WIDE_MBX_STAT
  | WIDE_MBX_DATA
  | UART_CFG
  | UART_ERR_CNT
  | CPU_QMAP
  | MSIX_TABLE
  | MSIX_PBA
  | PKT_RING_BASE
  | PKT_WB_ADDR
  | PKT_RING_CFG
  | PKT_RING_TIME
  | RING_TAIL
  | RING_HEAD
  | DROP_CNT
  | ABORT_CNT
  | SQ_BASE
  | CQ_BASE
  | CMD_WB_ADDR
  | CMD_RING_CFG
  | CMD_RING_TIME
  | SQ_TAIL
  | SQ_HEAD
  | CQ_HEAD
  | CQ_TAIL
  | CMD_CNT
  | REFUSED_CNT
  | CMD_SERIAL
  | CMD_OUT
  | CMD_EVT
  | IB_CFG
  | IB_NONCE_LAST
  | IB_AUTH_FAIL_CNT
  | IB_REPLAY_CNT
  | CMD_REFUSED_CNT
  | CMD_REISSUED_CNT
  | LOCK_STAT
  | ENG_STAT
  | ENG_TRAPS
  | ENG_OVERRUN
  | ENG_FAIL
  | ENG_EVT
  | FW_STAT
  | FW_RUN_VER
  | FW_STAGED_VER
  | ENG_POOL
  | STL_PORT_STAT
  | STL_PORT_CTL
  | STL_EVT
  | CW_CORR
  | CW_UNCORR
  | BAD_BLOCK
  | STUFF_VIOL
  | FRAME_ERR
  | LOCK_LOSS_CNT
  | LG_TOD
  | LG_INFO
  | STL_LANE_STAT
  | STL_LANE_TXCTL
  | STL_LANE_TXEQ
  | STL_LANE_TRIP
  | STL_REF
  | STL_REF_EVT
  | STL_REFO_CTL
  | STL_REFO_TRIP
  | TWIN_STAT
  | TWIN_EVT
  | TWIN_CFG_STAT
  | TWIN_BKP
  | TWIN_BOND0
  | TWIN_BOND1
  | PEER_SERIAL
  | HB_MISS_CNT
  | PEER_LOST_CNT
  | BKP_REJECT_CNT
  | TWIN_DH
  | CHAIN_STAT
  | CHAIN_MGEN
  | CHAIN_EVT
  | CHAIN_BUDGET
  | CHAIN_TIME_CFG
  | TIME_ROOT_STAT
  | TIME_OFFSET
  | CHAIN_TRANSIT_CNT
  | CHAIN_WRAP_CNT
  | CHAIN_TTL_DROP
  | CHAIN_BAD_CNT
  | PWR_CTL
  | PWR_THRESH
  | PWR_STAT0
  | PWR_STAT1
  | PWR_STAT2
  | PWR_EVT
  | BELOW_BASE_MS
  | CAP_UNMET_MS
  | DROOP_CNT
  | STEP_CNT
  | PKT_COEF
  | BYTE_COEF
  | TEMP
  | AGE
  | AGE_WORST
  | FLT_EVT
  | FLT_CFG
  | FLT_STAT
  | FLT_SAFE_EVENT
  | FLT_SAFE_TOD
  | CLASS_CNT
  | HIST_TOTAL
  | QUAR_RX_DROP
  | TILE_LINK_DROP
  | VARNISH_CFG
  | PIPE_QUAR_IN
  | PIPE_QUAR_EG
  | BANK_RETIRED
  | MACRO_FAILED
  | TILE_LINK_STAT
  | BANK_UE_CNT
  | FLT_HIST
  | RST_STAT
  | CLK_STAT
  | CLK_RUN
  | BOOT_MS
  | TOD_NOW
  | TOD_SET
  | TOD_CTL
  | TOD_PPS_CAP
  | FUSE_STAT
  | LEARN_APPLIED
  | LEARN_MOVE
  | LEARN_DUP
  | LEARN_FIFO_OVF
  | LEARN_ENG_OVF
  | LEARN_TABLE_FULL
  | LEARN_STATIC
  | AGED_OUT
  | AGE_RACE
  | AGE_OVERRUN
  | OVF_DRAIN
  | IB_PORT_EN
deriving DecidableEq, Repr

end Sys2Proof
end

