-- ==== Sys2Proof/Data.lean ====
section
/-! DEFINITION. Plain data that operands of commands and the state share: register keys, command headers and parameters, frames, pipeline images and firmware images. -/

namespace Sys2Proof

/-- One register of the machine: its name and its unit numbers (the `i` and `j` of its address formula in the register map; the word index of a wide value is counted in `j`). -/
structure RegKey where
  n : RegName
  i : Nat
  j : Nat
deriving DecidableEq, Repr

/-- A scheduling node (Table 8.1): `kind` 0 subscriber queue, 1 service node, 2 port node, 3 CPU queue. -/
structure Node where
  kind : Nat
  ix : Nat
deriving DecidableEq, Repr

/-- What a command's execution knows of its packet (Table 12.1, R276, R281): the instant it takes effect, its SERIAL, the master (kind and [11:0]), TAG and the three flags. -/
structure Hdr where
  t : Nat
  serial : Nat
  kind : Nat
  sub : Nat
  tag : Nat
  ackReq : Bool
  idem : Bool
  prog : Bool
deriving DecidableEq, Repr

/-- Parameters of TBL_INSERT, TBL_DELETE and TBL_SEARCH (Table 12.9); KEY and DATA are numbers, least significant byte first (R10). -/
structure TblKey where
  table : Nat
  replace : Bool
  static : Bool
  chainWide : Bool
  keyLen : Nat
  dataLen : Nat
  prefixLen : Nat
  key : Nat
  data : Nat
deriving DecidableEq, Repr

/-- Parameters of TBL_NEXT (Table 12.9). -/
structure TblNext where
  table : Nat
  max : Nat
  staleOnly : Bool
  chainWide : Bool
  destFilter : Bool
  originMask : Nat
  dest : Nat
  destMask : Nat
  cursor : Nat
  key : Nat
  keyMask : Nat
deriving DecidableEq, Repr

/-- Parameters of TBL_FLUSH_PORT (Table 12.9). -/
structure TblFlush where
  table : Nat
  kind : Nat
  inclStatic : Bool
  keyFilter : Bool
  value : Nat
  key : Nat
  keyMask : Nat
deriving DecidableEq, Repr

/-- Parameters of TCAM_INSERT (Table 12.9). -/
structure TcamParams where
  table : Nat
  actionId : Nat
  scope : Nat
  priority : Nat
  rangeEn : Nat
  data : Nat
  ranges : List (Nat × Nat)
  key : Nat
  mask : Nat
deriving DecidableEq, Repr

/-- A Clause 73 base page (R42): the speed in Gb/s and width of the PHY types it advertises, whether the CR and the KR type of them, and PAUSE ability. -/
structure BasePage where
  gbps : Nat
  width : Nat
  cr : Bool
  kr : Bool
  pause : Bool
deriving DecidableEq, Repr

/-- A port and the base page that its link partner sends (R42). -/
structure AnPage where
  port : Nat
  partner : BasePage
deriving DecidableEq, Repr

/-- The bring-up of a port begins over (R44): by a loss of lock, alignment or deskew, or by a received remote fault. -/
structure LineLoss where
  port : Nat
  remote : Bool
deriving DecidableEq, Repr

/-- What stands behind a received frame (R53, R177): whether its end has come, and then the verdict on it. -/
structure Verdict where
  good : Bool
  ended : Bool
deriving DecidableEq, Repr

/-- FEC codewords that a PCS has decoded: corrected ones and uncorrectable ones (R44). -/
structure Codewords where
  corrected : Nat
  uncorrected : Nat
deriving DecidableEq, Repr

/-- The presentations of one admission clock (R168): bit k of `a` and of `b` is the slot A and the slot B of pipeline P*k*. -/
structure ClockSlots where
  a : Nat
  b : Nat
deriving DecidableEq, Repr

/-- The bytes that a read asks for: `size` of them from `offset` on. -/
structure ByteSpan where
  offset : Nat
  size : Nat
deriving DecidableEq, Repr

/-- Parameters of POL_SET (Table 12.9). -/
structure PolSet where
  dir : Nat
  pipe : Nat
  index : Nat
  en : Bool
  tokenReset : Nat
  lenAdj : Int
  rate : Nat
  burst : Nat
deriving DecidableEq, Repr

/-- Parameters of SHP_SET (Table 12.9). -/
structure ShpSet where
  kind : Nat
  index : Nat
  en : Bool
  tokenReset : Nat
  rate : Nat
  burst : Nat
deriving DecidableEq, Repr

/-- Parameters of SCH_NODE_SET (Table 12.9, Table 8.5). -/
structure NodeSet where
  kind : Nat
  index : Nat
  attach : Nat
  parent : Nat
  band : Nat
  weight : Nat
  cls : Nat
  lenAdj : Int
deriving DecidableEq, Repr

/-- Parameters of PORT_MACRO_CFG (Table 12.9). -/
structure MacroCfg where
  mac : Nat
  enable : Bool
  directDrive : Bool
  laneRate : Nat
  reach : Nat
  portStart : Nat
  anEn : Nat
  txLane : Nat
  rxLane : Nat
  txInv : Nat
  rxInv : Nat
  maxFrame : List Nat
deriving DecidableEq, Repr

/-- Parameters of TEL_TARGET_SET (Table 9.7, Table 12.9). -/
structure TargetSet where
  target : Nat
  en : Bool
  kind : Nat
  vlanEn : Bool
  ipv6 : Bool
  resume : Bool
  port : Nat
  expRate : Nat
  expClass : Nat
  dscp : Nat
  srcMac : Nat
  dstMac : Nat
  vid : Nat
  pcp : Nat
  srcUdp : Nat
  srcIp : Nat
  dstIp : Nat
  dstUdp : Nat
  msgMax : Nat
  obsDomain : Nat
  destQp : Nat
  pmtu : Nat
  pKey : Nat
  rKey : Nat
  startPsn : Nat
  baseVa : Nat
  size : Nat
  gbase : Nat
deriving DecidableEq, Repr

/-- Parameters of a FUSE_PROGRAM (Table 12.9): VALUE, KEY and AUTH as numbers. -/
structure FuseParams where
  value : Nat
  key : Nat
  auth : Nat
deriving DecidableEq, Repr

/-- A command packet as it reaches a device (R275): the header and parameter bytes, the length of the frame or entry that carried it already matched to PARAM_LEN when `lenOk`. -/
structure Packet where
  bytes : List Byte
  lenOk : Bool
deriving DecidableEq, Repr

/-- A frame at a MAC: its bytes from the destination address onward, without FCS (so that the frame's length is four more). -/
structure Frame where
  bytes : List Byte
deriving DecidableEq, Repr

/-- An exact-match table of a pipeline image (R85).  `destLo` is the lowest bit of the 12-bit destination field in DATA. -/
structure ExactDef where
  id : Nat
  stage : Nat
  egress : Bool
  blocks : Nat
  entryBytes : Nat
  keyLen : Nat
  dataLen : Nat
  versioned : Bool
  learnable : Bool
  ageable : Bool
  destLo : Option Nat
  seed : Nat
deriving DecidableEq, Repr

/-- An LPM table of a pipeline image (R84, R109): its table SRAM blocks, and the rated prefix counts (for IPv6 up to /64 and beyond). -/
structure LpmDef where
  id : Nat
  v6 : Bool
  blocks : Nat := 8
  rated : Nat
  ratedLong : Nat
  dataLen : Nat
  default : Nat
deriving DecidableEq, Repr

/-- A policy table of a pipeline image (R114 to R118).  `profile` 1, 2, 3 as TCAM_TBL_STAT0 encodes it. -/
structure PolicyDef where
  id : Nat
  stage : Nat
  egress : Bool
  profile : Nat
  slices : Nat
  gmasks : List Nat
  rangePos : List Nat
deriving DecidableEq, Repr

/-- A field of the PHV (R60): `width` bits from bit `lo` of the container, or, where it is wider, of the consecutive containers from `cont`, the most significant part in the lowest-numbered one (log 70). -/
structure PhvField where
  cont : Nat
  lo : Nat
  width : Nat
deriving DecidableEq, Repr

/-- Where an ALU takes a source from (R75): a PHV field, a constant, or bits of the hit's action data. -/
inductive AluSrc where
  | phv (f : PhvField)
  | const (v : Nat)
  | data (lo width : Nat)
deriving DecidableEq, Repr

/-- The operations of an ALU (R75). -/
inductive AluOp where
  | set | add | sub | and | or | xor | shiftLeft | shiftRight | min | max | deposit (lo width : Nat) | condSet
deriving DecidableEq, Repr

/-- An instruction of a stage's action memory: the ALU it is for, its operation, the container or part of one it writes, and its two sources (R75). -/
structure AluIns where
  alu : Nat
  op : AluOp
  dst : PhvField
  a : AluSrc
  b : AluSrc
deriving DecidableEq, Repr

/-- An exact-match lookup or an LPM lookup of a stage (R74, R88, R109): its table, its key fields in order, and the instructions that a hit and a miss give. -/
structure LookupUse where
  table : Nat
  key : List PhvField
  hit : List AluIns
  miss : List AluIns
deriving DecidableEq, Repr

/-- A policy search of a stage (R115 to R117): its table, each key field with its lowest position in the key, the GMASK_SEL field, the instructions that each ACTION_ID selects, and the default action. -/
structure SearchUse where
  table : Nat
  key : List (PhvField × Nat)
  gsel : Option PhvField
  actions : List (Nat × List AluIns)
  miss : List AluIns
deriving DecidableEq, Repr

/-- A hash unit of a stage (R78, R79): which polynomial, its key fields, the pairs of key positions that symmetric mode orders, the constant seed where GLB_HASH_SEED is not used, and the field that takes the result. -/
structure HashUse where
  crc32c : Bool
  key : List PhvField
  pairs : List (Nat × Nat)
  seed : Option Nat
  out : PhvField
deriving DecidableEq, Repr

/-- A policer access or a counter update of a stage (R74, R204, R236): the field that gives the index, a field that must be nonzero for the use to be made, and the drop reason of a refusal. -/
structure IndexUse where
  index : PhvField
  gate : Option PhvField
  code : Nat
deriving DecidableEq, Repr

/-- One stage's configuration (Table 3.11): what it looks up, searches, hashes, polices and counts.  An LPM lookup stands at the stage of its first step. -/
structure StageProg where
  exact : List LookupUse := []
  lpm : List LookupUse := []
  tcam : Option SearchUse := none
  hash : List HashUse := []
  policer : Option IndexUse := none
  counters : List IndexUse := []
deriving DecidableEq, Repr

/-- A fixed-parser extraction (R64): bits [`bit`, `bit` + width) of the header instance of a HDR_VALID bit, counted from its first bit, into a PHV field. -/
structure ExtractUse where
  valid : Nat
  bit : Nat
  dst : PhvField
deriving DecidableEq, Repr

/-- A Geneve option that the image names (Table 3.3): class, type, and the field that takes its first 8 data bytes. -/
structure OptionUse where
  cls : Nat
  typ : Nat
  dst : PhvField
deriving DecidableEq, Repr

/-- A header that rewrite emits where its HDR_VALID bit is 1 (R82): the PHV fields that make it up, first bits first. -/
structure EmitUse where
  valid : Nat
  fields : List PhvField
deriving DecidableEq, Repr

/-- The learn key and data fields of a learnable table (R98). -/
structure LearnUse where
  table : Nat
  key : List PhvField
  data : List PhvField
deriving DecidableEq, Repr

/-- The program of a pipeline image (Chapter 3): the stage configurations with their action memories, the extraction lists of both directions, the bridged containers, the learn fields with the field that chooses among them, the emission order, the fields of IMG_KEY in both directions (R210) and CPU_META (Table 11.5).  The spec says what an image holds and gives it no encoding: this layout is the model's (log 70). -/
structure ImgProgram where
  ingress : List StageProg := []
  egress : List StageProg := []
  inExtract : List ExtractUse := []
  inOptions : List OptionUse := []
  egExtract : List ExtractUse := []
  egOptions : List OptionUse := []
  bridged : List Nat := [16, 17, 18, 19]
  learn : List LearnUse := []
  learnSel : Option PhvField := none
  emit : List EmitUse := []
  inKey : List PhvField := []
  egKey : List PhvField := []
  cpuMeta : Option Nat := none
deriving DecidableEq, Repr

/-- A pipeline image (Chapter 3): its identity, tables, Sketch graph, entry points and program. -/
structure Image where
  id : Nat
  major : Nat
  minor : Nat
  exact : List ExactDef
  lpm : List LpmDef
  policy : List PolicyDef
  /-- Sketch nodes by number, 64 words each (Table 3.8) -/
  nodes : List (Nat × List Nat)
  /-- SKETCH_ENTRY0 to 7 (Table 3.7) -/
  entries : List Nat
  prog : ImgProgram := {}
deriving DecidableEq, Repr

/-- A Gesso firmware image (Table 13.11) as the loader reads it.  `formOk` says that the header and directory are well formed and every section's digest matches (R303); `digest` is the SHA-384 of bytes 0 to SIG_OFFSET − 1, `sig` the Arique signature, `owner` the owner signature's slot and value, none when all zero; `roles` the manifest; `store` the microcode as (role, address, 128-bit word), words not listed being zero. -/
structure Gesso where
  version : Nat
  minHitless : Nat
  formOk : Bool
  digest : Nat
  sig : Nat
  owner : Option (Nat × Nat)
  pipe : Image
  roles : List Nat
  store : List (Nat × Nat × Nat)
deriving DecidableEq, Repr

/-- What an engine meets while one micro-word runs (R293, R296): the state of the control-store word's ECC (0 good, 1 corrected, 2 double-bit), an uncorrectable scratch read, and a refusal of the engine-bus access. -/
structure MicroEnv where
  cs : Nat
  scratchUe : Bool
  busRefused : Bool
deriving DecidableEq, Repr

end Sys2Proof
end

