-- ==== Sys2Proof/Syntax.lean ====
section
/-! DEFINITION. The commands of the block: one constructor per row of the opcode table.  A command row carries the header `h` of its packet (with the instant `h.t` at which it takes effect); every other row carries the instant `t` at which it happens, on the monotonic nanosecond count of R404. -/

namespace Sys2Proof

/-- The commands, register accesses, received signals and internal events of the TS1536, each whole and indivisible. -/
inductive Instr where
  /-- SYS_INFO (R290): Command that returns the image identity, the Gesso version, the next SERIAL, the outstanding count, boot progress and the chain ID. -/
  | sysInfo (h : Hdr)
  /-- SYS_NOP (R290): Command that does nothing and replies under the ACK rules. -/
  | sysNop (h : Hdr)
  /-- SYS_PROGRESS (R278): Command that returns PERMILLE, OPCODE, SERIAL and CURSOR of the oldest outstanding command matching TAG and MASTER_ID. -/
  | sysProgress (h : Hdr) (tag : Nat) (master : Nat)
  /-- OBJ_LOCK (R285): Command that takes or renews exclusive write on one lock class for LEASE_MS. -/
  | objLock (h : Hdr) (cls : Nat) (lease : Nat)
  /-- OBJ_UNLOCK (R285): Command that releases a lock class held by the sending master. -/
  | objUnlock (h : Hdr) (cls : Nat)
  /-- OBJ_LOCK_QUERY (R285): Command that returns the holder and remaining lease of each lock class. -/
  | objLockQuery (h : Hdr)
  /-- SYS_WARM_RESET (R396): Command that replies and then starts a warm reset. -/
  | sysWarmReset (h : Hdr) (confirm : Nat)
  /-- FUSE_PROGRAM_POWER_CEILING (R405): FUSE_PROGRAM of fuse 0, which lowers POWER_CEILING and may lower CAP_W. -/
  | fuseProgramPowerCeiling (h : Hdr) (p : FuseParams)
  /-- FUSE_PROGRAM_OWNER_ENROL (R405): FUSE_PROGRAM of fuse 1 with bit 8 clear, which enrols an owner key hash in an empty slot. -/
  | fuseProgramOwnerEnrol (h : Hdr) (p : FuseParams)
  /-- FUSE_PROGRAM_OWNER_REVOKE (R405): FUSE_PROGRAM of fuse 1 with bit 8 set, which revokes an enrolled owner slot. -/
  | fuseProgramOwnerRevoke (h : Hdr) (p : FuseParams)
  /-- FUSE_PROGRAM_LANE_LICENSE (R405): FUSE_PROGRAM of fuse 2, which raises the lane licence under the Arique root key. -/
  | fuseProgramLaneLicense (h : Hdr) (p : FuseParams)
  /-- FUSE_PROGRAM_INBAND_KEY (R405): FUSE_PROGRAM of fuse 3, which replaces the in-band key and advances KEY_GEN. -/
  | fuseProgramInbandKey (h : Hdr) (p : FuseParams)
  /-- FUSE_LOG_READ (R407): Command that returns up to 16 fuse log entries. -/
  | fuseLogRead (h : Hdr) (first : Nat)
  /-- TBL_INSERT (R91): Command that inserts or replaces a table entry by the insert procedure. -/
  | tblInsert (h : Hdr) (p : TblKey)
  /-- TBL_DELETE (R91): Command that deletes a table entry, or ends it in the staged version. -/
  | tblDelete (h : Hdr) (p : TblKey)
  /-- TBL_SEARCH (R104): Command that returns the entry record of a key, with any staged record. -/
  | tblSearch (h : Hdr) (p : TblKey)
  /-- TBL_SEARCH_CHAIN_WIDE (R347): TBL_SEARCH with CHAIN_WIDE set, answered by every chain member in DEV_ID order. -/
  | tblSearchChainWide (h : Hdr) (p : TblKey)
  /-- TBL_NEXT (R105): Command that walks a table from a cursor and returns filtered entry records. -/
  | tblNext (h : Hdr) (p : TblNext)
  /-- TBL_NEXT_CHAIN_WIDE (R348): TBL_NEXT with CHAIN_WIDE set, which walks every member under the chain-wide cursor. -/
  | tblNextChainWide (h : Hdr) (p : TblNext)
  /-- TBL_FLUSH_PORT (R108): Command that starts a background flush of matching dynamic entries. -/
  | tblFlushPort (h : Hdr) (p : TblFlush)
  /-- TBL_REHASH (R94): Command that starts a rehash of a table under a new seed, or a repack of an LPM table. -/
  | tblRehash (h : Hdr) (table : Nat) (seed : Nat)
  /-- TBL_AGE_CFG (R103): Command that sets the tick, threshold, sweep length and enable of aging for a table. -/
  | tblAgeCfg (h : Hdr) (table : Nat) (en : Bool) (tickMs : Nat) (ageTicks : Nat) (sweepTicks : Nat)
  /-- MC_GROUP_WRITE (R167): Command that writes targets into a multicast group's list at one clock. -/
  | mcGroupWrite (h : Hdr) (group : Nat) (first : Nat) (truncate : Bool) (targets : List Nat)
  /-- MC_GROUP_READ (R167): Command that returns part of a multicast group's target list. -/
  | mcGroupRead (h : Hdr) (group : Nat) (first : Nat) (max : Nat)
  /-- POL_STAGE (R130): Command that stages a version by making CURRENT + 1 PENDING after the epoch rewrite. -/
  | polStage (h : Hdr)
  /-- POL_COMMIT (R131): Command that waits for staged writes and then requests the commit strobe. -/
  | polCommit (h : Hdr)
  /-- POL_ABORT (R132): Command that discards the staged version and frees the PENDING epoch. -/
  | polAbort (h : Hdr)
  /-- TCAM_INSERT (R122): Command that inserts a policy entry into the staged version and returns a handle. -/
  | tcamInsert (h : Hdr) (p : TcamParams)
  /-- TCAM_DELETE (R130): Command that ends a policy entry in the staged version. -/
  | tcamDelete (h : Hdr) (handle : Nat)
  /-- TCAM_READ (R119): Command that returns a policy entry by its handle. -/
  | tcamRead (h : Hdr) (handle : Nat)
  /-- TCAM_NEXT (R119): Command that walks a policy table in handle order. -/
  | tcamNext (h : Hdr) (table : Nat) (max : Nat) (first : Nat)
  /-- POL_SET (R206): Command that sets a policer's enable, rate, burst, length adjustment and tokens. -/
  | polSet (h : Hdr) (p : PolSet)
  /-- POL_GET (R207): Command that returns a policer's setting, refreshed tokens and counts. -/
  | polGet (h : Hdr) (dir : Nat) (pipe : Nat) (index : Nat)
  /-- SHP_SET (R202): Command that sets a node's shaper in one BUF clock. -/
  | shpSet (h : Hdr) (p : ShpSet)
  /-- SCH_NODE_SET (R189): Command that attaches a scheduling node or changes its parent, band, weight, class or length adjustment. -/
  | schNodeSet (h : Hdr) (p : NodeSet)
  /-- SCH_NODE_DETACH (R190): SCH_NODE_SET with ATTACH = 0, which refuses new copies and lets the queue drain. -/
  | schNodeDetach (h : Hdr) (kind : Nat) (index : Nat)
  /-- PORT_MACRO_CFG (R34): Command that enables a macro or changes its rate, layout, reach, maps and polarity. -/
  | portMacroCfg (h : Hdr) (p : MacroCfg)
  /-- PORT_MACRO_DISABLE (R34): PORT_MACRO_CFG with ENABLE = 0, which powers the macro off and returns its licence place. -/
  | portMacroDisable (h : Hdr) (mac : Nat)
  /-- TEL_TARGET_SET (R219): Command that enables an IPFIX or Portfolio export target. -/
  | telTargetSet (h : Hdr) (p : TargetSet)
  /-- TEL_TARGET_DISABLE (R219): TEL_TARGET_SET with EN = 0, which stops filling and discards the filling batch. -/
  | telTargetDisable (h : Hdr) (target : Nat)
  /-- TEL_FLOW_FLUSH (R213): Command that flushes every flow cache entry as a forced end. -/
  | telFlowFlush (h : Hdr)
  /-- CNT_READ (R236): Command that reads up to 64 live counters of one Swatch section. -/
  | cntRead (h : Hdr) (sect : Nat) (count : Nat) (index : Nat)
  /-- CNT_VF_PERMIT (R242): Command that writes one entry of a VF's counter permission table. -/
  | cntVfPermit (h : Hdr) (vf : Nat) (entry : Nat) (en : Bool) (first : Nat) (count : Nat)
  /-- CNT_VF_QUERY (R242): Command that returns a VF's 16 permission entries. -/
  | cntVfQuery (h : Hdr) (vf : Nat)
  /-- SWATCH_TAKE (R245): Command that schedules a Swatch capture at an instant. -/
  | swatchTake (h : Hdr) (time : Nat)
  /-- SWATCH_RELEASE (R245): Command that releases a held Swatch buffer. -/
  | swatchRelease (h : Hdr) (seq : Nat)
  /-- PWR_CAP_SET (R357): Command that sets the power cap for the next loop pass. -/
  | pwrCapSet (h : Hdr) (capW : Nat)
  /-- PWR_MODE_SET (R357): Command that selects boost permitted or fixed frequency. -/
  | pwrModeSet (h : Hdr) (mode : Nat)
  /-- PWR_THRESH_SET (R361): Command that sets the thermal thresholds and hysteresis. -/
  | pwrThreshSet (h : Hdr) (t1 : Nat) (t2 : Nat) (t3 : Nat) (hyst : Nat)
  /-- PWR_STATUS (R351): Command that returns power, temperature, clock, throttle and status flags. -/
  | pwrStatus (h : Hdr)
  /-- PWR_COEF_READ (R371): Command that returns the energy coefficients of one pass. -/
  | pwrCoefRead (h : Hdr)
  /-- PIPE_RETURN (R379): Command that reloads and tests a quarantined pipeline and moves its macros back. -/
  | pipeReturn (h : Hdr) (dir : Nat) (pipe : Nat)
  /-- BANK_RETURN (R379): Command that tests a retired bank and returns it to service. -/
  | bankReturn (h : Hdr) (bank : Nat)
  /-- VARNISH_ARM (R387): Command with ARM = 1 that arms one event as a Varnish trigger. -/
  | varnishArm (h : Hdr) (event : Nat)
  /-- VARNISH_DISARM (R387): VARNISH_ARM with ARM = 0, which disarms the armed event. -/
  | varnishDisarm (h : Hdr) (event : Nat)
  /-- FLT_INJECT (R386): Command that raises an event as if it had occurred, with its action on instance 0. -/
  | fltInject (h : Hdr) (event : Nat)
  /-- MACRO_RETURN (R381): Command that retrains, recalibrates and restores a failed macro. -/
  | macroReturn (h : Hdr) (mac : Nat)
  /-- STL_PORT_CFG (R324): Command that sets a Stretcher port's mode, width, bond and REFO_EN. -/
  | stlPortCfg (h : Hdr) (port : Nat) (mode : Nat) (lanes : Nat) (bond : Bool) (refo : Bool)
  /-- TWIN_CFG (R334): Command that sets the twin role, timers and backup heartbeat ports. -/
  | twinCfg (h : Hdr) (role : Nat) (holdMs : Nat) (warmupMs : Nat) (bkp0 : Nat) (bkp1 : Nat)
  /-- CHAIN_CFG (R330): Command that sets DEV_ID and the chain latency budget. -/
  | chainCfg (h : Hdr) (dev : Nat) (budget : Nat)
  /-- CHAIN_MEMBERS (R349): Command that returns chain membership records. -/
  | chainMembers (h : Hdr) (first : Nat)
  /-- TWIN_STATUS (R349): Command that returns the twin state, roles and flags. -/
  | twinStatus (h : Hdr)
  /-- FW_INFO (R305): Command that returns image versions, the boot copy and engine roles. -/
  | fwInfo (h : Hdr)
  /-- FW_STAGE (R305): Command that copies and checks an image into the staged slot. -/
  | fwStage (h : Hdr) (src : Nat) (len : Nat) (addr : Nat) (image : Gesso)
  /-- FW_ACTIVATE (R306): FW_ACTIVATE with MODE 0, which starts a hitless update by role groups in halves. -/
  | fwActivate (h : Hdr) (mode : Nat)
  /-- FW_ACTIVATE_NEXT_RESET (R305): FW_ACTIVATE with MODE 1, which marks the staged image for the next warm reset. -/
  | fwActivateNextReset (h : Hdr)
  /-- FW_FLASH_WRITE (R305): Command that erases a flash copy, writes the staged image and verifies it. -/
  | fwFlashWrite (h : Hdr) (copy : Nat)
  /-- ENG_RETURN (R302): Command that reloads and self-tests a failed engine. -/
  | engReturn (h : Hdr) (engine : Nat)
  /-- COMMAND_DISPATCH (R282): A sequenced command whose objects are free is dispatched to an interpreter engine by PRIORITY and SERIAL. -/
  | commandDispatch (t : Nat) (engine : Nat)
  /-- PROGRESS_REPLY (R278): A command of kind L with PROGRESS sends an interim reply at each 100 per mille or every 100 ms. -/
  | progressReply (t : Nat) (serial : Nat)
  /-- LOCK_EXPIRED (R285): A lock's lease expires and the lock ends. -/
  | lockExpired (t : Nat) (cls : Nat)
  /-- REGISTER_WRITE (R12): A write to a register field with no row of its own takes effect in device order. -/
  | registerWrite (t : Nat) (offset : Nat) (bytes : Nat) (value : W32)
  /-- UNMAPPED_ACCESS (R261): An access to an unassigned offset reads zero, ignores writes and raises UNMAPPED. -/
  | unmappedAccess (t : Nat) (offset : Nat) (write : Bool)
  /-- EVENT_REG_CLEAR (R259): A write back of an SC register's SEQ clears its event bits when the mark is clear. -/
  | eventRegClear (t : Nat) (offset : Nat) (value : W32)
  /-- WIDE_SHADOW_READ (R263): A read of a wide value's lowest word copies its other words into the shadow. -/
  | wideShadowRead (t : Nat) (offset : Nat)
  /-- WIDE_FIELD_WRITE (R265): A high-word write applies a held 64-bit RW field. -/
  | wideFieldWrite (t : Nat) (offset : Nat) (value : W32)
  /-- WIDE_MBX_ADDR_WRITE (R264): A write to WIDE_MBX_ADDR starts a mailbox read of a wide value. -/
  | wideMbxAddrWrite (t : Nat) (value : W32)
  /-- WIDE_MBX_DONE (R264): A mailbox read completes with VALID or ERR within 4 µs. -/
  | wideMbxDone (t : Nat)
  /-- TS_POP_READ (R56): A complete read of MAC_TS_POP returns and removes the oldest capture. -/
  | tsPopRead (t : Nat) (mac : Nat)
  /-- SRC_MAP_WRITE (R17): A write changing a source attachment in GLB_SRC_MAP starts a move behind a drain marker. -/
  | srcMapWrite (t : Nat) (index : Nat) (value : W32)
  /-- SRC_MOVE_DONE (R17): A drain marker leaves the old pipeline and the source's new packets enter the new one. -/
  | srcMoveDone (t : Nat) (src : Nat)
  /-- PARSE_CFG_WRITE (R67): A write to a parser or seed register is held until the next POL_COMMIT. -/
  | parseCfgWrite (t : Nat) (reg : Nat) (value : W32)
  /-- HOLD_MAX_WRITE (R134): A write of HOLD_MAX_MS applies at once and may expire DRAINING epochs. -/
  | holdMaxWrite (t : Nat) (value : W32)
  /-- POOL_SIZE_WRITE (R169): A write to a pool size or RESERVED_MIN is applied or ignored with CFG_REFUSED. -/
  | poolSizeWrite (t : Nat) (offset : Nat) (value : W32)
  /-- EXP_PERIOD_WRITE (R223): A write of EXP_PERIOD_US takes effect at the deadline of the batch in transmission. -/
  | expPeriodWrite (t : Nat) (value : W32)
  /-- WINDOW_US_WRITE (R234): A write of WINDOW_US discards the window in progress. -/
  | windowUsWrite (t : Nat) (src : Nat) (value : W32)
  /-- LANE_TXEQ_WRITE (R41): A write to LANE_TXEQ takes effect between codewords, with C_MAIN limited. -/
  | laneTxeqWrite (t : Nat) (mac : Nat) (lane : Nat) (value : W32)
  /-- REARM (R47): A write of REARM takes a LATCHED driver to RAMP or OFF. -/
  | rearm (t : Nat) (mac : Nat) (lane : Nat)
  /-- TX_SQUELCH (R47): A write of TX_SQUELCH holds the driver off and cancels retries. -/
  | txSquelch (t : Nat) (mac : Nat) (lane : Nat) (squelch : Bool)
  /-- TOD_SET (R403): A write of TOD_SET sets TOD and VALID and is a step of TOD. -/
  | todSet (t : Nat) (value : Nat)
  /-- RING_ENABLE (R267): Setting EN of a receive or transmit ring sets HEAD and TAIL to 0. -/
  | ringEnable (t : Nat) (ring : Nat) (value : W32)
  /-- RING_RESET (R270): Writing RESET of a packet ring aborts its frame in progress and discards reserved copies. -/
  | ringReset (t : Nat) (ring : Nat)
  /-- RING_RESET_DONE (R270): A ring reset completes with EN 0 and RST_DONE 1 within 10 µs. -/
  | ringResetDone (t : Nat) (ring : Nat)
  /-- RING_TAIL_WRITE (R268): Host software advances a ring's TAIL, posting receive descriptors or transmit frames. -/
  | ringTailWrite (t : Nat) (ring : Nat) (tail : Nat) (frames : List (List Byte))
  /-- CMD_RING_ENABLE (R287): Setting EN of a command ring sets its four positions to 0. -/
  | cmdRingEnable (t : Nat) (ring : Nat) (value : W32)
  /-- CMD_RING_RESET (R287): Writing RESET of a command ring stops taking entries and drops untaken ones. -/
  | cmdRingReset (t : Nat) (ring : Nat)
  /-- SQ_TAIL_WRITE (R286): Host software advances SQ_TAIL and the device takes the submitted entries. -/
  | sqTailWrite (t : Nat) (ring : Nat) (tail : Nat) (entries : List (List Byte))
  /-- CQ_HEAD_WRITE (R286): Host software advances CQ_HEAD, freeing room for waiting final replies. -/
  | cqHeadWrite (t : Nat) (ring : Nat) (head : Nat)
  /-- SAMPLE_RING_ENABLE (R239): Setting EN of a sample ring sets PROD and CONS to 0. -/
  | sampleRingEnable (t : Nat) (ring : Nat) (value : W32)
  /-- SAMPLE_CONS_WRITE (R239): Host software advances CONS of a sample ring, freeing room. -/
  | sampleConsWrite (t : Nat) (ring : Nat) (cons : Nat)
  /-- COAL_TIMER (R267): A ring's COAL_US expires and its vector is raised. -/
  | coalTimer (t : Nat) (cmd : Bool) (ring : Nat)
  /-- POWER_ON (R395): AON power is applied and a power-on reset begins. -/
  | powerOn (t : Nat)
  /-- AON_POWER_LOSS (R376): AON power is removed, clearing the history and ending safe state and Varnish. -/
  | aonPowerLoss (t : Nat)
  /-- RST_N (R395): RST_N low then high performs a cold reset. -/
  | rstN (t : Nat)
  /-- HOST_RESET (R256): PERST_N, function-level reset, D3hot or link loss resets the host interface only. -/
  | hostReset (t : Nat) (cause : Nat)
  /-- WARM_RESET_START (R396): A warm reset begins after the SYS_WARM_RESET reply is sent. -/
  | warmResetStart (t : Nat)
  /-- BOOT_STAGE_DONE (R398): A boot stage completes and the next begins. -/
  | bootStageDone (t : Nat) (copy0 : Option Gesso) (copy1 : Option Gesso)
  /-- RAIL_FAULT (R393): A rail falls out of its window after core release and the device enters the safe state. -/
  | railFault (t : Nat) (rail : Nat)
  /-- REFCLK_LOSS (R401): AON_CLK or REFCLK is lost after Ready and the device enters the safe state. -/
  | refclkLoss (t : Nat) (aon : Bool)
  /-- REF_LOST (R327): STLREFCLK is lost, the PLL unlocks and every Stretcher port goes down. -/
  | refLost (t : Nat)
  /-- REF_LOCK (R327): The Stretcher PLL relocks after the reference returns and enabled ports restart. -/
  | refLock (t : Nat)
  /-- PPS_CAPTURE (R403): A TOD_1PPS_IN edge captures TOD into TOD_PPS_CAP. -/
  | ppsCapture (t : Nat)
  /-- VARNISH_TRIGGER (R388): A Varnish trigger forces drivers off and stops every clock but TST. -/
  | varnishTrigger (t : Nat)
  /-- IDCODE (R389): JTAG instruction that selects the IDCODE register. -/
  | idcode (t : Nat) (shift : Nat) (tdi : Nat)
  /-- VSTATUS (R389): JTAG instruction that selects the freeze status register. -/
  | vstatus (t : Nat) (shift : Nat) (tdi : Nat)
  /-- SCAN_DOMAIN (R389): JTAG instruction that selects a domain's scan chain. -/
  | scanDomain (t : Nat) (dom : Nat) (shift : Nat) (tdi : Nat)
  /-- MEM_SEL (R389): JTAG instruction that names a memory and start word. -/
  | memSel (t : Nat) (shift : Nat) (tdi : Nat)
  /-- MEM_DATA (R389): JTAG instruction whose shift returns the next memory word. -/
  | memData (t : Nat) (shift : Nat) (tdi : Nat)
  /-- BYPASS (R389): JTAG instruction that selects the one-bit bypass register. -/
  | bypass (t : Nat) (shift : Nat) (tdi : Nat)
  /-- BMC_ID_READ (R272): BMC code 0x00 returns the identification registers and serial. -/
  | bmcIdRead (t : Nat)
  /-- BMC_STATUS_READ (R272): BMC code 0x01 returns the safe state bit and boot progress. -/
  | bmcStatusRead (t : Nat)
  /-- BMC_TEMP_READ (R272): BMC code 0x10 returns the hottest sensor. -/
  | bmcTempRead (t : Nat)
  /-- BMC_POWER_READ (R272): BMC code 0x11 returns the power estimate. -/
  | bmcPowerRead (t : Nat)
  /-- BMC_FAULT_SUMMARY (R384): BMC code 0x20 returns the fault summary. -/
  | bmcFaultSummary (t : Nat)
  /-- BMC_ADDR_WRITE (R272): BMC code 0x30 sets the BAR0 offset for code 0x31. -/
  | bmcAddrWrite (t : Nat) (addr : Nat)
  /-- BMC_REG_READ (R272): BMC code 0x31 returns status and the register value at the set offset. -/
  | bmcRegRead (t : Nat)
  /-- BMC_COMMAND_WRITE (R272): BMC code 0x40 submits one command packet. -/
  | bmcCommandWrite (t : Nat) (bytes : List Byte)
  /-- BMC_REPLY_READ (R272): BMC code 0x41 returns the reply to the last submitted packet. -/
  | bmcReplyRead (t : Nat)
  /-- INBAND_COMMAND_RX (R288): An in-band command frame is authenticated and its packet passed to the sequencer. -/
  | inbandCommandRx (t : Nat) (port : Nat) (frame : Frame)
  /-- INBAND_REPLY_TX (R289): An in-band reply frame is sent from the receiving port as an export frame. -/
  | inbandReplyTx (t : Nat) (port : Nat)
  /-- UART_RX_BYTE (R274): A console byte is received or discarded on a framing error or full FIFO. -/
  | uartRxByte (t : Nat) (byte : Byte) (framing : Bool)
  /-- FRAME_RX (R53): A frame is received by a port's MAC, timestamped, checked and offered to the ingress FIFO. -/
  | frameRx (t : Nat) (port : Nat) (frame : Frame) (verdict : Verdict) (fec : Codewords)
  /-- PFC_FRAME_RX (R51): A received PFC or PAUSE frame starts or ends pause timers of its classes. -/
  | pfcFrameRx (t : Nat) (port : Nat) (opcode : Nat) (enable : Nat) (quanta : List Nat)
  /-- PAUSE_TIMER_EXPIRE (R51): A received pause timer expires and the class may transmit again. -/
  | pauseTimerExpire (t : Nat) (port : Nat) (cls : Nat)
  /-- PFC_FRAME_TX (R50): The MAC sends a pause or release frame after any frame in progress. -/
  | pfcFrameTx (t : Nat) (port : Nat)
  /-- PFC_REFRESH (R49): The REFRESH interval expires and the pause frame is resent. -/
  | pfcRefresh (t : Nat) (port : Nat)
  /-- RX_TAIL_ERROR (R177): An error is found in a frame's tail after its head entered the pipeline. -/
  | rxTailError (t : Nat) (port : Nat) (good : Bool)
  /-- PORT_UP (R44): A port holds lock, alignment and deskew for 1 ms and is declared up. -/
  | portUp (t : Nat) (port : Nat)
  /-- PORT_DOWN (R44): A port loses lock or receives remote fault and is declared down. -/
  | portDown (t : Nat) (loss : LineLoss)
  /-- AN_RESTART (R42): A port with no common ability restarts auto-negotiation after 1 s. -/
  | anRestart (t : Nat) (port : Nat)
  /-- LT_FAIL (R43): Link training's wait timer expires and the port returns to negotiation or training. -/
  | ltFail (t : Nat) (port : Nat)
  /-- SERDES_WAKE_DONE (R46): A powered-off SerDes finishes its 500 µs wake and its lanes enter RAMP; `mac` 96 to 99 names Stretcher ports SL0 to SL3, as in the other lane rows. -/
  | serdesWakeDone (t : Nat) (mac : Nat)
  /-- RAMP_COMPLETE (R46): A driver's 20 µs ramp completes and it enters ON. -/
  | rampComplete (t : Nat) (mac : Nat) (lane : Nat)
  /-- TX_TRIP (R46): An overcurrent lasting 2 µs trips the driver to SHORT_WAIT or LATCHED. -/
  | txTrip (t : Nat) (mac : Nat) (lane : Nat)
  /-- OC_GLITCH (R46): An overcurrent ends within 2 µs and is counted. -/
  | ocGlitch (t : Nat) (mac : Nat) (lane : Nat)
  /-- SHORT_RETRY (R46): 100 ms after a trip the driver retries by entering RAMP. -/
  | shortRetry (t : Nat) (mac : Nat) (lane : Nat)
  /-- RETRY_CLEAR (R47): A driver ON for 1 s without trip clears RETRY_COUNT. -/
  | retryClear (t : Nat) (mac : Nat) (lane : Nat)
  /-- PIPELINE_ENTRY (R58): A pipeline takes a packet from its FIFO and runs the parser, Sketch graph and stages. -/
  | pipelineEntry (t : Nat) (pipe : Nat)
  /-- ACTION_RESOLVE (R171): A packet leaves its ingress pipeline and admission decides each copy. -/
  | actionResolve (t : Nat) (slots : ClockSlots)
  /-- CELL_WRITE (R159): The write allocator places waiting cells into banks. -/
  | cellWrite (t : Nat)
  /-- SCHED_SELECT (R193): The scheduler selects a copy for a port node. -/
  | schedSelect (t : Nat) (port : Nat)
  /-- BANK_MATCH (R163): A three-iteration match between readers and banks starts and its banks read. -/
  | bankMatch (t : Nat)
  /-- EGRESS_PIPELINE (R81): A copy's cells reach its egress pipeline for extraction, stages and rewrite. -/
  | egressPipeline (t : Nat) (copy : Nat)
  /-- FRAME_TX (R82): A copy is transmitted by the MAC and its Glaze record closes. -/
  | frameTx (t : Nat) (copy : Nat)
  /-- SHAPER_RELEASE (R201): A timing wheel entry falls due and its node becomes eligible. -/
  | shaperRelease (t : Nat) (kind : Nat) (index : Nat)
  /-- PFC_WD_DROP (R181): A class paused for WD_MS enters watchdog drop mode. -/
  | pfcWdDrop (t : Nat) (port : Nat) (cls : Nat)
  /-- PFC_WD_RESTORE (R181): No pause for RESTORE_MS ends watchdog drop mode. -/
  | pfcWdRestore (t : Nat) (port : Nat) (cls : Nat)
  /-- DETACH_DONE (R190): A queue with a detach pending empties and becomes detached. -/
  | detachDone (t : Nat) (kind : Nat) (index : Nat)
  /-- UPDATE_WINDOW (R89): An update window applies up to 16 entry writes to all replicas. -/
  | updateWindow (t : Nat)
  /-- AGING_TICK (R101): An aging tick visits the next slice of a table. -/
  | agingTick (t : Nat) (table : Nat)
  /-- REHASH_DONE (R94): A rehash finishes STABLE or RESIDUAL and GEN advances. -/
  | rehashDone (t : Nat) (table : Nat)
  /-- RESIDUAL_RETRY (R95): Every 100 ms in RESIDUAL residual entries are reinserted. -/
  | residualRetry (t : Nat) (table : Nat)
  /-- FLUSH_DONE (R108): A background flush completes and GEN advances. -/
  | flushDone (t : Nat) (table : Nat)
  /-- COMMIT_STROBE (R131): The commit strobe makes the PENDING epoch CURRENT. -/
  | commitStrobe (t : Nat)
  /-- EPOCH_REWRITE_DONE (R129): The VALID_FROM rewrite ends and the epoch becomes PENDING. -/
  | epochRewriteDone (t : Nat)
  /-- EPOCH_EXPIRE (R134): A DRAINING epoch reaches HOLD_MAX_MS and its packets are removed. -/
  | epochExpire (t : Nat) (epoch : Nat)
  /-- EPOCH_RECLAIM (R133): The oldest epoch with zero in-flight count enters RECLAIMING. -/
  | epochReclaim (t : Nat)
  /-- EPOCH_RECLAIM_DONE (R133): Reclamation frees its entries and OLDEST advances. -/
  | epochReclaimDone (t : Nat)
  /-- SCRUB_VISIT (R124): The scrubber compares a TCAM row with its shadow and fixes it. -/
  | scrubVisit (t : Nat) (pipe : Nat) (handle : Nat)
  /-- SCOPE_COPY_DONE (R121): Scoped TCAM rows are copied and the new pipeline takes the port. -/
  | scopeCopyDone (t : Nat) (kind : Nat) (index : Nat)
  /-- WIRE_FAULT (R372): An error pair reads invalid in two samples and its source is treated as failed. -/
  | wireFault (t : Nat) (inst : Nat)
  /-- MEM_CE (R377): A corrected memory error is recorded. -/
  | memCe (t : Nat) (code : Nat) (inst : Nat) (location : Nat)
  /-- MEM_UE (R377): An uncorrectable memory error acts by memory code. -/
  | memUe (t : Nat) (code : Nat) (inst : Nat) (location : Nat)
  /-- PIPE_QUARANTINE (R378): A pipeline is quarantined and its macros move to a sibling. -/
  | pipeQuarantine (t : Nat) (dir : Nat) (pipe : Nat)
  /-- BANK_DRAIN_DONE (R380): A retired bank's last cell is released and it leaves service. -/
  | bankDrainDone (t : Nat) (bank : Nat)
  /-- MACRO_PLL_LOSS (R381): A macro PLL not relocked within 1 ms fails the macro. -/
  | macroPllLoss (t : Nat) (mac : Nat)
  /-- TILE_LINK_RETRY (R382): A tile link CRC failure is retried or retrains the link. -/
  | tileLinkRetry (t : Nat) (tile : Nat) (ok : Bool) (lost : Nat)
  /-- TILE_LINK_DOWN (R382): A tile link fails to retrain three times in 1 ms and its macros fail. -/
  | tileLinkDown (t : Nat) (tile : Nat)
  /-- THERM_SAMPLE (R361): The AON island samples the sensors and sets THR_THERM. -/
  | thermSample (t : Nat) (temps : List Int)
  /-- SENSOR_CHECK (R360): Once a second each sensor is checked against its region. -/
  | sensorCheck (t : Nat) (temps : List Int)
  /-- DROOP_DETECT (R365): A droop detector stretches its domain's next cycle. -/
  | droopDetect (t : Nat) (domain : Nat)
  /-- POWER_LOOP_PASS (R353): A 4 µs pass estimates power, moves the cap ladder and rescales coefficients. -/
  | powerLoopPass (t : Nat) (vr : Nat) (est : Nat) (static : Nat) (proj : Nat)
  /-- VOLTAGE_CONFIRMED (R352): The regulator confirms the new voltage and the core clock is raised. -/
  | voltageConfirmed (t : Nat)
  /-- LOOP_STALL (R359): No pass for 64 µs makes the AON island limit the clock. -/
  | loopStall (t : Nat)
  /-- AGEING_READOUT (R369): Each second the ageing monitors are read. -/
  | ageingReadout (t : Nat) (consumed : List Nat)
  /-- UNIT_SLEEP (R366): An idle unit goes to sleep. -/
  | unitSleep (t : Nat) (kind : Nat) (index : Nat)
  /-- UNIT_WAKE (R366): A sleeping unit wakes on arrival or access. -/
  | unitWake (t : Nat) (kind : Nat) (index : Nat)
  /-- NEXT (R294): Micro-word SEQ NEXT continues at micro-PC + 1. -/
  | uNext (t : Nat) (eng : Nat) (env : MicroEnv)
  /-- BR (R294): Micro-word SEQ BR branches to TARGET. -/
  | uBr (t : Nat) (eng : Nat) (env : MicroEnv)
  /-- BRT (R294): Micro-word SEQ BRT branches when flag COND is 1. -/
  | uBrt (t : Nat) (eng : Nat) (env : MicroEnv)
  /-- BRF (R294): Micro-word SEQ BRF branches when flag COND is 0. -/
  | uBrf (t : Nat) (eng : Nat) (env : MicroEnv)
  /-- CALL (R295): Micro-word SEQ CALL pushes and branches. -/
  | uCall (t : Nat) (eng : Nat) (env : MicroEnv)
  /-- RET (R295): Micro-word SEQ RET pops the micro-stack. -/
  | uRet (t : Nat) (eng : Nat) (env : MicroEnv)
  /-- URET (R297): Micro-word SEQ URET restores from the trap frame. -/
  | uUret (t : Nat) (eng : Nat) (env : MicroEnv)
  /-- WAIT (R294): Micro-word SEQ WAIT waits for DB, TMR or EVT. -/
  | uWait (t : Nat) (eng : Nat) (env : MicroEnv)
  /-- HALT (R294): Micro-word SEQ HALT stops the engine. -/
  | uHalt (t : Nat) (eng : Nat) (env : MicroEnv)
  /-- PASS_A (R294): ALU_OP 0x00 passes source A. -/
  | uPassA (t : Nat) (eng : Nat) (env : MicroEnv)
  /-- ADD (R294): ALU_OP 0x01 adds. -/
  | uAdd (t : Nat) (eng : Nat) (env : MicroEnv)
  /-- SUBTRACT (R294): ALU_OP 0x02 subtracts. -/
  | uSubtract (t : Nat) (eng : Nat) (env : MicroEnv)
  /-- AND (R294): ALU_OP 0x03 ands. -/
  | uAnd (t : Nat) (eng : Nat) (env : MicroEnv)
  /-- OR (R294): ALU_OP 0x04 ors. -/
  | uOr (t : Nat) (eng : Nat) (env : MicroEnv)
  /-- XOR (R294): ALU_OP 0x05 xors. -/
  | uXor (t : Nat) (eng : Nat) (env : MicroEnv)
  /-- SHIFT_LEFT (R294): ALU_OP 0x06 shifts left. -/
  | uShiftLeft (t : Nat) (eng : Nat) (env : MicroEnv)
  /-- SHIFT_RIGHT (R294): ALU_OP 0x07 shifts right. -/
  | uShiftRight (t : Nat) (eng : Nat) (env : MicroEnv)
  /-- ARITHMETIC_SHIFT_RIGHT (R294): ALU_OP 0x08 shifts right arithmetically. -/
  | uArithmeticShiftRight (t : Nat) (eng : Nat) (env : MicroEnv)
  /-- MINIMUM (R294): ALU_OP 0x09 takes the unsigned minimum. -/
  | uMinimum (t : Nat) (eng : Nat) (env : MicroEnv)
  /-- MAXIMUM (R294): ALU_OP 0x0A takes the unsigned maximum. -/
  | uMaximum (t : Nat) (eng : Nat) (env : MicroEnv)
  /-- MULTIPLY (R294): ALU_OP 0x0B multiplies, low 64 bits. -/
  | uMultiply (t : Nat) (eng : Nat) (env : MicroEnv)
  /-- CRC32C_STEP (R294): ALU_OP 0x0C steps CRC-32C over a byte. -/
  | uCrc32cStep (t : Nat) (eng : Nat) (env : MicroEnv)
  /-- POPULATION_COUNT (R294): ALU_OP 0x0D counts set bits. -/
  | uPopulationCount (t : Nat) (eng : Nat) (env : MicroEnv)
  /-- COMPARE (R294): ALU_OP 0x0E sets flags only. -/
  | uCompare (t : Nat) (eng : Nat) (env : MicroEnv)
  /-- DEPOSIT (R294): ALU_OP 0x0F deposits a bit field. -/
  | uDeposit (t : Nat) (eng : Nat) (env : MicroEnv)
  /-- LOAD_SCRATCH (R294): MEM_OP 1 loads 8 bytes of scratch. -/
  | uLoadScratch (t : Nat) (eng : Nat) (env : MicroEnv)
  /-- STORE_SCRATCH (R294): MEM_OP 2 stores to scratch. -/
  | uStoreScratch (t : Nat) (eng : Nat) (env : MicroEnv)
  /-- LOAD_ENGINE_BUS (R294): MEM_OP 3 loads from the engine bus. -/
  | uLoadEngineBus (t : Nat) (eng : Nat) (env : MicroEnv)
  /-- STORE_ENGINE_BUS (R294): MEM_OP 4 stores to the engine bus. -/
  | uStoreEngineBus (t : Nat) (eng : Nat) (env : MicroEnv)
  /-- POP_WORK_QUEUE (R294): MEM_OP 5 pops the engine's work queue. -/
  | uPopWorkQueue (t : Nat) (eng : Nat) (env : MicroEnv)
  /-- PUSH_WORK_QUEUE (R294): MEM_OP 6 pushes to a work queue. -/
  | uPushWorkQueue (t : Nat) (eng : Nat) (env : MicroEnv)
  /-- WATCHDOG_ACK (R294): MEM_OP 7 acknowledges the engine watchdog. -/
  | uWatchdogAck (t : Nat) (eng : Nat) (env : MicroEnv)
  /-- ENG_WATCHDOG (R300): No watchdog acknowledgement for 1 ms fails the engine. -/
  | engWatchdog (t : Nat) (eng : Nat)
  /-- ENG_FAILED (R300): An engine fails and its commands complete or are reissued. -/
  | engFailed (t : Nat) (eng : Nat) (cause : Nat)
  /-- TASK_MIGRATED (R301): A failed engine's tasks start on a spare at a period boundary. -/
  | taskMigrated (t : Nat) (eng : Nat)
  /-- PERIODIC_SLICE (R299): A periodic task starts its slice at a period boundary. -/
  | periodicSlice (t : Nat) (eng : Nat)
  /-- OVERRUN (R299): A slice still running at its next period is cut off. -/
  | overrun (t : Nat) (eng : Nat)
  /-- HITLESS_HALF_DONE (R306): A half of a role group finishes drain, load and restart. -/
  | hitlessHalfDone (t : Nat)
  /-- FW_DONE (R307): A hitless update completes and the staged image runs. -/
  | fwDone (t : Nat)
  /-- FW_ROLLBACK (R308): An engine failure during update rolls back the loaded halves. -/
  | fwRollback (t : Nat) (eng : Nat)
  /-- EXPORT_PERIOD (R220): An export period begins and the filling batch becomes the batch in transmission. -/
  | exportPeriod (t : Nat)
  /-- BATCH_COMPLETE (R220): A batch's last bit is sent on time and its meter records are confirmed. -/
  | batchComplete (t : Nat) (target : Nat)
  /-- EXPORT_FRAME_TX (R221): An export frame is sent ahead of data at EXP_RATE. -/
  | exportFrameTx (t : Nat) (target : Nat)
  /-- FLOW_SCAN (R212): The scanner flushes entries past their idle or active timeout. -/
  | flowScan (t : Nat)
  /-- MINUTE_CLOSE (R250): A minute closes and each changed TAC yields a meter record. -/
  | minuteClose (t : Nat)
  /-- SWATCH_CAPTURE (R244): A Swatch capture instant is reached and counters are captured. -/
  | swatchCapture (t : Nat)
  /-- SWATCH_DONE (R245): A snapshot's DMA write completes with its header last. -/
  | swatchDone (t : Nat)
  /-- RATE_WINDOW_END (R234): A rate window ends and the peaks are updated. -/
  | rateWindowEnd (t : Nat) (port : Nat)
  /-- SAMPLE_DMA (R239): Sample and trace records move to the host ring and PROD is written back. -/
  | sampleDma (t : Nat) (ring : Nat)
  /-- CPU_RX_DELIVER (R268): A CPU copy is written into reserved receive descriptors and HEAD advances. -/
  | cpuRxDeliver (t : Nat) (ring : Nat) (count : Nat)
  /-- RX_HOLD_EXPIRE (R269): A head CPU copy lacking descriptors for HOLD_US is discarded. -/
  | rxHoldExpire (t : Nat) (queue : Nat)
  /-- TX_FRAME_SERVE (R271): A host transmit frame is staged and entered into the ingress FIFO. -/
  | txFrameServe (t : Nat)
  /-- CODEWORD_RX (R311): A Stretcher lane decodes a codeword and checks alignment. -/
  | codewordRx (t : Nat) (port : Nat) (lane : Nat) (bad : Bool) (correctable : Bool) (stuff : Nat)
  /-- STL_BLOCK_RX (R314): A Stretcher block is received and acted on by type. -/
  | stlBlockRx (t : Nat) (port : Nat) (block : List Byte)
  /-- STL_FRAME_RX (R316): A complete Stretcher frame is checked and delivered to the attached pipeline. -/
  | stlFrameRx (t : Nat) (port : Nat) (cls : Nat) (frame : Frame) (good : Bool)
  /-- FLOW_RX (R317): A received FLOW block sets or clears XOFF toward the port node. -/
  | flowRx (t : Nat) (port : Nat) (xoff : Nat)
  /-- FLOW_TX (R317): A FLOW block is sent on a change of pause or every 1 µs while XOFF holds. -/
  | flowTx (t : Nat) (port : Nat)
  /-- XOFF_LAPSE (R317): No FLOW block for 4 µs lapses a received XOFF. -/
  | xoffLapse (t : Nat) (port : Nat)
  /-- LANE_ADAPTED (R318): A Stretcher receiver finishes adaptation and hunts for alignment. -/
  | laneAdapted (t : Nat) (port : Nat) (lane : Nat)
  /-- ADAPT_RESTART (R318): A lane not aligned 1 ms after ADAPTED restarts adaptation. -/
  | adaptRestart (t : Nat) (port : Nat) (lane : Nat)
  /-- LANE_ALIGNED (R319): A lane accepts a codeword alignment candidate. -/
  | laneAligned (t : Nat) (port : Nat) (lane : Nat) (logical : Nat) (inv : Bool) (skewOk : Bool)
  /-- RESIZE_TIMEOUT (R322): A RESIZE lasting 1 ms makes the port down. -/
  | resizeTimeout (t : Nat) (port : Nat)
  /-- LANE_RESTORE (R323): Lanes good for RESTORE_S widen the port through RESIZE. -/
  | laneRestore (t : Nat) (port : Nat)
  /-- REF_MISMATCH (R327): A lane offset above 200 ppm for 1 ms is reported. -/
  | refMismatch (t : Nat) (port : Nat) (lane : Nat) (ppm : Int)
  /-- LAST_GASP_RX (R328): A received LAST_GASP takes the port down at once. -/
  | lastGaspRx (t : Nat) (port : Nat) (cause : Nat) (tod : Nat)
  /-- HB_TX (R331): An HB block is sent every 10 µs on an UP port. -/
  | hbTx (t : Nat) (port : Nat)
  /-- HB_RX (R331): A received HB drives twin state and role resolution. -/
  | hbRx (t : Nat) (port : Nat) (bytes : List Byte)
  /-- HB_PERIOD (R335): A 10 µs period without HB counts toward PEER_LOST. -/
  | hbPeriod (t : Nat)
  /-- BKP_HB_TX (R332): A backup heartbeat frame is sent every 100 µs. -/
  | bkpHbTx (t : Nat) (which : Nat)
  /-- BKP_HB_RX (R332): A backup heartbeat frame is accepted or rejected. -/
  | bkpHbRx (t : Nat) (port : Nat) (bytes : List Byte)
  /-- BKP_ALIVE_EXPIRE (R332): No accepted backup frame for 800 µs ends backup alive. -/
  | bkpAliveExpire (t : Nat)
  /-- TWIN_LINK_LOST (R334): No twin port UP for 100 µs loses the twin link and starts the peer flush. -/
  | twinLinkLost (t : Nat)
  /-- STANDBY_TIMEOUT (R334): An effective PRIMARY in STANDBY for HOLD_MS + WARMUP_MS goes DETACHED or SOLO. -/
  | standbyTimeout (t : Nat)
  /-- WARMUP_DONE (R334): WARMUP_MS with the twin link up enters PAIRED. -/
  | warmupDone (t : Nat)
  /-- LINK_HOLD_EXPIRE (R334): HOLD_MS in LINK_HOLD enters DETACHED. -/
  | linkHoldExpire (t : Nat)
  /-- ANNOUNCE_TX (R340): An ANNOUNCE chain frame is sent every 1 ms. -/
  | announceTx (t : Nat) (port : Nat)
  /-- ANNOUNCE_RX (R341): A received ANNOUNCE updates membership and admits newcomers. -/
  | announceRx (t : Nat) (port : Nat) (bytes : List Byte)
  /-- MEMBER_EXPIRE (R340): A member unheard for 3 ms leaves the membership. -/
  | memberExpire (t : Nat) (dev : Nat)
  /-- CHAIN_TRANSIT (R343): A chain frame for another member passes through the transit buffer. -/
  | chainTransit (t : Nat) (port : Nat) (bytes : List Byte)
  /-- CHAIN_COMMAND_RX (R345): A KIND 2 or 3 chain frame delivers a forwarded command or reply. -/
  | chainCommandRx (t : Nat) (port : Nat) (bytes : List Byte)
  /-- FORWARD_TIMEOUT (R345): A forwarded command without reply for 100 ms completes UNREACHABLE. -/
  | forwardTimeout (t : Nat) (kind : Nat) (sub : Nat) (tag : Nat)
  /-- TIME_BLOCK_TX (R346): A TIME block is sent every 100 µs. -/
  | timeBlockTx (t : Nat) (port : Nat)
  /-- TIME_BLOCK_RX (R346): A follower computes its offset and slews or steps TOD. -/
  | timeBlockRx (t : Nat) (port : Nat) (bytes : List Byte)
  /-- RAIL_GOOD (R393): The last supply rail comes within its window with RST_N high, so RAIL_OK is complete and core release begins. -/
  | railGood (t : Nat) (rail : Nat)
  /-- PCIE_LINK_UP (R400): The PCIe link trains or retrains after PERST_N release or a lane failure, setting HIF_LINK and raising LINK_DEGRADE below 6.0 x 4. -/
  | pcieLinkUp (t : Nat) (gen : Nat) (width : Nat)
  /-- TOD_SECOND (R403): TOD reaches a whole second, which raises TOD_1PPS_OUT for 1 ms and sets the AON backup from TOD. -/
  | todSecond (t : Nat)
  /-- STL_RX_SIGNAL (R318): Signal appears on or vanishes from a Stretcher receive lane, starting or abandoning clock recovery and adaptation. -/
  | stlRxSignal (t : Nat) (port : Nat) (lane : Nat) (present : Bool)
  /-- PCS_LOCK (R44): A front port's PCS gains block lock, alignment and FEC deskew on every lane, which starts the 1 ms hold before PORT_UP. -/
  | pcsLock (t : Nat) (port : Nat)
  /-- AN_COMPLETE (R42): Clause 73 negotiation finds a common PHY type and PAUSE ability with the link partner, and link training begins. -/
  | anComplete (t : Nat) (page : AnPage)
  /-- LINK_TRAINING_DONE (R43): Link training on a CR or KR port completes, the trained taps appear in LANE_TXEQ, and PCS alignment begins. -/
  | linkTrainingDone (t : Nat) (port : Nat) (taps : List Nat)
  /-- REGISTER_READ (R259): A PF read of a register clears the mark of an SC register and wakes, or fails on, a sleeping or unavailable domain. -/
  | registerRead (t : Nat) (offset : Nat) (size : Nat)
  /-- VF_COUNTER_READ (R243): A VF reads its counter aperture and gets the counter, or zero with VF_DENIED_CNT advanced when no enabled entry covers the page. -/
  | vfCounterRead (t : Nat) (vf : Nat) (span : ByteSpan)
  /-- ENTDAA (R272): The I3C target takes a dynamic address under ENTDAA from the BMC bus controller. -/
  | entdaa (t : Nat) (addr : Nat)
  /-- RETURN_TEST_DONE (R379): The memory test or recalibration of a pipeline, bank or macro being returned ends, and the unit returns or stays out with DETAIL 1. -/
  | returnTestDone (t : Nat) (kind : Nat) (index : Nat) (passed : Bool)
  /-- ENG_SELF_TEST_DONE (R302): A returned engine's 50 µs self-test ends, and the engine takes its role again or stays FAILED with cause SELF_TEST. -/
  | engSelfTestDone (t : Nat) (eng : Nat) (passed : Bool)
  /-- FUSE_PROGRAM_DONE (R405): Fuse programming completes within 20 ms, the setting takes effect, and its log entry is appended. -/
  | fuseProgramDone (t : Nat)
deriving DecidableEq, Repr

end Sys2Proof
end

