-- ==== Sys2Proof/Decode.lean ====
section
/-! DEFINITION. The command a word spells by the bits of the opcode table.  The table gives no row any bits: a block takes its commands from outside, each with its operands. -/

namespace Sys2Proof

/-- The command that a word of `nbits` bits spells: no row of the table has bits, so none. -/
def decodeTableWord (_nbits _w : Nat) : Option Instr := none

end Sys2Proof
end

