-- ==== Sys2Proof/Machine/RegMap.lean ====
section
/-! DEFINITION. The register map (R255, Table 11.9): where each register lies, which of its bits have which access type (R12, Table 0.6), and its reset word, each written from the register table of its chapter; and the named bit fields of the single-word registers. -/

namespace Sys2Proof.Machine

/-- One row of the register map.  `steps` are the strides of the register's address formula: (stride, count, what one step adds to the unit number `i`, what it adds to the second number `j`).  A register of several words (a wide value, R263) counts its words in `j`.  The four masks give the RW, KEEP, SC and WO bits over all the words; the other bits are RO. -/
structure RegRow where
  base : Nat
  steps : List (Nat × Nat × Nat × Nat)
  words : Nat
  rw : Nat
  keep : Nat
  sc : Nat
  wo : Nat
  reset : Nat
deriving DecidableEq, Repr

/-- The register map.  BAR2 offsets stand above 0x1000_0000, so that one number names an offset of either BAR (log 3). -/
def regRow : RegName → RegRow
  | .GLB_SRC_MAP0 => ⟨0x200, [], 1, 0x1f1f1f1f, 0xe0e0e0e0, 0, 0, 0x1b130b03⟩  -- R16 Table 1.3
  | .GLB_SRC_MAP1 => ⟨0x204, [], 1, 0x1f, 0xffe0ffe0, 0, 0, 0x1f⟩  -- R16 Table 1.4
  | .MAC_MACRO_CFG => ⟨0x1800000, [(0x100000, 8, 12, 0), (0x10000, 12, 1, 0)], 1, 0, 0x707f0000, 0, 0, 0⟩  -- R37 Table 2.4
  | .MAC_EVT => ⟨0x1800010, [(0x100000, 8, 12, 0), (0x10000, 12, 1, 0)], 1, 0, 0xffff80, 0xff00007f, 0, 0⟩  -- R37 Table 2.5
  | .MAC_TXMAP => ⟨0x1800004, [(0x100000, 8, 12, 0), (0x10000, 12, 1, 0)], 1, 0, 0xff000000, 0, 0, 0xfac688⟩  -- R38 Table 2.6
  | .MAC_RXMAP => ⟨0x1800008, [(0x100000, 8, 12, 0), (0x10000, 12, 1, 0)], 1, 0, 0xff000000, 0, 0, 0xfac688⟩  -- R38 Table 2.6
  | .MAC_POL => ⟨0x180000c, [(0x100000, 8, 12, 0), (0x10000, 12, 1, 0)], 1, 0, 0xffff0000, 0, 0, 0⟩  -- R38 Table 2.6
  | .LANE_TXEQ => ⟨0x1800108, [(0x100000, 8, 12, 0), (0x10000, 12, 1, 0), (0x40, 8, 0, 1)], 1, 0x3fffffff, 0xc0000000, 0, 0, 0xfc0000⟩  -- R41 Table 2.8
  | .LANE_RXEQ => ⟨0x180010c, [(0x100000, 8, 12, 0), (0x10000, 12, 1, 0), (0x40, 8, 0, 1)], 1, 0x80000000, 0x3f0fff00, 0, 0, 0x80000000⟩  -- R41 Table 2.9
  | .LANE_TXCTL => ⟨0x1800100, [(0x100000, 8, 12, 0), (0x10000, 12, 1, 0), (0x40, 8, 0, 1)], 1, 1, 0xffff08fc, 0, 2, 0⟩  -- R48 Table 2.11
  | .LANE_STAT => ⟨0x1800104, [(0x100000, 8, 12, 0), (0x10000, 12, 1, 0), (0x40, 8, 0, 1)], 1, 0, 0x3f000000, 0, 0, 0⟩  -- R48 Table 2.11
  | .PORT_FLOW => ⟨0x1800400, [(0x100000, 8, 12, 0), (0x10000, 12, 1, 0), (0x40, 8, 0, 1)], 1, 0xc0ffff00, 0x3f0000ff, 0, 0, 0⟩  -- R48 Table 2.13
  | .PORT_PFC_TIME => ⟨0x1800404, [(0x100000, 8, 12, 0), (0x10000, 12, 1, 0), (0x40, 8, 0, 1)], 1, 0xffffffff, 0, 0, 0, 0xffff7fff⟩  -- R48 Table 2.13
  | .PORT_STAT => ⟨0x180040c, [(0x100000, 8, 12, 0), (0x10000, 12, 1, 0), (0x40, 8, 0, 1)], 1, 0, 0xff000000, 0, 0, 0⟩  -- R52 Table 2.14
  | .PORT_PTP => ⟨0x1800408, [(0x100000, 8, 12, 0), (0x10000, 12, 1, 0), (0x40, 8, 0, 1)], 1, 0xffffffff, 0, 0, 0, 0⟩  -- R54 Table 2.15
  | .MAC_TS_POP => ⟨0x1800020, [(0x100000, 8, 12, 0), (0x10000, 12, 1, 0)], 4, 0, 0x7ff8ffffffff00000000000000000000, 0, 0, 0⟩  -- R56 Table 2.17
  | .PARSE_CFG0 => ⟨0x300, [], 1, 0xffffffff, 0, 0, 0, 0x12b517c1⟩  -- R67 Table 3.5
  | .PARSE_CFG1 => ⟨0x304, [], 1, 0x80ffffff, 0x7f000000, 0, 0, 0⟩  -- R67 Table 3.5
  | .PARSE_CFG2 => ⟨0x308, [], 1, 0x3fff, 0xffffc000, 0, 0, 0x31⟩  -- R67 Table 3.5
  | .PARSE_ERR_ACT => ⟨0x310, [], 1, 0xfffffffc, 3, 0, 0, 0x54545554⟩  -- R67 Table 3.5
  | .GLB_HASH_SEED => ⟨0x320, [], 1, 0xffffffff, 0, 0, 0, 0⟩  -- R67 Table 3.5
  | .PIPE_CFG_STAT => ⟨0x324, [], 1, 0, 0xfffffffc, 0, 0, 0⟩  -- R67 Table 3.5
  | .PIPE_IMG_ID => ⟨0x330, [], 1, 0, 0, 0, 0, 0⟩  -- R67 Table 3.5
  | .PIPE_IMG_INFO => ⟨0x334, [], 1, 0, 0xffff, 0, 0, 0⟩  -- R67 Table 3.5
  | .PIPE_STAT => ⟨0x400000, [(0x100000, 8, 4, 0), (0x40000, 2, 0, 1), (0x10000, 4, 1, 0)], 1, 0, 0x3f00ffff, 0, 0, 0⟩  -- R68 Table 3.6
  | .PIPE_PARSE_CNT => ⟨0x400100, [(0x100000, 8, 4, 0), (0x10000, 4, 1, 0), (4, 16, 0, 1)], 1, 0, 0, 0, 0, 0⟩  -- R68 Table 3.6
  | .PIPE_LIMIT_CNT => ⟨0x400140, [(0x100000, 8, 4, 0), (0x10000, 4, 1, 0)], 1, 0, 0, 0, 0, 0⟩  -- R68 Table 3.6
  | .SKETCH_ENTRY => ⟨0x340, [(4, 8, 1, 0)], 1, 0, 0xf000000, 0, 0, 0⟩  -- R69 Table 3.7
  | .TBL_STAT0 => ⟨0x1000, [(0x10, 64, 1, 0)], 1, 0, 0, 0, 0, 0⟩  -- R113 Table 4.9
  | .TBL_STAT1 => ⟨0x1004, [(0x10, 64, 1, 0)], 1, 0, 0xff000000, 0, 0, 0⟩  -- R113 Table 4.9
  | .TBL_STAT2 => ⟨0x1008, [(0x10, 64, 1, 0)], 1, 0, 0xc000, 0, 0, 0⟩  -- R113 Table 4.9
  | .TBL_STAT3 => ⟨0x100c, [(0x10, 64, 1, 0)], 1, 0, 0x7ff00000, 0, 0, 0⟩  -- R113 Table 4.9
  | .LEARN_STAT => ⟨0x1400, [], 1, 0, 0xfffe0000, 0, 0, 0⟩  -- R113 Table 4.10
  | .LEARN_EVT => ⟨0x1404, [], 1, 0, 0xffffc0, 0xff00003f, 0, 0⟩  -- R113 Table 4.10
  | .EPOCH_STAT => ⟨0x1800, [], 1, 0, 0x70000000, 0, 0, 0x1000001⟩  -- R136 Table 5.5
  | .EPOCH_STATE0 => ⟨0x1804, [], 1, 0, 0, 0, 0, 2⟩  -- R136 Table 5.5
  | .EPOCH_STATE1 => ⟨0x1808, [], 1, 0, 0, 0, 0, 0⟩  -- R136 Table 5.5
  | .EPOCH_CFG => ⟨0x1810, [], 1, 0x3fff, 0xffffc000, 0, 0, 0x2710⟩  -- R136 Table 5.5
  | .EPOCH_EVT => ⟨0x1814, [], 1, 0, 0xfffff0, 0xff00000f, 0, 0⟩  -- R136 Table 5.5
  | .EPOCH_INFLIGHT => ⟨0x1840, [(4, 16, 1, 0)], 1, 0, 0xffe00000, 0, 0, 0⟩  -- R136 Table 5.5
  | .TCAM_STAT => ⟨0x1820, [], 1, 0, 0x3fffffff, 0, 0, 0⟩  -- R136 Table 5.6
  | .TCAM_EVT => ⟨0x1824, [], 1, 0, 0xffffc0, 0xff00003f, 0, 0⟩  -- R136 Table 5.6
  | .FALSE_HIT_CNT => ⟨0x1830, [], 1, 0, 0, 0, 0, 0⟩  -- R136 Table 5.6
  | .SCRUB_FIX_CNT => ⟨0x1834, [], 1, 0, 0, 0, 0, 0⟩  -- R136 Table 5.6
  | .SCRUB_SWEEPS => ⟨0x1838, [], 1, 0, 0, 0, 0, 0⟩  -- R136 Table 5.6
  | .EPOCH_EXPIRE_DROPS => ⟨0x183c, [], 1, 0, 0, 0, 0, 0⟩  -- R136 Table 5.6
  | .TCAM_TBL_STAT0 => ⟨0x1900, [(8, 32, 1, 0)], 1, 0, 0x1ff00000, 0, 0, 0⟩  -- R136 Table 5.6
  | .TCAM_TBL_STAT1 => ⟨0x1904, [(8, 32, 1, 0)], 1, 0, 0xffff8000, 0, 0, 0⟩  -- R136 Table 5.6
  | .PIPE_TCAM_WAIT => ⟨0x400200, [(0x100000, 8, 4, 0), (0x40000, 2, 0, 1), (0x10000, 4, 1, 0)], 1, 0, 0, 0, 0, 0⟩  -- R136 Table 5.6
  | .PIPE_TCAM_RETRY => ⟨0x400204, [(0x100000, 8, 4, 0), (0x40000, 2, 0, 1), (0x10000, 4, 1, 0)], 1, 0, 0, 0, 0, 0⟩  -- R136 Table 5.6
  | .PAL_CFG => ⟨0xc00000, [], 1, 0x8f000000, 0x70ffffff, 0, 0, 0x80000000⟩  -- R187 Table 7.11
  | .PAL_EVT => ⟨0xc00004, [], 1, 0, 0xffff80, 0xff00007f, 0, 0⟩  -- R187 Table 7.11
  | .PAL_STAT0 => ⟨0xc00008, [], 1, 0, 0xe00000, 0, 0, 0x80140000⟩  -- R187 Table 7.11
  | .PAL_STAT1 => ⟨0xc0000c, [], 1, 0, 0xffc00000, 0, 0, 0x280000⟩  -- R187 Table 7.11
  | .PAL_STAT2 => ⟨0xc00010, [], 1, 0, 0xffe00000, 0, 0, 0⟩  -- R187 Table 7.11
  | .PAL_WD_CFG => ⟨0xc00014, [], 1, 0xfffc3fff, 0x3c000, 0, 0, 0xfa00064⟩  -- R187 Table 7.11
  | .MC_STAT => ⟨0xc00018, [], 1, 0, 0xffe00000, 0, 0, 0⟩  -- R187 Table 7.11
  | .PAL_POOL_SIZE => ⟨0xc00020, [(4, 4, 1, 0)], 1, 0x1fffff, 0xffe00000, 0, 0, 0⟩  -- R187 Table 7.11
  | .PAL_HP_SIZE => ⟨0xc00030, [], 1, 0x1fffff, 0xffe00000, 0, 0, 0⟩  -- R187 Table 7.11
  | .PAL_POOL_USED => ⟨0xc00040, [(4, 4, 1, 0)], 1, 0, 0xffe00000, 0, 0, 0⟩  -- R187 Table 7.11
  | .PAL_HP_USED => ⟨0xc00050, [], 1, 0, 0xffe00000, 0, 0, 0⟩  -- R187 Table 7.11
  | .PAL_POOL_EFF => ⟨0xc00060, [(4, 4, 1, 0)], 1, 0, 0xffe00000, 0, 0, 0⟩  -- R187 Table 7.11
  | .PAL_DROP_CNT => ⟨0xc00400, [(4, 256, 1, 0)], 1, 0, 0, 0, 0, 0⟩  -- R187 Table 7.11
  | .QUEUE_ADM0 => ⟨0xc80000, [(8, 65536, 1, 0)], 1, 0xff0003ff, 0xfffc00, 0, 0, 0x7000000⟩  -- R187 Table 7.12
  | .QUEUE_ADM1 => ⟨0xc80004, [(8, 65536, 1, 0)], 1, 0x9fffffff, 0x60000000, 0, 0, 0⟩  -- R187 Table 7.12
  | .QUEUE_DEPTH0 => ⟨0xd00000, [(8, 65536, 1, 0)], 1, 0, 0xffe00000, 0, 0, 0⟩  -- R187 Table 7.12
  | .QUEUE_DEPTH1 => ⟨0xd00004, [(8, 65536, 1, 0)], 1, 0, 0xe0000000, 0, 0, 0⟩  -- R187 Table 7.12
  | .PG_CFG => ⟨0xd80000, [(0x80, 773, 1, 0), (4, 8, 0, 1)], 1, 0xffffffff, 0, 0, 0, 0x38800⟩  -- R187 Table 7.13
  | .PG_STAT0 => ⟨0xd80020, [(0x80, 773, 1, 0), (4, 8, 0, 1)], 1, 0, 0xffe00000, 0, 0, 0⟩  -- R187 Table 7.13
  | .PG_STAT1 => ⟨0xd80040, [(0x80, 773, 1, 0), (4, 8, 0, 1)], 1, 0, 0x7fffe000, 0, 0, 0⟩  -- R187 Table 7.13
  | .PORT_WD => ⟨0xda0000, [(4, 768, 1, 0)], 1, 0xff, 0xffff00, 0, 0, 0xff⟩  -- R187 Table 7.13
  | .PORT_ADM => ⟨0xdb0000, [(4, 773, 1, 0)], 1, 0x87000000, 0x78ffffff, 0, 0, 0⟩  -- R187 Table 7.13
  | .HOST_FLOW => ⟨0xdc0000, [], 1, 0xff, 0xffffff00, 0, 0, 0⟩  -- R187 Table 7.13
  | .FIFO_DROP_LOSSY => ⟨0x400300, [(0x100000, 8, 4, 0), (0x10000, 4, 1, 0)], 1, 0, 0, 0, 0, 0⟩  -- R187 Table 7.14
  | .FIFO_DROP_LOSSLESS => ⟨0x400304, [(0x100000, 8, 4, 0), (0x10000, 4, 1, 0)], 1, 0, 0, 0, 0, 0⟩  -- R187 Table 7.14
  | .FIFO_DROP_CONTROL => ⟨0x400308, [(0x100000, 8, 4, 0), (0x10000, 4, 1, 0)], 1, 0, 0, 0, 0, 0⟩  -- R187 Table 7.14
  | .FIFO_STAT => ⟨0x40030c, [(0x100000, 8, 4, 0), (0x10000, 4, 1, 0)], 1, 0, 0x7ffe0000, 0, 0, 0⟩  -- R187 Table 7.14
  | .CPU_QUEUE_ADM => ⟨0xdd0000, [(8, 48, 1, 0)], 1, 0x3f0003ff, 0xc0fffc00, 0, 0, 0x7000000⟩  -- R426 Table 7.15
  | .CPU_QUEUE_DEPTH => ⟨0xdd0004, [(8, 48, 1, 0)], 1, 0, 0xffe00000, 0, 0, 0⟩  -- R426 Table 7.15
  | .SCH_NODE0_Q => ⟨0x1000000, [(0x10, 65536, 1, 0)], 1, 0, 0xe000, 0, 0, 0x10000⟩  -- R208 Table 8.6
  | .SCH_NODE0_S => ⟨0x1100000, [(0x10, 8192, 1, 0)], 1, 0, 0xe000, 0, 0, 0x10000⟩  -- R208 Table 8.6
  | .SCH_NODE0_P => ⟨0x1120000, [(0x10, 773, 1, 0)], 1, 0, 0xe000, 0, 0, 0x80000000⟩  -- R208 Table 8.6
  | .SCH_NODE0_C => ⟨0x1124000, [(0x10, 48, 1, 0)], 1, 0, 0xe000, 0, 0, 0x10000⟩  -- R208 Table 8.6
  | .SCH_NODE1_Q => ⟨0x1000004, [(0x10, 65536, 1, 0)], 1, 0, 0x1f00f8ff, 0, 0, 0⟩  -- R208 Table 8.6
  | .SCH_NODE1_S => ⟨0x1100004, [(0x10, 8192, 1, 0)], 1, 0, 0x1f00f8ff, 0, 0, 0⟩  -- R208 Table 8.6
  | .SCH_NODE1_P => ⟨0x1120004, [(0x10, 773, 1, 0)], 1, 0, 0x1f00f8ff, 0, 0, 0⟩  -- R208 Table 8.6
  | .SCH_NODE1_C => ⟨0x1124004, [(0x10, 48, 1, 0)], 1, 0, 0x1f00f8ff, 0, 0, 0⟩  -- R208 Table 8.6
  | .SHP_RATE_Q => ⟨0x1000008, [(0x10, 65536, 1, 0)], 1, 0, 0x7e000000, 0, 0, 0x17d7840⟩  -- R208 Table 8.6
  | .SHP_RATE_S => ⟨0x1100008, [(0x10, 8192, 1, 0)], 1, 0, 0x7e000000, 0, 0, 0x17d7840⟩  -- R208 Table 8.6
  | .SHP_RATE_P => ⟨0x1120008, [(0x10, 773, 1, 0)], 1, 0, 0x7e000000, 0, 0, 0x17d7840⟩  -- R208 Table 8.6
  | .SHP_RATE_C => ⟨0x1124008, [(0x10, 48, 1, 0)], 1, 0, 0x7e000000, 0, 0, 0x17d7840⟩  -- R208 Table 8.6
  | .SHP_BURST_Q => ⟨0x100000c, [(0x10, 65536, 1, 0)], 1, 0, 0xffff0000, 0, 0, 0x100⟩  -- R208 Table 8.6
  | .SHP_BURST_S => ⟨0x110000c, [(0x10, 8192, 1, 0)], 1, 0, 0xffff0000, 0, 0, 0x100⟩  -- R208 Table 8.6
  | .SHP_BURST_P => ⟨0x112000c, [(0x10, 773, 1, 0)], 1, 0, 0xffff0000, 0, 0, 0x100⟩  -- R208 Table 8.6
  | .SHP_BURST_C => ⟨0x112400c, [(0x10, 48, 1, 0)], 1, 0, 0xffff0000, 0, 0, 0x100⟩  -- R208 Table 8.6
  | .SCH_EVT => ⟨0x1130000, [], 1, 0, 0xfffffc, 0xff000003, 0, 0⟩  -- R208 Table 8.7
  | .SCH_STAT => ⟨0x1130004, [], 1, 0, 0xfffe0000, 0, 0, 0⟩  -- R208 Table 8.7
  | .SCH_PARK_CNT => ⟨0x1130008, [], 1, 0, 0, 0, 0, 0⟩  -- R208 Table 8.7
  | .SCH_LATE_CNT => ⟨0x113000c, [], 1, 0, 0, 0, 0, 0⟩  -- R208 Table 8.7
  | .SCH_LATE_MAX => ⟨0x1130010, [], 1, 0, 0xfffffc00, 0, 0, 0⟩  -- R208 Table 8.7
  | .TEL_CFG => ⟨0x2400000, [], 1, 0xfffffcff, 0x300, 0, 0, 0x280f025⟩  -- R231 Table 9.12
  | .TEL_PEN => ⟨0x2400004, [], 1, 0xffffffff, 0, 0, 0, 0⟩  -- R231 Table 9.12
  | .EXP_ROUTE => ⟨0x2400008, [], 1, 0xfffff, 0xfff00000, 0, 0, 0⟩  -- R231 Table 9.12
  | .FLOW_CFG => ⟨0x240000c, [], 1, 0xfffffc00, 0x3ff, 0, 0, 0x3c0f000⟩  -- R231 Table 9.12
  | .PC_CFG => ⟨0x2400010, [], 1, 0xf80fffff, 0x7f00000, 0, 0, 0x3e8⟩  -- R231 Table 9.12
  | .PC_LAT => ⟨0x2400014, [], 1, 0xffffffff, 0, 0, 0, 0xffffffff⟩  -- R231 Table 9.12
  | .PC_DROP_MASK => ⟨0x2400020, [(4, 8, 1, 0)], 1, 0xffffffff, 0, 0, 0, 0⟩  -- R231 Table 9.12
  | .IOAM_CFG0 => ⟨0x2400040, [], 1, 0xfffffff0, 0xf, 0, 0, 0x40⟩  -- R231 Table 9.12
  | .IOAM_CFG1 => ⟨0x2400044, [], 1, 0xffffff00, 0xff, 0, 0, 0xf8000000⟩  -- R231 Table 9.12
  | .IOAM_CFG2 => ⟨0x2400048, [], 1, 0xffff0000, 0xffff, 0, 0, 0⟩  -- R231 Table 9.12
  | .TEL_EVT => ⟨0x2400060, [], 1, 0, 0xffffc0, 0xff00003f, 0, 0⟩  -- R231 Table 9.12
  | .PC_TAC_SEL => ⟨0x2400800, [(4, 512, 1, 0)], 1, 0xffffffff, 0, 0, 0, 0⟩  -- R231 Table 9.12
  | .IOAM_PORT => ⟨0x2401000, [(4, 773, 1, 0)], 1, 3, 0xfffffffc, 0, 0, 0⟩  -- R231 Table 9.12
  | .TGT_STAT => ⟨0x2400100, [(0x40, 16, 1, 0)], 1, 0, 0x3ffffc00, 0, 0, 0⟩  -- R231 Table 9.13
  | .BATCHES => ⟨0x2400104, [(0x40, 16, 1, 0)], 1, 0, 0, 0, 0, 0⟩  -- R231 Table 9.13
  | .BATCH_LATE_CNT => ⟨0x2400108, [(0x40, 16, 1, 0)], 1, 0, 0, 0, 0, 0⟩  -- R231 Table 9.13
  | .REC_SENT => ⟨0x240010c, [(0x40, 16, 1, 0)], 1, 0, 0, 0, 0, 0⟩  -- R231 Table 9.13
  | .REC_LATE => ⟨0x2400110, [(0x40, 16, 1, 0)], 1, 0, 0, 0, 0, 0⟩  -- R231 Table 9.13
  | .REC_OVF => ⟨0x2400114, [(0x40, 16, 1, 0)], 1, 0, 0, 0, 0, 0⟩  -- R231 Table 9.13
  | .WRAP_COUNT => ⟨0x2400118, [(0x40, 16, 1, 0)], 1, 0, 0, 0, 0, 0⟩  -- R231 Table 9.13
  | .NEXT_SEQ => ⟨0x240011c, [(0x40, 16, 1, 0)], 1, 0, 0, 0, 0, 0⟩  -- R231 Table 9.13
  | .GPOS => ⟨0x2400120, [(0x40, 16, 1, 0)], 2, 0, 0, 0, 0, 0⟩  -- R231 Table 9.13
  | .FLOW_ACTIVE => ⟨0x2400600, [(0x40, 8, 1, 0)], 1, 0, 0xfffc0000, 0, 0, 0⟩  -- R231 Table 9.13
  | .FLOW_EXPORTED => ⟨0x2400604, [(0x40, 8, 1, 0)], 1, 0, 0, 0, 0, 0⟩  -- R231 Table 9.13
  | .FLOW_EVICT => ⟨0x2400608, [(0x40, 8, 1, 0)], 1, 0, 0, 0, 0, 0⟩  -- R231 Table 9.13
  | .PC_SENT => ⟨0x240060c, [(0x40, 8, 1, 0)], 1, 0, 0, 0, 0, 0⟩  -- R231 Table 9.13
  | .PC_LIMITED => ⟨0x2400610, [(0x40, 8, 1, 0)], 1, 0, 0, 0, 0, 0⟩  -- R231 Table 9.13
  | .IOAM_INSERT => ⟨0x2400614, [(0x40, 8, 1, 0)], 1, 0, 0, 0, 0, 0⟩  -- R231 Table 9.13
  | .IOAM_FILL => ⟨0x2400618, [(0x40, 8, 1, 0)], 1, 0, 0, 0, 0, 0⟩  -- R231 Table 9.13
  | .IOAM_DECAP => ⟨0x240061c, [(0x40, 8, 1, 0)], 1, 0, 0, 0, 0, 0⟩  -- R231 Table 9.13
  | .IOAM_SKIP => ⟨0x2400620, [(0x40, 8, 1, 0)], 1, 0, 0, 0, 0, 0⟩  -- R231 Table 9.13
  | .SMP_RING_BASE => ⟨0x2402000, [(0x40, 8, 1, 0)], 2, 0xffffffffffffffff, 0, 0, 0, 0⟩  -- R252 Table 10.12
  | .SMP_WB_ADDR => ⟨0x2402008, [(0x40, 8, 1, 0)], 2, 0xffffffffffffffff, 0, 0, 0, 0⟩  -- R252 Table 10.12
  | .SMP_RING_CFG => ⟨0x2402010, [(0x40, 8, 1, 0)], 1, 0x80ff001f, 0x7f00ffe0, 0, 0, 6⟩  -- R252 Table 10.12
  | .PROD => ⟨0x2402014, [(0x40, 8, 1, 0)], 1, 0, 0, 0, 0, 0⟩  -- R252 Table 10.12
  | .CONS => ⟨0x2402018, [(0x40, 8, 1, 0)], 1, 0xffffffff, 0, 0, 0, 0⟩  -- R252 Table 10.12
  | .DEV_LEVEL => ⟨0x240201c, [(0x40, 8, 1, 0)], 1, 0, 0xffffc000, 0, 0, 0⟩  -- R252 Table 10.12
  | .SMP_DROP => ⟨0x2402020, [(0x40, 8, 1, 0)], 1, 0, 0, 0, 0, 0⟩  -- R252 Table 10.12
  | .TRACE_CFG => ⟨0x2402400, [(0x10, 16, 1, 0)], 1, 0xffffbfff, 0x4000, 0, 0, 0x31ff8000⟩  -- R252 Table 10.12
  | .TRACE_TAGGED => ⟨0x2402404, [(0x10, 16, 1, 0)], 1, 0, 0, 0, 0, 0⟩  -- R252 Table 10.12
  | .SWATCH_CFG => ⟨0x2402800, [], 1, 0xffff007f, 0xff80, 0, 0, 0x1f⟩  -- R252 Table 10.12
  | .SWATCH_BUF_A => ⟨0x2402808, [], 2, 0xffffffffffffffff, 0, 0, 0, 0⟩  -- R252 Table 10.12
  | .SWATCH_BUF_B => ⟨0x2402810, [], 2, 0xffffffffffffffff, 0, 0, 0, 0⟩  -- R252 Table 10.12
  | .SWATCH_STAT => ⟨0x2402818, [], 1, 0, 0xfffffff, 0, 0, 0⟩  -- R252 Table 10.12
  | .SWATCH_SEQ => ⟨0x240281c, [], 1, 0, 0, 0, 0, 0⟩  -- R252 Table 10.12
  | .CNT_EVT => ⟨0x2402820, [], 1, 0, 0xffffe0, 0xff00001f, 0, 0⟩  -- R252 Table 10.12
  | .SWATCH_SKIP_CNT => ⟨0x2402824, [], 1, 0, 0, 0, 0, 0⟩  -- R252 Table 10.12
  | .VF_DENIED_CNT => ⟨0x2402828, [], 1, 0, 0, 0, 0, 0⟩  -- R252 Table 10.12
  | .METER_LAST_END => ⟨0x2402880, [], 2, 0, 0, 0, 0, 0⟩  -- R252 Table 10.12
  | .METER_STATIC_UJ => ⟨0x2402888, [], 2, 0, 0, 0, 0, 0⟩  -- R252 Table 10.12
  | .METER_MERGED_CNT => ⟨0x2402890, [], 1, 0, 0, 0, 0, 0⟩  -- R252 Table 10.12
  | .PORT_RATE_CFG => ⟨0x2403000, [(4, 773, 1, 0)], 1, 0x3ffffff, 0xfc000000, 0, 0, 0xf4240⟩  -- R252 Table 10.13
  | .SMP_CFG => ⟨0x2404000, [(4, 773, 1, 0)], 1, 0x1ffffff, 0xfe000000, 0, 0, 0⟩  -- R252 Table 10.13
  | .HIF_ID0 => ⟨0, [], 1, 0, 0, 0, 0, 0x15361f6e⟩  -- R256 Table 11.3
  | .HIF_ID1 => ⟨4, [], 1, 0, 0xf100, 0, 0, 0⟩  -- R256 Table 11.3
  | .HIF_SERIAL => ⟨8, [], 2, 0, 0, 0, 0, 0⟩  -- R256 Table 11.3
  | .HIF_CFG => ⟨0x10, [], 1, 0x100ff, 0xfffeff00, 0, 0, 0⟩  -- R256 Table 11.3
  | .HIF_EVT => ⟨0x14, [], 1, 0, 0xfffe00, 0xff0001ff, 0, 0⟩  -- R256 Table 11.3
  | .HIF_TOUCH_ADDR => ⟨0x18, [], 1, 0, 0xfc000000, 0, 0, 0⟩  -- R256 Table 11.3
  | .HIF_UNMAP_ADDR => ⟨0x1c, [], 1, 0, 0xfc000000, 0, 0, 0⟩  -- R256 Table 11.3
  | .HIF_XFAIL_ADDR => ⟨0x20, [], 1, 0, 0xfc000000, 0, 0, 0⟩  -- R256 Table 11.3
  | .HIF_LINK => ⟨0x24, [], 1, 0, 0xffffff00, 0, 0, 0⟩  -- R256 Table 11.3
  | .HIF_TOUCH_CNT => ⟨0x28, [], 1, 0, 0, 0, 0, 0⟩  -- R256 Table 11.3
  | .WIDE_MBX_ADDR => ⟨0x40, [], 1, 0x3ffffff, 0xfc000000, 0, 0, 0⟩  -- R256 Table 11.3
  | .WIDE_MBX_STAT => ⟨0x44, [], 1, 0, 0xffffffc, 0, 0, 0⟩  -- R256 Table 11.3
  | .WIDE_MBX_DATA => ⟨0x48, [(4, 4, 1, 0)], 1, 0, 0, 0, 0, 0⟩  -- R256 Table 11.3
  | .UART_CFG => ⟨0x60, [], 1, 0x800fffff, 0x7ff00000, 0, 0, 0x800021e9⟩  -- R256 Table 11.3
  | .UART_ERR_CNT => ⟨0x64, [], 1, 0, 0, 0, 0, 0⟩  -- R256 Table 11.3
  | .CPU_QMAP => ⟨0x100, [(4, 48, 1, 0)], 1, 0x1f, 0xffffffe0, 0, 0, 0⟩  -- R256 Table 11.3
  | .MSIX_TABLE => ⟨0x8000, [(0x10, 256, 1, 0)], 4, 0xffffffffffffffffffffffffffffffff, 0, 0, 0, 0⟩  -- R256 Table 11.3
  | .MSIX_PBA => ⟨0x9000, [(4, 8, 1, 0)], 1, 0, 0, 0, 0, 0⟩  -- R256 Table 11.3
  | .PKT_RING_BASE => ⟨0x10010000, [(0x1000, 64, 1, 0)], 2, 0xffffffffffffffff, 0, 0, 0, 0⟩  -- R266 Table 11.4
  | .PKT_WB_ADDR => ⟨0x10010008, [(0x1000, 64, 1, 0)], 2, 0xffffffffffffffff, 0, 0, 0, 0⟩  -- R266 Table 11.4
  | .PKT_RING_CFG => ⟨0x10010010, [(0x1000, 64, 1, 0)], 1, 0x80ff1f0f, 0x1f00e0f0, 0, 0x40000000, 0x206⟩  -- R266 Table 11.4
  | .PKT_RING_TIME => ⟨0x10010014, [(0x1000, 64, 1, 0)], 1, 0xffffffff, 0, 0, 0, 0x640000⟩  -- R266 Table 11.4
  | .RING_TAIL => ⟨0x10010018, [(0x1000, 64, 1, 0)], 1, 0x7fff, 0xffff8000, 0, 0, 0⟩  -- R266 Table 11.4
  | .RING_HEAD => ⟨0x1001001c, [(0x1000, 64, 1, 0)], 1, 0, 0xffff8000, 0, 0, 0⟩  -- R266 Table 11.4
  | .DROP_CNT => ⟨0x10010020, [(0x1000, 64, 1, 0)], 1, 0, 0, 0, 0, 0⟩  -- R266 Table 11.4
  | .ABORT_CNT => ⟨0x10010024, [(0x1000, 64, 1, 0)], 1, 0, 0, 0, 0, 0⟩  -- R266 Table 11.4
  | .SQ_BASE => ⟨0x10000000, [(0x1000, 16, 1, 0)], 2, 0xffffffffffffffff, 0, 0, 0, 0⟩  -- R287 Table 12.7
  | .CQ_BASE => ⟨0x10000008, [(0x1000, 16, 1, 0)], 2, 0xffffffffffffffff, 0, 0, 0, 0⟩  -- R287 Table 12.7
  | .CMD_WB_ADDR => ⟨0x10000010, [(0x1000, 16, 1, 0)], 2, 0xffffffffffffffff, 0, 0, 0, 0⟩  -- R287 Table 12.7
  | .CMD_RING_CFG => ⟨0x10000018, [(0x1000, 16, 1, 0)], 1, 0x80ff00ff, 0x1f00ff00, 0, 0x40000000, 0x66⟩  -- R287 Table 12.7
  | .CMD_RING_TIME => ⟨0x1000001c, [(0x1000, 16, 1, 0)], 1, 0xffff, 0xffff0000, 0, 0, 0⟩  -- R287 Table 12.7
  | .SQ_TAIL => ⟨0x10000020, [(0x1000, 16, 1, 0)], 1, 0xfff, 0xfffff000, 0, 0, 0⟩  -- R287 Table 12.7
  | .SQ_HEAD => ⟨0x10000024, [(0x1000, 16, 1, 0)], 1, 0, 0xfffff000, 0, 0, 0⟩  -- R287 Table 12.7
  | .CQ_HEAD => ⟨0x10000028, [(0x1000, 16, 1, 0)], 1, 0xfff, 0xfffff000, 0, 0, 0⟩  -- R287 Table 12.7
  | .CQ_TAIL => ⟨0x1000002c, [(0x1000, 16, 1, 0)], 1, 0, 0xfffff000, 0, 0, 0⟩  -- R287 Table 12.7
  | .CMD_CNT => ⟨0x10000030, [(0x1000, 16, 1, 0)], 1, 0, 0, 0, 0, 0⟩  -- R287 Table 12.7
  | .REFUSED_CNT => ⟨0x10000034, [(0x1000, 16, 1, 0)], 1, 0, 0, 0, 0, 0⟩  -- R287 Table 12.7
  | .CMD_SERIAL => ⟨0x2000, [], 2, 0, 0, 0, 0, 0⟩  -- R292 Table 12.11
  | .CMD_OUT => ⟨0x2008, [], 1, 0, 0xffff8000, 0, 0, 0⟩  -- R292 Table 12.11
  | .CMD_EVT => ⟨0x200c, [], 1, 0, 0xffffe0, 0xff00001f, 0, 0⟩  -- R292 Table 12.11
  | .IB_CFG => ⟨0x2010, [], 1, 0x80000000, 0x7ffffff8, 0, 0, 0⟩  -- R292 Table 12.11
  | .IB_NONCE_LAST => ⟨0x2018, [], 2, 0, 0, 0, 0, 0⟩  -- R292 Table 12.11
  | .IB_AUTH_FAIL_CNT => ⟨0x2020, [], 1, 0, 0, 0, 0, 0⟩  -- R292 Table 12.11
  | .IB_REPLAY_CNT => ⟨0x2024, [], 1, 0, 0, 0, 0, 0⟩  -- R292 Table 12.11
  | .CMD_REFUSED_CNT => ⟨0x2028, [], 1, 0, 0, 0, 0, 0⟩  -- R292 Table 12.11
  | .CMD_REISSUED_CNT => ⟨0x202c, [], 1, 0, 0, 0, 0, 0⟩  -- R292 Table 12.11
  | .LOCK_STAT => ⟨0x2040, [(4, 8, 1, 0)], 1, 0, 0x7fff0000, 0, 0, 0⟩  -- R292 Table 12.11
  | .ENG_STAT => ⟨0x2800000, [(0x100, 64, 1, 0)], 1, 0, 0xe000, 0, 0, 0⟩  -- R309 Table 13.12
  | .ENG_TRAPS => ⟨0x2800004, [(0x100, 64, 1, 0)], 1, 0, 0, 0, 0, 0⟩  -- R309 Table 13.12
  | .ENG_OVERRUN => ⟨0x2800008, [(0x100, 64, 1, 0)], 1, 0, 0, 0, 0, 0⟩  -- R309 Table 13.12
  | .ENG_FAIL => ⟨0x280000c, [(0x100, 64, 1, 0)], 1, 0, 0xfffe000, 0, 0, 0⟩  -- R309 Table 13.12
  | .ENG_EVT => ⟨0x2810000, [], 1, 0, 0xffff80, 0xff00007f, 0, 0⟩  -- R309 Table 13.13
  | .FW_STAT => ⟨0x2810004, [], 1, 0, 0x1ffff, 0, 0, 0⟩  -- R309 Table 13.13
  | .FW_RUN_VER => ⟨0x2810008, [], 1, 0, 0, 0, 0, 0⟩  -- R309 Table 13.13
  | .FW_STAGED_VER => ⟨0x281000c, [], 1, 0, 0, 0, 0, 0⟩  -- R309 Table 13.13
  | .ENG_POOL => ⟨0x2810010, [], 1, 0, 0xffffff80, 0, 0, 0⟩  -- R309 Table 13.13
  | .STL_PORT_STAT => ⟨0x2000000, [(0x10000, 4, 1, 0)], 1, 0, 0x70000, 0, 0, 0⟩  -- R329 Table 14.6
  | .STL_PORT_CTL => ⟨0x2000004, [(0x10000, 4, 1, 0)], 1, 0x80ff00ff, 0x7f00ff00, 0, 0, 0x8000000a⟩  -- R329 Table 14.6
  | .STL_EVT => ⟨0x2000008, [(0x10000, 4, 1, 0)], 1, 0, 0xfffe00, 0xff0001ff, 0, 0⟩  -- R329 Table 14.6
  | .CW_CORR => ⟨0x2000010, [(0x10000, 4, 1, 0)], 1, 0, 0, 0, 0, 0⟩  -- R329 Table 14.6
  | .CW_UNCORR => ⟨0x2000014, [(0x10000, 4, 1, 0)], 1, 0, 0, 0, 0, 0⟩  -- R329 Table 14.6
  | .BAD_BLOCK => ⟨0x2000018, [(0x10000, 4, 1, 0)], 1, 0, 0, 0, 0, 0⟩  -- R329 Table 14.6
  | .STUFF_VIOL => ⟨0x200001c, [(0x10000, 4, 1, 0)], 1, 0, 0, 0, 0, 0⟩  -- R329 Table 14.6
  | .FRAME_ERR => ⟨0x2000020, [(0x10000, 4, 1, 0)], 1, 0, 0, 0, 0, 0⟩  -- R329 Table 14.6
  | .LOCK_LOSS_CNT => ⟨0x2000024, [(0x10000, 4, 1, 0)], 1, 0, 0, 0, 0, 0⟩  -- R329 Table 14.6
  | .LG_TOD => ⟨0x2000040, [(0x10000, 4, 1, 0)], 2, 0, 0, 0, 0, 0⟩  -- R329 Table 14.6
  | .LG_INFO => ⟨0x2000048, [(0x10000, 4, 1, 0)], 1, 0, 0xffffff00, 0, 0, 0⟩  -- R329 Table 14.6
  | .STL_LANE_STAT => ⟨0x2000100, [(0x10000, 4, 1, 0), (0x40, 8, 0, 1)], 1, 0, 0x7f0000, 0, 0, 0⟩  -- R329 Table 14.7
  | .STL_LANE_TXCTL => ⟨0x2000104, [(0x10000, 4, 1, 0), (0x40, 8, 0, 1)], 1, 1, 0xffff08fc, 0, 2, 0⟩  -- R329 Table 14.7
  | .STL_LANE_TXEQ => ⟨0x2000108, [(0x10000, 4, 1, 0), (0x40, 8, 0, 1)], 1, 0x3fffffff, 0xc0000000, 0, 0, 0xfc0000⟩  -- R329 Table 14.7
  | .STL_LANE_TRIP => ⟨0x200010c, [(0x10000, 4, 1, 0), (0x40, 8, 0, 1)], 1, 0, 0xff000000, 0, 0, 0⟩  -- R329 Table 14.7
  | .STL_REF => ⟨0x2040000, [], 1, 0, 0x1fffffff, 0x20000000, 0, 0⟩  -- R329 Table 14.8
  | .STL_REF_EVT => ⟨0x2040004, [], 1, 0, 0xffffff, 0xff000000, 0, 0⟩  -- R329 Table 14.8
  | .STL_REFO_CTL => ⟨0x2040008, [], 1, 1, 0xffff08fc, 0, 2, 0⟩  -- R329 Table 14.8
  | .STL_REFO_TRIP => ⟨0x204000c, [], 1, 0, 0xff000000, 0, 0, 0⟩  -- R329 Table 14.8
  | .TWIN_STAT => ⟨0x2050000, [], 1, 0, 0x3fffff, 0, 0, 0⟩  -- R349 Table 15.8
  | .TWIN_EVT => ⟨0x2050004, [], 1, 0, 0xffffe0, 0xff00001f, 0, 0⟩  -- R349 Table 15.8
  | .TWIN_CFG_STAT => ⟨0x2050008, [], 1, 0, 0, 0, 0, 0xfa007d0⟩  -- R349 Table 15.8
  | .TWIN_BKP => ⟨0x205000c, [], 1, 0, 0x3ff, 0, 0, 0⟩  -- R349 Table 15.8
  | .TWIN_BOND0 => ⟨0x2050010, [], 1, 0xffffffff, 0, 0, 0, 0⟩  -- R349 Table 15.8
  | .TWIN_BOND1 => ⟨0x2050014, [], 1, 0xffff, 0xffff0000, 0, 0, 0⟩  -- R349 Table 15.8
  | .PEER_SERIAL => ⟨0x2050018, [], 2, 0, 0, 0, 0, 0⟩  -- R349 Table 15.8
  | .HB_MISS_CNT => ⟨0x2050020, [], 1, 0, 0, 0, 0, 0⟩  -- R349 Table 15.8
  | .PEER_LOST_CNT => ⟨0x2050024, [], 1, 0, 0, 0, 0, 0⟩  -- R349 Table 15.8
  | .BKP_REJECT_CNT => ⟨0x2050028, [], 1, 0, 0, 0, 0, 0⟩  -- R349 Table 15.8
  | .TWIN_DH => ⟨0x2050040, [(4, 24, 1, 0)], 1, 0xffffffff, 0, 0, 0, 0⟩  -- R349 Table 15.8
  | .CHAIN_STAT => ⟨0x2050100, [], 1, 0, 0xf000, 0, 0, 0⟩  -- R349 Table 15.8
  | .CHAIN_MGEN => ⟨0x2050104, [], 1, 0, 0, 0, 0, 0⟩  -- R349 Table 15.8
  | .CHAIN_EVT => ⟨0x2050108, [], 1, 0, 0xffffc0, 0xff00003f, 0, 0⟩  -- R349 Table 15.8
  | .CHAIN_BUDGET => ⟨0x205010c, [], 1, 0, 0, 0, 0, 0x186a0⟩  -- R349 Table 15.8
  | .CHAIN_TIME_CFG => ⟨0x2050110, [], 1, 0xc0000000, 0x3fffffff, 0, 0, 0x80000000⟩  -- R349 Table 15.8
  | .TIME_ROOT_STAT => ⟨0x2050114, [], 1, 0, 0xf000f000, 0, 0, 0⟩  -- R349 Table 15.8
  | .TIME_OFFSET => ⟨0x2050118, [], 2, 0, 0, 0, 0, 0⟩  -- R349 Table 15.8
  | .CHAIN_TRANSIT_CNT => ⟨0x2050120, [], 1, 0, 0, 0, 0, 0⟩  -- R349 Table 15.8
  | .CHAIN_WRAP_CNT => ⟨0x2050124, [], 1, 0, 0, 0, 0, 0⟩  -- R349 Table 15.8
  | .CHAIN_TTL_DROP => ⟨0x2050128, [], 1, 0, 0, 0, 0, 0⟩  -- R349 Table 15.8
  | .CHAIN_BAD_CNT => ⟨0x205012c, [], 1, 0, 0, 0, 0, 0⟩  -- R349 Table 15.8
  | .PWR_CTL => ⟨0x200000, [], 1, 0, 0x7800f800, 0, 0, 0⟩  -- R371 Table 16.5
  | .PWR_THRESH => ⟨0x200004, [], 1, 0, 0xf0, 0, 0, 0x5f646702⟩  -- R371 Table 16.5
  | .PWR_STAT0 => ⟨0x200008, [], 1, 0, 0, 0, 0, 0⟩  -- R371 Table 16.5
  | .PWR_STAT1 => ⟨0x20000c, [], 1, 0, 0xc00, 0, 0, 0x70800000⟩  -- R371 Table 16.5
  | .PWR_STAT2 => ⟨0x200010, [], 1, 0, 0xff, 0, 0, 0⟩  -- R371 Table 16.5
  | .PWR_EVT => ⟨0x200014, [], 1, 0, 0xffff00, 0xff0000ff, 0, 0⟩  -- R371 Table 16.5
  | .BELOW_BASE_MS => ⟨0x200020, [], 1, 0, 0, 0, 0, 0⟩  -- R371 Table 16.5
  | .CAP_UNMET_MS => ⟨0x200024, [], 1, 0, 0, 0, 0, 0⟩  -- R371 Table 16.5
  | .DROOP_CNT => ⟨0x200028, [], 1, 0, 0, 0, 0, 0⟩  -- R371 Table 16.5
  | .STEP_CNT => ⟨0x20002c, [], 1, 0, 0, 0, 0, 0⟩  -- R371 Table 16.5
  | .PKT_COEF => ⟨0x200080, [(4, 8, 1, 0)], 1, 0, 0, 0, 0, 0⟩  -- R371 Table 16.5
  | .BYTE_COEF => ⟨0x2000a0, [(4, 8, 1, 0)], 1, 0, 0, 0, 0, 0⟩  -- R371 Table 16.5
  | .TEMP => ⟨0x200100, [(4, 64, 1, 0)], 1, 0, 0x7fff0000, 0, 0, 0⟩  -- R371 Table 16.5
  | .AGE => ⟨0x200200, [(4, 96, 1, 0)], 1, 0, 0x3ff000, 0, 0, 0xfff⟩  -- R371 Table 16.5
  | .AGE_WORST => ⟨0x200380, [], 1, 0, 0x380000, 0, 0, 0xfff⟩  -- R371 Table 16.5
  | .FLT_EVT => ⟨0x100000, [], 1, 0, 0xff8000, 0xff007fff, 0, 0⟩  -- R391 Table 17.6
  | .FLT_CFG => ⟨0x100004, [], 1, 0x700ff, 0xfff8ff00, 0, 0, 0x10000⟩  -- R391 Table 17.6
  | .FLT_STAT => ⟨0x100008, [], 1, 0, 0x7ffffe0, 0, 0, 0⟩  -- R391 Table 17.6
  | .FLT_SAFE_EVENT => ⟨0x10000c, [], 1, 0, 0xffff0000, 0, 0, 0⟩  -- R391 Table 17.6
  | .FLT_SAFE_TOD => ⟨0x100010, [], 2, 0, 0, 0, 0, 0⟩  -- R391 Table 17.6
  | .CLASS_CNT => ⟨0x100020, [(4, 5, 1, 0)], 1, 0, 0, 0, 0, 0⟩  -- R391 Table 17.6
  | .HIST_TOTAL => ⟨0x100034, [], 1, 0, 0, 0, 0, 0⟩  -- R391 Table 17.6
  | .QUAR_RX_DROP => ⟨0x100038, [], 1, 0, 0, 0, 0, 0⟩  -- R391 Table 17.6
  | .TILE_LINK_DROP => ⟨0x10003c, [], 1, 0, 0, 0, 0, 0⟩  -- R391 Table 17.6
  | .VARNISH_CFG => ⟨0x100040, [], 1, 0xf0000000, 0x7ff0000, 0, 0, 0x80000000⟩  -- R391 Table 17.6
  | .PIPE_QUAR_IN => ⟨0x100050, [], 1, 0, 0, 0, 0, 0⟩  -- R391 Table 17.6
  | .PIPE_QUAR_EG => ⟨0x100054, [], 1, 0, 0, 0, 0, 0⟩  -- R391 Table 17.6
  | .BANK_RETIRED => ⟨0x100060, [(4, 4, 1, 0)], 1, 0, 0, 0, 0, 0⟩  -- R391 Table 17.6
  | .MACRO_FAILED => ⟨0x100070, [(4, 3, 1, 0)], 1, 0, 0, 0, 0, 0⟩  -- R391 Table 17.6
  | .TILE_LINK_STAT => ⟨0x10007c, [], 1, 0, 0xffffff00, 0, 0, 0⟩  -- R391 Table 17.6
  | .BANK_UE_CNT => ⟨0x100200, [(4, 128, 1, 0)], 1, 0, 0, 0, 0, 0⟩  -- R391 Table 17.6
  | .FLT_HIST => ⟨0x101000, [(0x10, 32, 1, 0)], 4, 0, 0, 0, 0, 0⟩  -- R391 Table 17.7
  | .RST_STAT => ⟨0x300000, [], 1, 0, 0x3fff, 0, 0, 0⟩  -- R408 Table 18.8
  | .CLK_STAT => ⟨0x300004, [], 1, 0, 0x1fffffff, 0, 0, 0⟩  -- R408 Table 18.8
  | .CLK_RUN => ⟨0x300008, [], 1, 0, 0xfe000000, 0, 0, 0⟩  -- R408 Table 18.8
  | .BOOT_MS => ⟨0x30000c, [], 1, 0, 0, 0, 0, 0⟩  -- R408 Table 18.8
  | .TOD_NOW => ⟨0x300100, [], 2, 0, 0, 0, 0, 0⟩  -- R408 Table 18.8
  | .TOD_SET => ⟨0x300108, [], 2, 0xffffffffffffffff, 0, 0, 0, 0⟩  -- R408 Table 18.8
  | .TOD_CTL => ⟨0x300110, [], 1, 0xe0000000, 0x7ffffff, 0, 0, 0x80000000⟩  -- R408 Table 18.8
  | .TOD_PPS_CAP => ⟨0x300118, [], 2, 0, 0, 0, 0, 0⟩  -- R408 Table 18.8
  | .FUSE_STAT => ⟨0x300200, [], 1, 0, 0x7fc0, 0, 0, 0⟩  -- R408 Table 18.8
  | .LEARN_APPLIED => ⟨0x1410, [], 1, 0, 0, 0, 0, 0⟩  -- R113 Table 4.11
  | .LEARN_MOVE => ⟨0x1414, [], 1, 0, 0, 0, 0, 0⟩  -- R113 Table 4.11
  | .LEARN_DUP => ⟨0x1418, [], 1, 0, 0, 0, 0, 0⟩  -- R113 Table 4.11
  | .LEARN_FIFO_OVF => ⟨0x141c, [], 1, 0, 0, 0, 0, 0⟩  -- R113 Table 4.11
  | .LEARN_ENG_OVF => ⟨0x1420, [], 1, 0, 0, 0, 0, 0⟩  -- R113 Table 4.11
  | .LEARN_TABLE_FULL => ⟨0x1424, [], 1, 0, 0, 0, 0, 0⟩  -- R113 Table 4.11
  | .LEARN_STATIC => ⟨0x1428, [], 1, 0, 0, 0, 0, 0⟩  -- R113 Table 4.11
  | .AGED_OUT => ⟨0x142c, [], 1, 0, 0, 0, 0, 0⟩  -- R113 Table 4.11
  | .AGE_RACE => ⟨0x1430, [], 1, 0, 0, 0, 0, 0⟩  -- R113 Table 4.11
  | .AGE_OVERRUN => ⟨0x1434, [], 1, 0, 0, 0, 0, 0⟩  -- R113 Table 4.11
  | .OVF_DRAIN => ⟨0x1438, [], 1, 0, 0, 0, 0, 0⟩  -- R113 Table 4.11
  | .IB_PORT_EN => ⟨0x2100, [(4, 24, 1, 0)], 1, 0xffffffff, 0, 0, 0, 0⟩  -- R292 

/-- The registers in the order of the chapters, part 0. -/
def regNames0 : List RegName :=
  [.GLB_SRC_MAP0, .GLB_SRC_MAP1, .MAC_MACRO_CFG, .MAC_EVT, .MAC_TXMAP, .MAC_RXMAP, .MAC_POL, .LANE_TXEQ, .LANE_RXEQ, .LANE_TXCTL, .LANE_STAT, .PORT_FLOW, .PORT_PFC_TIME, .PORT_STAT, .PORT_PTP, .MAC_TS_POP, .PARSE_CFG0, .PARSE_CFG1, .PARSE_CFG2, .PARSE_ERR_ACT, .GLB_HASH_SEED, .PIPE_CFG_STAT, .PIPE_IMG_ID, .PIPE_IMG_INFO, .PIPE_STAT, .PIPE_PARSE_CNT, .PIPE_LIMIT_CNT, .SKETCH_ENTRY, .TBL_STAT0, .TBL_STAT1, .TBL_STAT2, .TBL_STAT3, .LEARN_STAT, .LEARN_EVT, .EPOCH_STAT, .EPOCH_STATE0, .EPOCH_STATE1, .EPOCH_CFG, .EPOCH_EVT, .EPOCH_INFLIGHT, .TCAM_STAT, .TCAM_EVT, .FALSE_HIT_CNT, .SCRUB_FIX_CNT, .SCRUB_SWEEPS, .EPOCH_EXPIRE_DROPS, .TCAM_TBL_STAT0, .TCAM_TBL_STAT1, .PIPE_TCAM_WAIT, .PIPE_TCAM_RETRY, .PAL_CFG, .PAL_EVT, .PAL_STAT0, .PAL_STAT1, .PAL_STAT2, .PAL_WD_CFG, .MC_STAT, .PAL_POOL_SIZE, .PAL_HP_SIZE, .PAL_POOL_USED]

/-- The registers in the order of the chapters, part 1. -/
def regNames1 : List RegName :=
  [.PAL_HP_USED, .PAL_POOL_EFF, .PAL_DROP_CNT, .QUEUE_ADM0, .QUEUE_ADM1, .QUEUE_DEPTH0, .QUEUE_DEPTH1, .PG_CFG, .PG_STAT0, .PG_STAT1, .PORT_WD, .PORT_ADM, .HOST_FLOW, .FIFO_DROP_LOSSY, .FIFO_DROP_LOSSLESS, .FIFO_DROP_CONTROL, .FIFO_STAT, .CPU_QUEUE_ADM, .CPU_QUEUE_DEPTH, .SCH_NODE0_Q, .SCH_NODE0_S, .SCH_NODE0_P, .SCH_NODE0_C, .SCH_NODE1_Q, .SCH_NODE1_S, .SCH_NODE1_P, .SCH_NODE1_C, .SHP_RATE_Q, .SHP_RATE_S, .SHP_RATE_P, .SHP_RATE_C, .SHP_BURST_Q, .SHP_BURST_S, .SHP_BURST_P, .SHP_BURST_C, .SCH_EVT, .SCH_STAT, .SCH_PARK_CNT, .SCH_LATE_CNT, .SCH_LATE_MAX, .TEL_CFG, .TEL_PEN, .EXP_ROUTE, .FLOW_CFG, .PC_CFG, .PC_LAT, .PC_DROP_MASK, .IOAM_CFG0, .IOAM_CFG1, .IOAM_CFG2, .TEL_EVT, .PC_TAC_SEL, .IOAM_PORT, .TGT_STAT, .BATCHES, .BATCH_LATE_CNT, .REC_SENT, .REC_LATE, .REC_OVF, .WRAP_COUNT]

/-- The registers in the order of the chapters, part 2. -/
def regNames2 : List RegName :=
  [.NEXT_SEQ, .GPOS, .FLOW_ACTIVE, .FLOW_EXPORTED, .FLOW_EVICT, .PC_SENT, .PC_LIMITED, .IOAM_INSERT, .IOAM_FILL, .IOAM_DECAP, .IOAM_SKIP, .SMP_RING_BASE, .SMP_WB_ADDR, .SMP_RING_CFG, .PROD, .CONS, .DEV_LEVEL, .SMP_DROP, .TRACE_CFG, .TRACE_TAGGED, .SWATCH_CFG, .SWATCH_BUF_A, .SWATCH_BUF_B, .SWATCH_STAT, .SWATCH_SEQ, .CNT_EVT, .SWATCH_SKIP_CNT, .VF_DENIED_CNT, .METER_LAST_END, .METER_STATIC_UJ, .METER_MERGED_CNT, .PORT_RATE_CFG, .SMP_CFG, .HIF_ID0, .HIF_ID1, .HIF_SERIAL, .HIF_CFG, .HIF_EVT, .HIF_TOUCH_ADDR, .HIF_UNMAP_ADDR, .HIF_XFAIL_ADDR, .HIF_LINK, .HIF_TOUCH_CNT, .WIDE_MBX_ADDR, .WIDE_MBX_STAT, .WIDE_MBX_DATA, .UART_CFG, .UART_ERR_CNT, .CPU_QMAP, .MSIX_TABLE, .MSIX_PBA, .PKT_RING_BASE, .PKT_WB_ADDR, .PKT_RING_CFG, .PKT_RING_TIME, .RING_TAIL, .RING_HEAD, .DROP_CNT, .ABORT_CNT, .SQ_BASE]

/-- The registers in the order of the chapters, part 3. -/
def regNames3 : List RegName :=
  [.CQ_BASE, .CMD_WB_ADDR, .CMD_RING_CFG, .CMD_RING_TIME, .SQ_TAIL, .SQ_HEAD, .CQ_HEAD, .CQ_TAIL, .CMD_CNT, .REFUSED_CNT, .CMD_SERIAL, .CMD_OUT, .CMD_EVT, .IB_CFG, .IB_NONCE_LAST, .IB_AUTH_FAIL_CNT, .IB_REPLAY_CNT, .CMD_REFUSED_CNT, .CMD_REISSUED_CNT, .LOCK_STAT, .ENG_STAT, .ENG_TRAPS, .ENG_OVERRUN, .ENG_FAIL, .ENG_EVT, .FW_STAT, .FW_RUN_VER, .FW_STAGED_VER, .ENG_POOL, .STL_PORT_STAT, .STL_PORT_CTL, .STL_EVT, .CW_CORR, .CW_UNCORR, .BAD_BLOCK, .STUFF_VIOL, .FRAME_ERR, .LOCK_LOSS_CNT, .LG_TOD, .LG_INFO, .STL_LANE_STAT, .STL_LANE_TXCTL, .STL_LANE_TXEQ, .STL_LANE_TRIP, .STL_REF, .STL_REF_EVT, .STL_REFO_CTL, .STL_REFO_TRIP, .TWIN_STAT, .TWIN_EVT, .TWIN_CFG_STAT, .TWIN_BKP, .TWIN_BOND0, .TWIN_BOND1, .PEER_SERIAL, .HB_MISS_CNT, .PEER_LOST_CNT, .BKP_REJECT_CNT, .TWIN_DH, .CHAIN_STAT]

/-- The registers in the order of the chapters, part 4. -/
def regNames4 : List RegName :=
  [.CHAIN_MGEN, .CHAIN_EVT, .CHAIN_BUDGET, .CHAIN_TIME_CFG, .TIME_ROOT_STAT, .TIME_OFFSET, .CHAIN_TRANSIT_CNT, .CHAIN_WRAP_CNT, .CHAIN_TTL_DROP, .CHAIN_BAD_CNT, .PWR_CTL, .PWR_THRESH, .PWR_STAT0, .PWR_STAT1, .PWR_STAT2, .PWR_EVT, .BELOW_BASE_MS, .CAP_UNMET_MS, .DROOP_CNT, .STEP_CNT, .PKT_COEF, .BYTE_COEF, .TEMP, .AGE, .AGE_WORST, .FLT_EVT, .FLT_CFG, .FLT_STAT, .FLT_SAFE_EVENT, .FLT_SAFE_TOD, .CLASS_CNT, .HIST_TOTAL, .QUAR_RX_DROP, .TILE_LINK_DROP, .VARNISH_CFG, .PIPE_QUAR_IN, .PIPE_QUAR_EG, .BANK_RETIRED, .MACRO_FAILED, .TILE_LINK_STAT, .BANK_UE_CNT, .FLT_HIST, .RST_STAT, .CLK_STAT, .CLK_RUN, .BOOT_MS, .TOD_NOW, .TOD_SET, .TOD_CTL, .TOD_PPS_CAP, .FUSE_STAT, .LEARN_APPLIED, .LEARN_MOVE, .LEARN_DUP, .LEARN_FIFO_OVF, .LEARN_ENG_OVF, .LEARN_TABLE_FULL, .LEARN_STATIC, .AGED_OUT, .AGE_RACE]

/-- The registers in the order of the chapters, part 5. -/
def regNames5 : List RegName :=
  [.AGE_OVERRUN, .OVF_DRAIN, .IB_PORT_EN]

/-- Every register of the map. -/
def regNames : List RegName := regNames0 ++ regNames1 ++ regNames2 ++ regNames3 ++ regNames4 ++ regNames5

/-- A named bit field of a single-word register: the register, its lowest bit and its width. -/
structure Fld where
  reg : RegName
  lo : Nat
  w : Nat
deriving DecidableEq, Repr

namespace F

def GLB_SRC_MAP0_SL3_PIPE : Fld := ⟨.GLB_SRC_MAP0, 24, 5⟩
def GLB_SRC_MAP0_SL2_PIPE : Fld := ⟨.GLB_SRC_MAP0, 16, 5⟩
def GLB_SRC_MAP0_SL1_PIPE : Fld := ⟨.GLB_SRC_MAP0, 8, 5⟩
def GLB_SRC_MAP0_SL0_PIPE : Fld := ⟨.GLB_SRC_MAP0, 0, 5⟩
def GLB_SRC_MAP1_HOST_PEND : Fld := ⟨.GLB_SRC_MAP1, 20, 1⟩
def GLB_SRC_MAP1_SL_PEND : Fld := ⟨.GLB_SRC_MAP1, 16, 4⟩
def GLB_SRC_MAP1_HOST_PIPE : Fld := ⟨.GLB_SRC_MAP1, 0, 5⟩
def MAC_MACRO_CFG_ENABLED : Fld := ⟨.MAC_MACRO_CFG, 31, 1⟩
def MAC_MACRO_CFG_LANE_RATE : Fld := ⟨.MAC_MACRO_CFG, 26, 2⟩
def MAC_MACRO_CFG_REACH : Fld := ⟨.MAC_MACRO_CFG, 24, 2⟩
def MAC_MACRO_CFG_DIRECT_DRIVE : Fld := ⟨.MAC_MACRO_CFG, 23, 1⟩
def MAC_MACRO_CFG_PORT_START : Fld := ⟨.MAC_MACRO_CFG, 8, 8⟩
def MAC_MACRO_CFG_PORT_UP : Fld := ⟨.MAC_MACRO_CFG, 0, 8⟩
def MAC_EVT_SEQ : Fld := ⟨.MAC_EVT, 24, 8⟩
def MAC_EVT_PTP_FIFO_OVF : Fld := ⟨.MAC_EVT, 6, 1⟩
def MAC_EVT_FEC_UNCORR : Fld := ⟨.MAC_EVT, 5, 1⟩
def MAC_EVT_LT_FAIL : Fld := ⟨.MAC_EVT, 4, 1⟩
def MAC_EVT_AN_FAIL : Fld := ⟨.MAC_EVT, 3, 1⟩
def MAC_EVT_LINK_CHANGE : Fld := ⟨.MAC_EVT, 2, 1⟩
def MAC_EVT_TX_LATCHED : Fld := ⟨.MAC_EVT, 1, 1⟩
def MAC_EVT_TX_SHORT : Fld := ⟨.MAC_EVT, 0, 1⟩
def MAC_TXMAP_TX_LANE : Fld := ⟨.MAC_TXMAP, 0, 24⟩
def MAC_RXMAP_RX_LANE : Fld := ⟨.MAC_RXMAP, 0, 24⟩
def MAC_POL_RX_INV : Fld := ⟨.MAC_POL, 8, 8⟩
def MAC_POL_TX_INV : Fld := ⟨.MAC_POL, 0, 8⟩
def LANE_TXEQ_C_POST1 : Fld := ⟨.LANE_TXEQ, 24, 6⟩
def LANE_TXEQ_C_MAIN : Fld := ⟨.LANE_TXEQ, 18, 6⟩
def LANE_TXEQ_C_PRE1 : Fld := ⟨.LANE_TXEQ, 12, 6⟩
def LANE_TXEQ_C_PRE2 : Fld := ⟨.LANE_TXEQ, 6, 6⟩
def LANE_TXEQ_C_PRE3 : Fld := ⟨.LANE_TXEQ, 0, 6⟩
def LANE_RXEQ_ADAPT_EN : Fld := ⟨.LANE_RXEQ, 31, 1⟩
def LANE_RXEQ_DD_EXT : Fld := ⟨.LANE_RXEQ, 30, 1⟩
def LANE_RXEQ_CTLE_BOOST : Fld := ⟨.LANE_RXEQ, 20, 4⟩
def LANE_RXEQ_EYE_MARGIN : Fld := ⟨.LANE_RXEQ, 0, 8⟩
def LANE_TXCTL_RETRY_COUNT : Fld := ⟨.LANE_TXCTL, 12, 4⟩
def LANE_TXCTL_TX_STATE : Fld := ⟨.LANE_TXCTL, 8, 3⟩
def LANE_TXCTL_REARM : Fld := ⟨.LANE_TXCTL, 1, 1⟩
def LANE_TXCTL_TX_SQUELCH : Fld := ⟨.LANE_TXCTL, 0, 1⟩
def LANE_STAT_RX_SIGNAL : Fld := ⟨.LANE_STAT, 31, 1⟩
def LANE_STAT_CDR_LOCK : Fld := ⟨.LANE_STAT, 30, 1⟩
def LANE_STAT_TRIP_TOTAL : Fld := ⟨.LANE_STAT, 16, 8⟩
def LANE_STAT_OC_GLITCH : Fld := ⟨.LANE_STAT, 0, 16⟩
def PORT_FLOW_FLOW_MODE : Fld := ⟨.PORT_FLOW, 30, 2⟩
def PORT_FLOW_PFC_TX_EN : Fld := ⟨.PORT_FLOW, 16, 8⟩
def PORT_FLOW_PFC_RX_EN : Fld := ⟨.PORT_FLOW, 8, 8⟩
def PORT_PFC_TIME_QUANTA : Fld := ⟨.PORT_PFC_TIME, 16, 16⟩
def PORT_PFC_TIME_REFRESH : Fld := ⟨.PORT_PFC_TIME, 0, 16⟩
def PORT_STAT_PAUSED_RX : Fld := ⟨.PORT_STAT, 16, 8⟩
def PORT_STAT_PAUSED_TX : Fld := ⟨.PORT_STAT, 8, 8⟩
def PORT_STAT_CTRL_DISCARD : Fld := ⟨.PORT_STAT, 0, 8⟩
def PORT_PTP_TX_DELAY_ADJ : Fld := ⟨.PORT_PTP, 16, 16⟩
def PORT_PTP_RX_DELAY_ADJ : Fld := ⟨.PORT_PTP, 0, 16⟩
def PARSE_CFG0_VXLAN_PORT : Fld := ⟨.PARSE_CFG0, 16, 16⟩
def PARSE_CFG0_GENEVE_PORT : Fld := ⟨.PARSE_CFG0, 0, 16⟩
def PARSE_CFG1_GENEVE_IOAM_EN : Fld := ⟨.PARSE_CFG1, 31, 1⟩
def PARSE_CFG1_GENEVE_IOAM_CLASS : Fld := ⟨.PARSE_CFG1, 8, 16⟩
def PARSE_CFG1_GENEVE_IOAM_TYPE : Fld := ⟨.PARSE_CFG1, 0, 8⟩
def PARSE_CFG2_TRAP_QUEUE : Fld := ⟨.PARSE_CFG2, 8, 6⟩
def PARSE_CFG2_IOAM_HBH_TYPE : Fld := ⟨.PARSE_CFG2, 0, 8⟩
def PARSE_ERR_ACT_ACT_r : Fld := ⟨.PARSE_ERR_ACT, 2, 30⟩
def GLB_HASH_SEED_SEED : Fld := ⟨.GLB_HASH_SEED, 0, 32⟩
def PIPE_CFG_STAT_PARSE_PEND : Fld := ⟨.PIPE_CFG_STAT, 1, 1⟩
def PIPE_CFG_STAT_SEED_PEND : Fld := ⟨.PIPE_CFG_STAT, 0, 1⟩
def PIPE_IMG_ID_IMG_ID : Fld := ⟨.PIPE_IMG_ID, 0, 32⟩
def PIPE_IMG_INFO_EASEL_MAJOR : Fld := ⟨.PIPE_IMG_INFO, 24, 8⟩
def PIPE_IMG_INFO_EASEL_MINOR : Fld := ⟨.PIPE_IMG_INFO, 16, 8⟩
def PIPE_STAT_QUARANTINED : Fld := ⟨.PIPE_STAT, 31, 1⟩
def PIPE_STAT_CLOCK_GATED : Fld := ⟨.PIPE_STAT, 30, 1⟩
def PIPE_STAT_SERVED_BY : Fld := ⟨.PIPE_STAT, 16, 8⟩
def PIPE_PARSE_CNT_COUNT : Fld := ⟨.PIPE_PARSE_CNT, 0, 32⟩
def PIPE_LIMIT_CNT_COUNT : Fld := ⟨.PIPE_LIMIT_CNT, 0, 32⟩
def SKETCH_ENTRY_EN : Fld := ⟨.SKETCH_ENTRY, 31, 1⟩
def SKETCH_ENTRY_TRIGGER : Fld := ⟨.SKETCH_ENTRY, 28, 3⟩
def SKETCH_ENTRY_START_NODE : Fld := ⟨.SKETCH_ENTRY, 16, 8⟩
def SKETCH_ENTRY_MATCH : Fld := ⟨.SKETCH_ENTRY, 0, 16⟩
def TBL_STAT0_HASH_STATE : Fld := ⟨.TBL_STAT0, 30, 2⟩
def TBL_STAT0_BG_OP : Fld := ⟨.TBL_STAT0, 28, 2⟩
def TBL_STAT0_KIND : Fld := ⟨.TBL_STAT0, 26, 2⟩
def TBL_STAT0_PERMILLE : Fld := ⟨.TBL_STAT0, 16, 10⟩
def TBL_STAT0_GEN : Fld := ⟨.TBL_STAT0, 0, 16⟩
def TBL_STAT1_ENTRIES : Fld := ⟨.TBL_STAT1, 0, 24⟩
def TBL_STAT2_MOVE_COUNT : Fld := ⟨.TBL_STAT2, 16, 16⟩
def TBL_STAT2_OVF_USED : Fld := ⟨.TBL_STAT2, 0, 14⟩
def TBL_STAT3_SEED_CUR : Fld := ⟨.TBL_STAT3, 31, 1⟩
def TBL_STAT3_RESIDUAL : Fld := ⟨.TBL_STAT3, 0, 20⟩
def LEARN_STAT_FIFO_LEVEL : Fld := ⟨.LEARN_STAT, 0, 17⟩
def LEARN_EVT_SEQ : Fld := ⟨.LEARN_EVT, 24, 8⟩
def LEARN_EVT_RESIDUAL_END : Fld := ⟨.LEARN_EVT, 5, 1⟩
def LEARN_EVT_BG_DONE : Fld := ⟨.LEARN_EVT, 4, 1⟩
def LEARN_EVT_AGE_OVERRUN : Fld := ⟨.LEARN_EVT, 3, 1⟩
def LEARN_EVT_TABLE_FULL : Fld := ⟨.LEARN_EVT, 2, 1⟩
def LEARN_EVT_ENG_OVF : Fld := ⟨.LEARN_EVT, 1, 1⟩
def LEARN_EVT_FIFO_OVF : Fld := ⟨.LEARN_EVT, 0, 1⟩
def EPOCH_STAT_STAGED : Fld := ⟨.EPOCH_STAT, 31, 1⟩
def EPOCH_STAT_PENDING : Fld := ⟨.EPOCH_STAT, 24, 4⟩
def EPOCH_STAT_CURRENT : Fld := ⟨.EPOCH_STAT, 20, 4⟩
def EPOCH_STAT_OLDEST : Fld := ⟨.EPOCH_STAT, 16, 4⟩
def EPOCH_STAT_LIVE : Fld := ⟨.EPOCH_STAT, 0, 16⟩
def EPOCH_STATE0_STATE_n : Fld := ⟨.EPOCH_STATE0, 0, 32⟩
def EPOCH_STATE1_STATE_n : Fld := ⟨.EPOCH_STATE1, 0, 32⟩
def EPOCH_CFG_HOLD_MAX_MS : Fld := ⟨.EPOCH_CFG, 0, 14⟩
def EPOCH_EVT_SEQ : Fld := ⟨.EPOCH_EVT, 24, 8⟩
def EPOCH_EVT_EXPIRED : Fld := ⟨.EPOCH_EVT, 3, 1⟩
def EPOCH_EVT_RECLAIMED : Fld := ⟨.EPOCH_EVT, 2, 1⟩
def EPOCH_EVT_COMMITTED : Fld := ⟨.EPOCH_EVT, 1, 1⟩
def EPOCH_EVT_BUSY_REFUSED : Fld := ⟨.EPOCH_EVT, 0, 1⟩
def EPOCH_INFLIGHT_COUNT : Fld := ⟨.EPOCH_INFLIGHT, 0, 21⟩
def TCAM_STAT_THROTTLE : Fld := ⟨.TCAM_STAT, 30, 2⟩
def TCAM_EVT_SEQ : Fld := ⟨.TCAM_EVT, 24, 8⟩
def TCAM_EVT_SCOPE_HELD : Fld := ⟨.TCAM_EVT, 5, 1⟩
def TCAM_EVT_VERIFY_DROP : Fld := ⟨.TCAM_EVT, 4, 1⟩
def TCAM_EVT_SHADOW_UE : Fld := ⟨.TCAM_EVT, 3, 1⟩
def TCAM_EVT_SCRUB_FIX : Fld := ⟨.TCAM_EVT, 2, 1⟩
def TCAM_EVT_FALSE_HIT : Fld := ⟨.TCAM_EVT, 1, 1⟩
def TCAM_EVT_THROTTLE_CHANGE : Fld := ⟨.TCAM_EVT, 0, 1⟩
def FALSE_HIT_CNT_V : Fld := ⟨.FALSE_HIT_CNT, 0, 32⟩
def SCRUB_FIX_CNT_V : Fld := ⟨.SCRUB_FIX_CNT, 0, 32⟩
def SCRUB_SWEEPS_V : Fld := ⟨.SCRUB_SWEEPS, 0, 32⟩
def EPOCH_EXPIRE_DROPS_V : Fld := ⟨.EPOCH_EXPIRE_DROPS, 0, 32⟩
def TCAM_TBL_STAT0_PROFILE : Fld := ⟨.TCAM_TBL_STAT0, 30, 2⟩
def TCAM_TBL_STAT0_DIR : Fld := ⟨.TCAM_TBL_STAT0, 29, 1⟩
def TCAM_TBL_STAT0_ENTRIES : Fld := ⟨.TCAM_TBL_STAT0, 0, 20⟩
def TCAM_TBL_STAT1_MIN_FREE_ROWS : Fld := ⟨.TCAM_TBL_STAT1, 0, 15⟩
def PIPE_TCAM_WAIT_V : Fld := ⟨.PIPE_TCAM_WAIT, 0, 32⟩
def PIPE_TCAM_RETRY_V : Fld := ⟨.PIPE_TCAM_RETRY, 0, 32⟩
def PAL_CFG_CT_EN : Fld := ⟨.PAL_CFG, 31, 1⟩
def PAL_CFG_MC_POOL : Fld := ⟨.PAL_CFG, 26, 2⟩
def PAL_CFG_LL_POOL : Fld := ⟨.PAL_CFG, 24, 2⟩
def PAL_EVT_SEQ : Fld := ⟨.PAL_EVT, 24, 8⟩
def PAL_EVT_RX_TAIL : Fld := ⟨.PAL_EVT, 6, 1⟩
def PAL_EVT_CFG_REFUSED : Fld := ⟨.PAL_EVT, 5, 1⟩
def PAL_EVT_POOL_SHRUNK : Fld := ⟨.PAL_EVT, 4, 1⟩
def PAL_EVT_QDESC_LOW : Fld := ⟨.PAL_EVT, 3, 1⟩
def PAL_EVT_HEADROOM_DROP : Fld := ⟨.PAL_EVT, 2, 1⟩
def PAL_EVT_WD_RESTORE : Fld := ⟨.PAL_EVT, 1, 1⟩
def PAL_EVT_WD_DROP : Fld := ⟨.PAL_EVT, 0, 1⟩
def PAL_STAT0_BANKS_IN_SERVICE : Fld := ⟨.PAL_STAT0, 24, 8⟩
def PAL_STAT0_FREE_CELLS : Fld := ⟨.PAL_STAT0, 0, 21⟩
def PAL_STAT1_QDESC_FREE : Fld := ⟨.PAL_STAT1, 0, 22⟩
def PAL_STAT2_RES_TOTAL : Fld := ⟨.PAL_STAT2, 0, 21⟩
def PAL_WD_CFG_RESTORE_MS : Fld := ⟨.PAL_WD_CFG, 18, 14⟩
def PAL_WD_CFG_WD_MS : Fld := ⟨.PAL_WD_CFG, 0, 14⟩
def MC_STAT_USED : Fld := ⟨.MC_STAT, 0, 21⟩
def PAL_POOL_SIZE_SIZE : Fld := ⟨.PAL_POOL_SIZE, 0, 21⟩
def PAL_HP_SIZE_SIZE : Fld := ⟨.PAL_HP_SIZE, 0, 21⟩
def PAL_POOL_USED_USED : Fld := ⟨.PAL_POOL_USED, 0, 21⟩
def PAL_HP_USED_USED : Fld := ⟨.PAL_HP_USED, 0, 21⟩
def PAL_POOL_EFF_EFF : Fld := ⟨.PAL_POOL_EFF, 0, 21⟩
def PAL_DROP_CNT_COUNT : Fld := ⟨.PAL_DROP_CNT, 0, 32⟩
def QUEUE_ADM0_LOSSLESS : Fld := ⟨.QUEUE_ADM0, 31, 1⟩
def QUEUE_ADM0_CT_DIS : Fld := ⟨.QUEUE_ADM0, 30, 1⟩
def QUEUE_ADM0_POOL : Fld := ⟨.QUEUE_ADM0, 28, 2⟩
def QUEUE_ADM0_ALPHA : Fld := ⟨.QUEUE_ADM0, 24, 4⟩
def QUEUE_ADM0_RESERVED_MIN : Fld := ⟨.QUEUE_ADM0, 0, 10⟩
def QUEUE_ADM1_MARK_EN : Fld := ⟨.QUEUE_ADM1, 31, 1⟩
def QUEUE_ADM1_MARK_THRESH : Fld := ⟨.QUEUE_ADM1, 0, 29⟩
def QUEUE_DEPTH0_CELLS : Fld := ⟨.QUEUE_DEPTH0, 0, 21⟩
def QUEUE_DEPTH1_BYTES : Fld := ⟨.QUEUE_DEPTH1, 0, 29⟩
def PG_CFG_HR_LIMIT : Fld := ⟨.PG_CFG, 19, 13⟩
def PG_CFG_IALPHA : Fld := ⟨.PG_CFG, 15, 4⟩
def PG_CFG_XON_DELTA : Fld := ⟨.PG_CFG, 11, 4⟩
def PG_CFG_PG_MIN : Fld := ⟨.PG_CFG, 0, 11⟩
def PG_STAT0_SHARED_USED : Fld := ⟨.PG_STAT0, 0, 21⟩
def PG_STAT1_XOFF : Fld := ⟨.PG_STAT1, 31, 1⟩
def PG_STAT1_HR_USED : Fld := ⟨.PG_STAT1, 0, 13⟩
def PORT_WD_WD_ACTIVE : Fld := ⟨.PORT_WD, 24, 8⟩
def PORT_WD_WD_EN : Fld := ⟨.PORT_WD, 0, 8⟩
def PORT_ADM_DSCP_CLASS : Fld := ⟨.PORT_ADM, 31, 1⟩
def PORT_ADM_UNTAGGED_CLASS : Fld := ⟨.PORT_ADM, 24, 3⟩
def HOST_FLOW_LL_CLASS : Fld := ⟨.HOST_FLOW, 0, 8⟩
def FIFO_DROP_LOSSY_V : Fld := ⟨.FIFO_DROP_LOSSY, 0, 32⟩
def FIFO_DROP_LOSSLESS_V : Fld := ⟨.FIFO_DROP_LOSSLESS, 0, 32⟩
def FIFO_DROP_CONTROL_V : Fld := ⟨.FIFO_DROP_CONTROL, 0, 32⟩
def FIFO_STAT_FIFO_PAUSE : Fld := ⟨.FIFO_STAT, 31, 1⟩
def FIFO_STAT_LEVEL : Fld := ⟨.FIFO_STAT, 0, 17⟩
def CPU_QUEUE_ADM_POOL : Fld := ⟨.CPU_QUEUE_ADM, 28, 2⟩
def CPU_QUEUE_ADM_ALPHA : Fld := ⟨.CPU_QUEUE_ADM, 24, 4⟩
def CPU_QUEUE_ADM_RESERVED_MIN : Fld := ⟨.CPU_QUEUE_ADM, 0, 10⟩
def CPU_QUEUE_DEPTH_CELLS : Fld := ⟨.CPU_QUEUE_DEPTH, 0, 21⟩
def SCH_NODE0_Q_ATTACHED : Fld := ⟨.SCH_NODE0_Q, 31, 1⟩
def SCH_NODE0_Q_DETACH_PEND : Fld := ⟨.SCH_NODE0_Q, 30, 1⟩
def SCH_NODE0_Q_BAND : Fld := ⟨.SCH_NODE0_Q, 28, 2⟩
def SCH_NODE0_Q_WEIGHT : Fld := ⟨.SCH_NODE0_Q, 16, 12⟩
def SCH_NODE0_Q_PARENT : Fld := ⟨.SCH_NODE0_Q, 0, 13⟩
def SCH_NODE0_S_ATTACHED : Fld := ⟨.SCH_NODE0_S, 31, 1⟩
def SCH_NODE0_S_DETACH_PEND : Fld := ⟨.SCH_NODE0_S, 30, 1⟩
def SCH_NODE0_S_BAND : Fld := ⟨.SCH_NODE0_S, 28, 2⟩
def SCH_NODE0_S_WEIGHT : Fld := ⟨.SCH_NODE0_S, 16, 12⟩
def SCH_NODE0_S_PARENT : Fld := ⟨.SCH_NODE0_S, 0, 13⟩
def SCH_NODE0_P_ATTACHED : Fld := ⟨.SCH_NODE0_P, 31, 1⟩
def SCH_NODE0_P_DETACH_PEND : Fld := ⟨.SCH_NODE0_P, 30, 1⟩
def SCH_NODE0_P_BAND : Fld := ⟨.SCH_NODE0_P, 28, 2⟩
def SCH_NODE0_P_WEIGHT : Fld := ⟨.SCH_NODE0_P, 16, 12⟩
def SCH_NODE0_P_PARENT : Fld := ⟨.SCH_NODE0_P, 0, 13⟩
def SCH_NODE0_C_ATTACHED : Fld := ⟨.SCH_NODE0_C, 31, 1⟩
def SCH_NODE0_C_DETACH_PEND : Fld := ⟨.SCH_NODE0_C, 30, 1⟩
def SCH_NODE0_C_BAND : Fld := ⟨.SCH_NODE0_C, 28, 2⟩
def SCH_NODE0_C_WEIGHT : Fld := ⟨.SCH_NODE0_C, 16, 12⟩
def SCH_NODE0_C_PARENT : Fld := ⟨.SCH_NODE0_C, 0, 13⟩
def SCH_NODE1_Q_BACKLOG : Fld := ⟨.SCH_NODE1_Q, 31, 1⟩
def SCH_NODE1_Q_SHAPE_WAIT : Fld := ⟨.SCH_NODE1_Q, 30, 1⟩
def SCH_NODE1_Q_PAUSED : Fld := ⟨.SCH_NODE1_Q, 29, 1⟩
def SCH_NODE1_Q_LEN_ADJ : Fld := ⟨.SCH_NODE1_Q, 16, 8⟩
def SCH_NODE1_Q_CLASS : Fld := ⟨.SCH_NODE1_Q, 8, 3⟩
def SCH_NODE1_S_BACKLOG : Fld := ⟨.SCH_NODE1_S, 31, 1⟩
def SCH_NODE1_S_SHAPE_WAIT : Fld := ⟨.SCH_NODE1_S, 30, 1⟩
def SCH_NODE1_S_PAUSED : Fld := ⟨.SCH_NODE1_S, 29, 1⟩
def SCH_NODE1_S_LEN_ADJ : Fld := ⟨.SCH_NODE1_S, 16, 8⟩
def SCH_NODE1_S_CLASS : Fld := ⟨.SCH_NODE1_S, 8, 3⟩
def SCH_NODE1_P_BACKLOG : Fld := ⟨.SCH_NODE1_P, 31, 1⟩
def SCH_NODE1_P_SHAPE_WAIT : Fld := ⟨.SCH_NODE1_P, 30, 1⟩
def SCH_NODE1_P_PAUSED : Fld := ⟨.SCH_NODE1_P, 29, 1⟩
def SCH_NODE1_P_LEN_ADJ : Fld := ⟨.SCH_NODE1_P, 16, 8⟩
def SCH_NODE1_P_CLASS : Fld := ⟨.SCH_NODE1_P, 8, 3⟩
def SCH_NODE1_C_BACKLOG : Fld := ⟨.SCH_NODE1_C, 31, 1⟩
def SCH_NODE1_C_SHAPE_WAIT : Fld := ⟨.SCH_NODE1_C, 30, 1⟩
def SCH_NODE1_C_PAUSED : Fld := ⟨.SCH_NODE1_C, 29, 1⟩
def SCH_NODE1_C_LEN_ADJ : Fld := ⟨.SCH_NODE1_C, 16, 8⟩
def SCH_NODE1_C_CLASS : Fld := ⟨.SCH_NODE1_C, 8, 3⟩
def SHP_RATE_Q_SHAPE_EN : Fld := ⟨.SHP_RATE_Q, 31, 1⟩
def SHP_RATE_Q_RATE : Fld := ⟨.SHP_RATE_Q, 0, 25⟩
def SHP_RATE_S_SHAPE_EN : Fld := ⟨.SHP_RATE_S, 31, 1⟩
def SHP_RATE_S_RATE : Fld := ⟨.SHP_RATE_S, 0, 25⟩
def SHP_RATE_P_SHAPE_EN : Fld := ⟨.SHP_RATE_P, 31, 1⟩
def SHP_RATE_P_RATE : Fld := ⟨.SHP_RATE_P, 0, 25⟩
def SHP_RATE_C_SHAPE_EN : Fld := ⟨.SHP_RATE_C, 31, 1⟩
def SHP_RATE_C_RATE : Fld := ⟨.SHP_RATE_C, 0, 25⟩
def SHP_BURST_Q_BURST : Fld := ⟨.SHP_BURST_Q, 0, 16⟩
def SHP_BURST_S_BURST : Fld := ⟨.SHP_BURST_S, 0, 16⟩
def SHP_BURST_P_BURST : Fld := ⟨.SHP_BURST_P, 0, 16⟩
def SHP_BURST_C_BURST : Fld := ⟨.SHP_BURST_C, 0, 16⟩
def SCH_EVT_SEQ : Fld := ⟨.SCH_EVT, 24, 8⟩
def SCH_EVT_WHEEL_LATE : Fld := ⟨.SCH_EVT, 1, 1⟩
def SCH_EVT_DETACH_DONE : Fld := ⟨.SCH_EVT, 0, 1⟩
def SCH_STAT_WHEEL_ENTRIES : Fld := ⟨.SCH_STAT, 0, 17⟩
def SCH_PARK_CNT_V : Fld := ⟨.SCH_PARK_CNT, 0, 32⟩
def SCH_LATE_CNT_V : Fld := ⟨.SCH_LATE_CNT, 0, 32⟩
def SCH_LATE_MAX_LATE_NS : Fld := ⟨.SCH_LATE_MAX, 0, 10⟩
def TEL_CFG_EXP_PERIOD_US : Fld := ⟨.TEL_CFG, 22, 10⟩
def TEL_CFG_TEMPLATE_S : Fld := ⟨.TEL_CFG, 10, 12⟩
def TEL_CFG_UTC_OFFSET : Fld := ⟨.TEL_CFG, 0, 8⟩
def TEL_PEN_IPFIX_PEN : Fld := ⟨.TEL_PEN, 0, 32⟩
def EXP_ROUTE_METER : Fld := ⟨.EXP_ROUTE, 15, 5⟩
def EXP_ROUTE_IOAM : Fld := ⟨.EXP_ROUTE, 10, 5⟩
def EXP_ROUTE_POSTCARD : Fld := ⟨.EXP_ROUTE, 5, 5⟩
def EXP_ROUTE_FLOW : Fld := ⟨.EXP_ROUTE, 0, 5⟩
def FLOW_CFG_IDLE_S : Fld := ⟨.FLOW_CFG, 22, 10⟩
def FLOW_CFG_ACTIVE_S : Fld := ⟨.FLOW_CFG, 10, 12⟩
def PC_CFG_PC_RATE : Fld := ⟨.PC_CFG, 0, 20⟩
def PC_CFG_DROP_EN : Fld := ⟨.PC_CFG, 31, 1⟩
def PC_CFG_LAT_EN : Fld := ⟨.PC_CFG, 30, 1⟩
def PC_CFG_ECN_EN : Fld := ⟨.PC_CFG, 29, 1⟩
def PC_CFG_PFC_EN : Fld := ⟨.PC_CFG, 28, 1⟩
def PC_CFG_SEL_EN : Fld := ⟨.PC_CFG, 27, 1⟩
def PC_LAT_PC_LAT_NS : Fld := ⟨.PC_LAT, 0, 32⟩
def PC_DROP_MASK_MASK : Fld := ⟨.PC_DROP_MASK, 0, 32⟩
def IOAM_CFG0_NODE_ID : Fld := ⟨.IOAM_CFG0, 8, 24⟩
def IOAM_CFG0_HOPS : Fld := ⟨.IOAM_CFG0, 4, 4⟩
def IOAM_CFG1_TRACE_TYPE : Fld := ⟨.IOAM_CFG1, 8, 24⟩
def IOAM_CFG2_NAMESPACE : Fld := ⟨.IOAM_CFG2, 16, 16⟩
def TEL_EVT_SEQ : Fld := ⟨.TEL_EVT, 24, 8⟩
def TEL_EVT_TARGET_DOWN : Fld := ⟨.TEL_EVT, 5, 1⟩
def TEL_EVT_IOAM_SKIP : Fld := ⟨.TEL_EVT, 4, 1⟩
def TEL_EVT_FLOW_PRESSURE : Fld := ⟨.TEL_EVT, 3, 1⟩
def TEL_EVT_PC_LIMITED : Fld := ⟨.TEL_EVT, 2, 1⟩
def TEL_EVT_REC_OVF : Fld := ⟨.TEL_EVT, 1, 1⟩
def TEL_EVT_BATCH_LATE : Fld := ⟨.TEL_EVT, 0, 1⟩
def PC_TAC_SEL_SEL : Fld := ⟨.PC_TAC_SEL, 0, 32⟩
def IOAM_PORT_DOMAIN : Fld := ⟨.IOAM_PORT, 1, 1⟩
def IOAM_PORT_ENC : Fld := ⟨.IOAM_PORT, 0, 1⟩
def TGT_STAT_EN : Fld := ⟨.TGT_STAT, 31, 1⟩
def TGT_STAT_KIND : Fld := ⟨.TGT_STAT, 30, 1⟩
def TGT_STAT_PORT : Fld := ⟨.TGT_STAT, 0, 10⟩
def BATCHES_V : Fld := ⟨.BATCHES, 0, 32⟩
def BATCH_LATE_CNT_V : Fld := ⟨.BATCH_LATE_CNT, 0, 32⟩
def REC_SENT_V : Fld := ⟨.REC_SENT, 0, 32⟩
def REC_LATE_V : Fld := ⟨.REC_LATE, 0, 32⟩
def REC_OVF_V : Fld := ⟨.REC_OVF, 0, 32⟩
def WRAP_COUNT_V : Fld := ⟨.WRAP_COUNT, 0, 32⟩
def NEXT_SEQ_V : Fld := ⟨.NEXT_SEQ, 0, 32⟩
def FLOW_ACTIVE_FLOW_ACTIVE : Fld := ⟨.FLOW_ACTIVE, 0, 18⟩
def FLOW_EXPORTED_V : Fld := ⟨.FLOW_EXPORTED, 0, 32⟩
def FLOW_EVICT_V : Fld := ⟨.FLOW_EVICT, 0, 32⟩
def PC_SENT_V : Fld := ⟨.PC_SENT, 0, 32⟩
def PC_LIMITED_V : Fld := ⟨.PC_LIMITED, 0, 32⟩
def IOAM_INSERT_V : Fld := ⟨.IOAM_INSERT, 0, 32⟩
def IOAM_FILL_V : Fld := ⟨.IOAM_FILL, 0, 32⟩
def IOAM_DECAP_V : Fld := ⟨.IOAM_DECAP, 0, 32⟩
def IOAM_SKIP_V : Fld := ⟨.IOAM_SKIP, 0, 32⟩
def SMP_RING_CFG_EN : Fld := ⟨.SMP_RING_CFG, 31, 1⟩
def SMP_RING_CFG_VECTOR : Fld := ⟨.SMP_RING_CFG, 16, 8⟩
def SMP_RING_CFG_SIZE_LOG2 : Fld := ⟨.SMP_RING_CFG, 0, 5⟩
def PROD_V : Fld := ⟨.PROD, 0, 32⟩
def CONS_V : Fld := ⟨.CONS, 0, 32⟩
def DEV_LEVEL_DEV_LEVEL : Fld := ⟨.DEV_LEVEL, 0, 14⟩
def SMP_DROP_V : Fld := ⟨.SMP_DROP, 0, 32⟩
def TRACE_CFG_EN : Fld := ⟨.TRACE_CFG, 31, 1⟩
def TRACE_CFG_TAC_MATCH : Fld := ⟨.TRACE_CFG, 30, 1⟩
def TRACE_CFG_PROB_LOG2 : Fld := ⟨.TRACE_CFG, 25, 5⟩
def TRACE_CFG_SOURCE : Fld := ⟨.TRACE_CFG, 15, 10⟩
def TRACE_CFG_TAC : Fld := ⟨.TRACE_CFG, 0, 14⟩
def TRACE_TAGGED_V : Fld := ⟨.TRACE_TAGGED, 0, 32⟩
def SWATCH_CFG_PERIOD_MS : Fld := ⟨.SWATCH_CFG, 16, 16⟩
def SWATCH_CFG_SECTION_MASK : Fld := ⟨.SWATCH_CFG, 0, 7⟩
def SWATCH_STAT_CAPTURING : Fld := ⟨.SWATCH_STAT, 31, 1⟩
def SWATCH_STAT_WRITING : Fld := ⟨.SWATCH_STAT, 30, 1⟩
def SWATCH_STAT_HELD_A : Fld := ⟨.SWATCH_STAT, 29, 1⟩
def SWATCH_STAT_HELD_B : Fld := ⟨.SWATCH_STAT, 28, 1⟩
def SWATCH_SEQ_V : Fld := ⟨.SWATCH_SEQ, 0, 32⟩
def CNT_EVT_SEQ : Fld := ⟨.CNT_EVT, 24, 8⟩
def CNT_EVT_VF_DENIED : Fld := ⟨.CNT_EVT, 4, 1⟩
def CNT_EVT_SMP_DROP : Fld := ⟨.CNT_EVT, 3, 1⟩
def CNT_EVT_SWATCH_SKIP : Fld := ⟨.CNT_EVT, 2, 1⟩
def CNT_EVT_SWATCH_DONE : Fld := ⟨.CNT_EVT, 1, 1⟩
def CNT_EVT_METER_MERGED : Fld := ⟨.CNT_EVT, 0, 1⟩
def SWATCH_SKIP_CNT_V : Fld := ⟨.SWATCH_SKIP_CNT, 0, 32⟩
def VF_DENIED_CNT_V : Fld := ⟨.VF_DENIED_CNT, 0, 32⟩
def METER_MERGED_CNT_V : Fld := ⟨.METER_MERGED_CNT, 0, 32⟩
def PORT_RATE_CFG_WINDOW_US : Fld := ⟨.PORT_RATE_CFG, 0, 26⟩
def SMP_CFG_SAMPLE_N : Fld := ⟨.SMP_CFG, 0, 25⟩
def HIF_ID0_DEVICE_ID : Fld := ⟨.HIF_ID0, 16, 16⟩
def HIF_ID0_VENDOR_ID : Fld := ⟨.HIF_ID0, 0, 16⟩
def HIF_ID1_STEP_MAJOR : Fld := ⟨.HIF_ID1, 24, 8⟩
def HIF_ID1_STEP_MINOR : Fld := ⟨.HIF_ID1, 16, 8⟩
def HIF_ID1_LICENCE : Fld := ⟨.HIF_ID1, 10, 2⟩
def HIF_ID1_GRADE : Fld := ⟨.HIF_ID1, 9, 1⟩
def HIF_ID1_MACROS_EN : Fld := ⟨.HIF_ID1, 0, 8⟩
def HIF_CFG_WIDE_MODE : Fld := ⟨.HIF_CFG, 16, 1⟩
def HIF_CFG_EVT_VECTOR : Fld := ⟨.HIF_CFG, 0, 8⟩
def HIF_EVT_SEQ : Fld := ⟨.HIF_EVT, 24, 8⟩
def HIF_EVT_LINK_DEGRADE : Fld := ⟨.HIF_EVT, 8, 1⟩
def HIF_EVT_UART_ERR : Fld := ⟨.HIF_EVT, 7, 1⟩
def HIF_EVT_TX_BAD : Fld := ⟨.HIF_EVT, 6, 1⟩
def HIF_EVT_RX_ABORT : Fld := ⟨.HIF_EVT, 5, 1⟩
def HIF_EVT_RX_RING_EMPTY : Fld := ⟨.HIF_EVT, 4, 1⟩
def HIF_EVT_PARTIAL_WR : Fld := ⟨.HIF_EVT, 3, 1⟩
def HIF_EVT_XDOMAIN_FAIL : Fld := ⟨.HIF_EVT, 2, 1⟩
def HIF_EVT_UNMAPPED : Fld := ⟨.HIF_EVT, 1, 1⟩
def HIF_EVT_TEST_TOUCH : Fld := ⟨.HIF_EVT, 0, 1⟩
def HIF_TOUCH_ADDR_ADDR : Fld := ⟨.HIF_TOUCH_ADDR, 0, 26⟩
def HIF_UNMAP_ADDR_ADDR : Fld := ⟨.HIF_UNMAP_ADDR, 0, 26⟩
def HIF_XFAIL_ADDR_ADDR : Fld := ⟨.HIF_XFAIL_ADDR, 0, 26⟩
def HIF_LINK_WIDTH : Fld := ⟨.HIF_LINK, 4, 4⟩
def HIF_LINK_FLIT : Fld := ⟨.HIF_LINK, 3, 1⟩
def HIF_LINK_GEN : Fld := ⟨.HIF_LINK, 0, 3⟩
def HIF_TOUCH_CNT_V : Fld := ⟨.HIF_TOUCH_CNT, 0, 32⟩
def WIDE_MBX_ADDR_ADDR : Fld := ⟨.WIDE_MBX_ADDR, 0, 26⟩
def WIDE_MBX_STAT_VALID : Fld := ⟨.WIDE_MBX_STAT, 31, 1⟩
def WIDE_MBX_STAT_BUSY : Fld := ⟨.WIDE_MBX_STAT, 30, 1⟩
def WIDE_MBX_STAT_ERR : Fld := ⟨.WIDE_MBX_STAT, 29, 1⟩
def WIDE_MBX_STAT_OVERRUN : Fld := ⟨.WIDE_MBX_STAT, 28, 1⟩
def WIDE_MBX_STAT_WORDS : Fld := ⟨.WIDE_MBX_STAT, 0, 2⟩
def WIDE_MBX_DATA_DATA : Fld := ⟨.WIDE_MBX_DATA, 0, 32⟩
def UART_CFG_EN : Fld := ⟨.UART_CFG, 31, 1⟩
def UART_CFG_DIV : Fld := ⟨.UART_CFG, 0, 20⟩
def UART_ERR_CNT_V : Fld := ⟨.UART_ERR_CNT, 0, 32⟩
def CPU_QMAP_RING : Fld := ⟨.CPU_QMAP, 0, 5⟩
def PKT_RING_CFG_EN : Fld := ⟨.PKT_RING_CFG, 31, 1⟩
def PKT_RING_CFG_RESET : Fld := ⟨.PKT_RING_CFG, 30, 1⟩
def PKT_RING_CFG_RST_DONE : Fld := ⟨.PKT_RING_CFG, 29, 1⟩
def PKT_RING_CFG_VECTOR : Fld := ⟨.PKT_RING_CFG, 16, 8⟩
def PKT_RING_CFG_BUF_KB : Fld := ⟨.PKT_RING_CFG, 8, 5⟩
def PKT_RING_CFG_SIZE_LOG2 : Fld := ⟨.PKT_RING_CFG, 0, 4⟩
def PKT_RING_TIME_HOLD_US : Fld := ⟨.PKT_RING_TIME, 16, 16⟩
def PKT_RING_TIME_COAL_US : Fld := ⟨.PKT_RING_TIME, 8, 8⟩
def PKT_RING_TIME_COAL_CNT : Fld := ⟨.PKT_RING_TIME, 0, 8⟩
def RING_TAIL_TAIL : Fld := ⟨.RING_TAIL, 0, 15⟩
def RING_HEAD_HEAD : Fld := ⟨.RING_HEAD, 0, 15⟩
def DROP_CNT_V : Fld := ⟨.DROP_CNT, 0, 32⟩
def ABORT_CNT_V : Fld := ⟨.ABORT_CNT, 0, 32⟩
def CMD_RING_CFG_EN : Fld := ⟨.CMD_RING_CFG, 31, 1⟩
def CMD_RING_CFG_RESET : Fld := ⟨.CMD_RING_CFG, 30, 1⟩
def CMD_RING_CFG_RST_DONE : Fld := ⟨.CMD_RING_CFG, 29, 1⟩
def CMD_RING_CFG_VECTOR : Fld := ⟨.CMD_RING_CFG, 16, 8⟩
def CMD_RING_CFG_CQ_SIZE_LOG2 : Fld := ⟨.CMD_RING_CFG, 4, 4⟩
def CMD_RING_CFG_SQ_SIZE_LOG2 : Fld := ⟨.CMD_RING_CFG, 0, 4⟩
def CMD_RING_TIME_COAL_US : Fld := ⟨.CMD_RING_TIME, 8, 8⟩
def CMD_RING_TIME_COAL_CNT : Fld := ⟨.CMD_RING_TIME, 0, 8⟩
def SQ_TAIL_TAIL : Fld := ⟨.SQ_TAIL, 0, 12⟩
def SQ_HEAD_HEAD : Fld := ⟨.SQ_HEAD, 0, 12⟩
def CQ_HEAD_HEAD : Fld := ⟨.CQ_HEAD, 0, 12⟩
def CQ_TAIL_TAIL : Fld := ⟨.CQ_TAIL, 0, 12⟩
def CMD_CNT_V : Fld := ⟨.CMD_CNT, 0, 32⟩
def REFUSED_CNT_V : Fld := ⟨.REFUSED_CNT, 0, 32⟩
def CMD_OUT_OUT_TOTAL : Fld := ⟨.CMD_OUT, 0, 15⟩
def CMD_EVT_SEQ : Fld := ⟨.CMD_EVT, 24, 8⟩
def CMD_EVT_LOCK_EXPIRED : Fld := ⟨.CMD_EVT, 4, 1⟩
def CMD_EVT_IB_REPLAY : Fld := ⟨.CMD_EVT, 3, 1⟩
def CMD_EVT_IB_AUTH_FAIL : Fld := ⟨.CMD_EVT, 2, 1⟩
def CMD_EVT_REISSUED : Fld := ⟨.CMD_EVT, 1, 1⟩
def CMD_EVT_ENG_FAULT_RET : Fld := ⟨.CMD_EVT, 0, 1⟩
def IB_CFG_IB_EN : Fld := ⟨.IB_CFG, 31, 1⟩
def IB_CFG_KEY_GEN : Fld := ⟨.IB_CFG, 0, 3⟩
def IB_AUTH_FAIL_CNT_V : Fld := ⟨.IB_AUTH_FAIL_CNT, 0, 32⟩
def IB_REPLAY_CNT_V : Fld := ⟨.IB_REPLAY_CNT, 0, 32⟩
def CMD_REFUSED_CNT_V : Fld := ⟨.CMD_REFUSED_CNT, 0, 32⟩
def CMD_REISSUED_CNT_V : Fld := ⟨.CMD_REISSUED_CNT, 0, 32⟩
def LOCK_STAT_HELD : Fld := ⟨.LOCK_STAT, 31, 1⟩
def LOCK_STAT_HOLDER : Fld := ⟨.LOCK_STAT, 0, 16⟩
def ENG_STAT_STATE : Fld := ⟨.ENG_STAT, 29, 3⟩
def ENG_STAT_ROLE : Fld := ⟨.ENG_STAT, 25, 4⟩
def ENG_STAT_IN_TRAP : Fld := ⟨.ENG_STAT, 24, 1⟩
def ENG_STAT_SP : Fld := ⟨.ENG_STAT, 20, 4⟩
def ENG_STAT_LAST_VECTOR : Fld := ⟨.ENG_STAT, 16, 4⟩
def ENG_STAT_UPC : Fld := ⟨.ENG_STAT, 0, 13⟩
def ENG_TRAPS_V : Fld := ⟨.ENG_TRAPS, 0, 32⟩
def ENG_OVERRUN_V : Fld := ⟨.ENG_OVERRUN, 0, 32⟩
def ENG_FAIL_CAUSE : Fld := ⟨.ENG_FAIL, 28, 4⟩
def ENG_FAIL_FAIL_UPC : Fld := ⟨.ENG_FAIL, 0, 13⟩
def ENG_EVT_SEQ : Fld := ⟨.ENG_EVT, 24, 8⟩
def ENG_EVT_CS_CORRECTED : Fld := ⟨.ENG_EVT, 6, 1⟩
def ENG_EVT_FW_ROLLBACK : Fld := ⟨.ENG_EVT, 5, 1⟩
def ENG_EVT_FW_DONE : Fld := ⟨.ENG_EVT, 4, 1⟩
def ENG_EVT_OVERRUN : Fld := ⟨.ENG_EVT, 3, 1⟩
def ENG_EVT_TASK_MIGRATED : Fld := ⟨.ENG_EVT, 2, 1⟩
def ENG_EVT_ENG_RETURNED : Fld := ⟨.ENG_EVT, 1, 1⟩
def ENG_EVT_ENG_FAILED : Fld := ⟨.ENG_EVT, 0, 1⟩
def FW_STAT_FW_STATE : Fld := ⟨.FW_STAT, 30, 2⟩
def FW_STAT_PERMILLE : Fld := ⟨.FW_STAT, 20, 10⟩
def FW_STAT_BOOT_COPY : Fld := ⟨.FW_STAT, 19, 1⟩
def FW_STAT_RECOVERY : Fld := ⟨.FW_STAT, 18, 1⟩
def FW_STAT_NEXT_RESET : Fld := ⟨.FW_STAT, 17, 1⟩
def FW_RUN_VER_V : Fld := ⟨.FW_RUN_VER, 0, 32⟩
def FW_STAGED_VER_V : Fld := ⟨.FW_STAGED_VER, 0, 32⟩
def ENG_POOL_FAILED_COUNT : Fld := ⟨.ENG_POOL, 0, 7⟩
def STL_PORT_STAT_MODE : Fld := ⟨.STL_PORT_STAT, 30, 2⟩
def STL_PORT_STAT_LANES : Fld := ⟨.STL_PORT_STAT, 28, 2⟩
def STL_PORT_STAT_WIDTH : Fld := ⟨.STL_PORT_STAT, 26, 2⟩
def STL_PORT_STAT_UP : Fld := ⟨.STL_PORT_STAT, 25, 1⟩
def STL_PORT_STAT_RESIZE : Fld := ⟨.STL_PORT_STAT, 24, 1⟩
def STL_PORT_STAT_LOCAL_LOCK : Fld := ⟨.STL_PORT_STAT, 23, 1⟩
def STL_PORT_STAT_REMOTE_LOCK : Fld := ⟨.STL_PORT_STAT, 22, 1⟩
def STL_PORT_STAT_XOFF_RX : Fld := ⟨.STL_PORT_STAT, 21, 1⟩
def STL_PORT_STAT_XOFF_TX : Fld := ⟨.STL_PORT_STAT, 20, 1⟩
def STL_PORT_STAT_BOND : Fld := ⟨.STL_PORT_STAT, 19, 1⟩
def STL_PORT_STAT_GOOD_LOCAL : Fld := ⟨.STL_PORT_STAT, 8, 8⟩
def STL_PORT_STAT_GOOD_REMOTE : Fld := ⟨.STL_PORT_STAT, 0, 8⟩
def STL_PORT_CTL_RESTORE_EN : Fld := ⟨.STL_PORT_CTL, 31, 1⟩
def STL_PORT_CTL_LL_CLASS : Fld := ⟨.STL_PORT_CTL, 16, 8⟩
def STL_PORT_CTL_RESTORE_S : Fld := ⟨.STL_PORT_CTL, 0, 8⟩
def STL_EVT_SEQ : Fld := ⟨.STL_EVT, 24, 8⟩
def STL_EVT_TX_LATCHED : Fld := ⟨.STL_EVT, 8, 1⟩
def STL_EVT_TX_SHORT : Fld := ⟨.STL_EVT, 7, 1⟩
def STL_EVT_LAST_GASP_RX : Fld := ⟨.STL_EVT, 6, 1⟩
def STL_EVT_CFG_MISMATCH : Fld := ⟨.STL_EVT, 5, 1⟩
def STL_EVT_DESKEW_FAIL : Fld := ⟨.STL_EVT, 4, 1⟩
def STL_EVT_REF_MISMATCH : Fld := ⟨.STL_EVT, 3, 1⟩
def STL_EVT_LOCK_LOSS : Fld := ⟨.STL_EVT, 2, 1⟩
def STL_EVT_WIDTH_CHANGE : Fld := ⟨.STL_EVT, 1, 1⟩
def STL_EVT_LINK_CHANGE : Fld := ⟨.STL_EVT, 0, 1⟩
def CW_CORR_V : Fld := ⟨.CW_CORR, 0, 32⟩
def CW_UNCORR_V : Fld := ⟨.CW_UNCORR, 0, 32⟩
def BAD_BLOCK_V : Fld := ⟨.BAD_BLOCK, 0, 32⟩
def STUFF_VIOL_V : Fld := ⟨.STUFF_VIOL, 0, 32⟩
def FRAME_ERR_V : Fld := ⟨.FRAME_ERR, 0, 32⟩
def LOCK_LOSS_CNT_V : Fld := ⟨.LOCK_LOSS_CNT, 0, 32⟩
def LG_INFO_CAUSE : Fld := ⟨.LG_INFO, 0, 8⟩
def STL_LANE_STAT_RX_SIGNAL : Fld := ⟨.STL_LANE_STAT, 31, 1⟩
def STL_LANE_STAT_CDR_LOCK : Fld := ⟨.STL_LANE_STAT, 30, 1⟩
def STL_LANE_STAT_ADAPTED : Fld := ⟨.STL_LANE_STAT, 29, 1⟩
def STL_LANE_STAT_ALIGNED : Fld := ⟨.STL_LANE_STAT, 28, 1⟩
def STL_LANE_STAT_DESKEWED : Fld := ⟨.STL_LANE_STAT, 27, 1⟩
def STL_LANE_STAT_RX_INV_DET : Fld := ⟨.STL_LANE_STAT, 26, 1⟩
def STL_LANE_STAT_RX_LOGICAL : Fld := ⟨.STL_LANE_STAT, 23, 3⟩
def STL_LANE_STAT_EYE_MARGIN : Fld := ⟨.STL_LANE_STAT, 8, 8⟩
def STL_LANE_STAT_FREQ_OFF : Fld := ⟨.STL_LANE_STAT, 0, 8⟩
def STL_LANE_TXCTL_RETRY_COUNT : Fld := ⟨.STL_LANE_TXCTL, 12, 4⟩
def STL_LANE_TXCTL_TX_STATE : Fld := ⟨.STL_LANE_TXCTL, 8, 3⟩
def STL_LANE_TXCTL_REARM : Fld := ⟨.STL_LANE_TXCTL, 1, 1⟩
def STL_LANE_TXCTL_TX_SQUELCH : Fld := ⟨.STL_LANE_TXCTL, 0, 1⟩
def STL_LANE_TXEQ_C_POST1 : Fld := ⟨.STL_LANE_TXEQ, 24, 6⟩
def STL_LANE_TXEQ_C_MAIN : Fld := ⟨.STL_LANE_TXEQ, 18, 6⟩
def STL_LANE_TXEQ_C_PRE1 : Fld := ⟨.STL_LANE_TXEQ, 12, 6⟩
def STL_LANE_TXEQ_C_PRE2 : Fld := ⟨.STL_LANE_TXEQ, 6, 6⟩
def STL_LANE_TXEQ_C_PRE3 : Fld := ⟨.STL_LANE_TXEQ, 0, 6⟩
def STL_LANE_TRIP_TRIP_TOTAL : Fld := ⟨.STL_LANE_TRIP, 16, 8⟩
def STL_LANE_TRIP_OC_GLITCH : Fld := ⟨.STL_LANE_TRIP, 0, 16⟩
def STL_REF_REF_LOCK : Fld := ⟨.STL_REF, 31, 1⟩
def STL_REF_REFO_EN : Fld := ⟨.STL_REF, 30, 1⟩
def STL_REF_REF_LOST : Fld := ⟨.STL_REF, 29, 1⟩
def STL_REF_EVT_SEQ : Fld := ⟨.STL_REF_EVT, 24, 8⟩
def STL_REFO_CTL_RETRY_COUNT : Fld := ⟨.STL_REFO_CTL, 12, 4⟩
def STL_REFO_CTL_TX_STATE : Fld := ⟨.STL_REFO_CTL, 8, 3⟩
def STL_REFO_CTL_REARM : Fld := ⟨.STL_REFO_CTL, 1, 1⟩
def STL_REFO_CTL_TX_SQUELCH : Fld := ⟨.STL_REFO_CTL, 0, 1⟩
def STL_REFO_TRIP_TRIP_TOTAL : Fld := ⟨.STL_REFO_TRIP, 16, 8⟩
def STL_REFO_TRIP_OC_GLITCH : Fld := ⟨.STL_REFO_TRIP, 0, 16⟩
def TWIN_STAT_STATE : Fld := ⟨.TWIN_STAT, 29, 3⟩
def TWIN_STAT_EFF_ROLE : Fld := ⟨.TWIN_STAT, 27, 2⟩
def TWIN_STAT_PEER_ROLE : Fld := ⟨.TWIN_STAT, 25, 2⟩
def TWIN_STAT_LINK_UP : Fld := ⟨.TWIN_STAT, 24, 1⟩
def TWIN_STAT_BKP_ALIVE : Fld := ⟨.TWIN_STAT, 23, 1⟩
def TWIN_STAT_HELD : Fld := ⟨.TWIN_STAT, 22, 1⟩
def TWIN_EVT_SEQ : Fld := ⟨.TWIN_EVT, 24, 8⟩
def TWIN_EVT_ROLE_CONFLICT : Fld := ⟨.TWIN_EVT, 4, 1⟩
def TWIN_EVT_PAIRED : Fld := ⟨.TWIN_EVT, 3, 1⟩
def TWIN_EVT_DETACHED : Fld := ⟨.TWIN_EVT, 2, 1⟩
def TWIN_EVT_LINK_LOST : Fld := ⟨.TWIN_EVT, 1, 1⟩
def TWIN_EVT_PEER_LOST : Fld := ⟨.TWIN_EVT, 0, 1⟩
def TWIN_CFG_STAT_HOLD_MS : Fld := ⟨.TWIN_CFG_STAT, 18, 14⟩
def TWIN_CFG_STAT_ROLE : Fld := ⟨.TWIN_CFG_STAT, 16, 2⟩
def TWIN_CFG_STAT_WARMUP_MS : Fld := ⟨.TWIN_CFG_STAT, 0, 16⟩
def TWIN_BKP_BKP0_EN : Fld := ⟨.TWIN_BKP, 31, 1⟩
def TWIN_BKP_BKP0_PORT : Fld := ⟨.TWIN_BKP, 21, 10⟩
def TWIN_BKP_BKP1_EN : Fld := ⟨.TWIN_BKP, 20, 1⟩
def TWIN_BKP_BKP1_PORT : Fld := ⟨.TWIN_BKP, 10, 10⟩
def TWIN_BOND0_QBASE0 : Fld := ⟨.TWIN_BOND0, 16, 16⟩
def TWIN_BOND0_QBASE1 : Fld := ⟨.TWIN_BOND0, 0, 16⟩
def TWIN_BOND1_QCOUNT : Fld := ⟨.TWIN_BOND1, 0, 16⟩
def HB_MISS_CNT_V : Fld := ⟨.HB_MISS_CNT, 0, 32⟩
def PEER_LOST_CNT_V : Fld := ⟨.PEER_LOST_CNT, 0, 32⟩
def BKP_REJECT_CNT_V : Fld := ⟨.BKP_REJECT_CNT, 0, 32⟩
def TWIN_DH_DH : Fld := ⟨.TWIN_DH, 0, 32⟩
def CHAIN_STAT_CSTATE : Fld := ⟨.CHAIN_STAT, 30, 2⟩
def CHAIN_STAT_RING : Fld := ⟨.CHAIN_STAT, 29, 1⟩
def CHAIN_STAT_TIME_ROOT : Fld := ⟨.CHAIN_STAT, 28, 1⟩
def CHAIN_STAT_MEMBERS : Fld := ⟨.CHAIN_STAT, 16, 12⟩
def CHAIN_STAT_DEV_ID : Fld := ⟨.CHAIN_STAT, 0, 12⟩
def CHAIN_MGEN_V : Fld := ⟨.CHAIN_MGEN, 0, 32⟩
def CHAIN_EVT_SEQ : Fld := ⟨.CHAIN_EVT, 24, 8⟩
def CHAIN_EVT_TIME_STEP : Fld := ⟨.CHAIN_EVT, 5, 1⟩
def CHAIN_EVT_DUP_ID : Fld := ⟨.CHAIN_EVT, 4, 1⟩
def CHAIN_EVT_REFUSED : Fld := ⟨.CHAIN_EVT, 3, 1⟩
def CHAIN_EVT_WRAP : Fld := ⟨.CHAIN_EVT, 2, 1⟩
def CHAIN_EVT_BREAK : Fld := ⟨.CHAIN_EVT, 1, 1⟩
def CHAIN_EVT_TOPOLOGY : Fld := ⟨.CHAIN_EVT, 0, 1⟩
def CHAIN_BUDGET_V : Fld := ⟨.CHAIN_BUDGET, 0, 32⟩
def CHAIN_TIME_CFG_TIME_EN : Fld := ⟨.CHAIN_TIME_CFG, 31, 1⟩
def CHAIN_TIME_CFG_EXT_SRC : Fld := ⟨.CHAIN_TIME_CFG, 30, 1⟩
def TIME_ROOT_STAT_HOPS : Fld := ⟨.TIME_ROOT_STAT, 16, 12⟩
def TIME_ROOT_STAT_ROOT_DEV : Fld := ⟨.TIME_ROOT_STAT, 0, 12⟩
def CHAIN_TRANSIT_CNT_V : Fld := ⟨.CHAIN_TRANSIT_CNT, 0, 32⟩
def CHAIN_WRAP_CNT_V : Fld := ⟨.CHAIN_WRAP_CNT, 0, 32⟩
def CHAIN_TTL_DROP_V : Fld := ⟨.CHAIN_TTL_DROP, 0, 32⟩
def CHAIN_BAD_CNT_V : Fld := ⟨.CHAIN_BAD_CNT, 0, 32⟩
def PWR_CTL_MODE : Fld := ⟨.PWR_CTL, 31, 1⟩
def PWR_CTL_CAP_W : Fld := ⟨.PWR_CTL, 16, 11⟩
def PWR_CTL_CEILING_W : Fld := ⟨.PWR_CTL, 0, 11⟩
def PWR_THRESH_T1 : Fld := ⟨.PWR_THRESH, 24, 8⟩
def PWR_THRESH_T2 : Fld := ⟨.PWR_THRESH, 16, 8⟩
def PWR_THRESH_T3 : Fld := ⟨.PWR_THRESH, 8, 8⟩
def PWR_THRESH_HYST : Fld := ⟨.PWR_THRESH, 0, 4⟩
def PWR_STAT0_CAP_STEP : Fld := ⟨.PWR_STAT0, 27, 5⟩
def PWR_STAT0_BOOST : Fld := ⟨.PWR_STAT0, 26, 1⟩
def PWR_STAT0_BELOW_BASE : Fld := ⟨.PWR_STAT0, 25, 1⟩
def PWR_STAT0_CAP_UNMET : Fld := ⟨.PWR_STAT0, 24, 1⟩
def PWR_STAT0_FIXED_DEV : Fld := ⟨.PWR_STAT0, 23, 1⟩
def PWR_STAT0_BOOST_OK : Fld := ⟨.PWR_STAT0, 22, 1⟩
def PWR_STAT0_PWR_AVG_W : Fld := ⟨.PWR_STAT0, 11, 11⟩
def PWR_STAT0_PWR_EST_W : Fld := ⟨.PWR_STAT0, 0, 11⟩
def PWR_STAT1_CORE_MHZ : Fld := ⟨.PWR_STAT1, 20, 12⟩
def PWR_STAT1_THR_THERM : Fld := ⟨.PWR_STAT1, 18, 2⟩
def PWR_STAT1_THR_CAP : Fld := ⟨.PWR_STAT1, 16, 2⟩
def PWR_STAT1_DUTY_OFF : Fld := ⟨.PWR_STAT1, 12, 4⟩
def PWR_STAT1_VCORE_MV : Fld := ⟨.PWR_STAT1, 0, 10⟩
def PWR_STAT2_HOT_T : Fld := ⟨.PWR_STAT2, 16, 16⟩
def PWR_STAT2_HOT_SENSOR : Fld := ⟨.PWR_STAT2, 10, 6⟩
def PWR_STAT2_T_OVER : Fld := ⟨.PWR_STAT2, 9, 1⟩
def PWR_STAT2_TRIP_SEEN : Fld := ⟨.PWR_STAT2, 8, 1⟩
def PWR_EVT_SEQ : Fld := ⟨.PWR_EVT, 24, 8⟩
def PWR_EVT_AGE_WARN : Fld := ⟨.PWR_EVT, 7, 1⟩
def PWR_EVT_DROOP_BURST : Fld := ⟨.PWR_EVT, 6, 1⟩
def PWR_EVT_LOOP_STALL : Fld := ⟨.PWR_EVT, 5, 1⟩
def PWR_EVT_SENSOR_FAIL : Fld := ⟨.PWR_EVT, 4, 1⟩
def PWR_EVT_T_OVER : Fld := ⟨.PWR_EVT, 3, 1⟩
def PWR_EVT_THERM_CHANGE : Fld := ⟨.PWR_EVT, 2, 1⟩
def PWR_EVT_CAP_UNMET : Fld := ⟨.PWR_EVT, 1, 1⟩
def PWR_EVT_BELOW_BASE : Fld := ⟨.PWR_EVT, 0, 1⟩
def BELOW_BASE_MS_V : Fld := ⟨.BELOW_BASE_MS, 0, 32⟩
def CAP_UNMET_MS_V : Fld := ⟨.CAP_UNMET_MS, 0, 32⟩
def DROOP_CNT_V : Fld := ⟨.DROOP_CNT, 0, 32⟩
def STEP_CNT_V : Fld := ⟨.STEP_CNT, 0, 32⟩
def PKT_COEF_V : Fld := ⟨.PKT_COEF, 0, 32⟩
def BYTE_COEF_V : Fld := ⟨.BYTE_COEF, 0, 32⟩
def TEMP_VALID : Fld := ⟨.TEMP, 31, 1⟩
def TEMP_TEMP : Fld := ⟨.TEMP, 0, 16⟩
def AGE_CONSUMED : Fld := ⟨.AGE, 22, 10⟩
def AGE_MONTHS_LEFT : Fld := ⟨.AGE, 0, 12⟩
def AGE_WORST_CONSUMED : Fld := ⟨.AGE_WORST, 22, 10⟩
def AGE_WORST_MONITOR : Fld := ⟨.AGE_WORST, 12, 7⟩
def AGE_WORST_MONTHS_LEFT : Fld := ⟨.AGE_WORST, 0, 12⟩
def FLT_EVT_SEQ : Fld := ⟨.FLT_EVT, 24, 8⟩
def FLT_EVT_Events : Fld := ⟨.FLT_EVT, 0, 15⟩
def FLT_CFG_HIST_MIN_CLASS : Fld := ⟨.FLT_CFG, 16, 3⟩
def FLT_CFG_VECTOR : Fld := ⟨.FLT_CFG, 0, 8⟩
def FLT_STAT_SAFE : Fld := ⟨.FLT_STAT, 31, 1⟩
def FLT_STAT_SAFE_CAUSE : Fld := ⟨.FLT_STAT, 27, 4⟩
def FLT_STAT_HIST_HEAD : Fld := ⟨.FLT_STAT, 0, 5⟩
def FLT_SAFE_EVENT_EVENT_ID : Fld := ⟨.FLT_SAFE_EVENT, 0, 16⟩
def CLASS_CNT_V : Fld := ⟨.CLASS_CNT, 0, 32⟩
def HIST_TOTAL_V : Fld := ⟨.HIST_TOTAL, 0, 32⟩
def QUAR_RX_DROP_V : Fld := ⟨.QUAR_RX_DROP, 0, 32⟩
def TILE_LINK_DROP_V : Fld := ⟨.TILE_LINK_DROP, 0, 32⟩
def VARNISH_CFG_PIN_EN : Fld := ⟨.VARNISH_CFG, 31, 1⟩
def VARNISH_CFG_CLASS_MIN : Fld := ⟨.VARNISH_CFG, 28, 3⟩
def VARNISH_CFG_ARMED : Fld := ⟨.VARNISH_CFG, 27, 1⟩
def VARNISH_CFG_ARMED_ID : Fld := ⟨.VARNISH_CFG, 0, 16⟩
def PIPE_QUAR_IN_QUAR : Fld := ⟨.PIPE_QUAR_IN, 0, 32⟩
def PIPE_QUAR_EG_QUAR : Fld := ⟨.PIPE_QUAR_EG, 0, 32⟩
def BANK_RETIRED_RETIRED : Fld := ⟨.BANK_RETIRED, 0, 32⟩
def MACRO_FAILED_FAILED : Fld := ⟨.MACRO_FAILED, 0, 32⟩
def TILE_LINK_STAT_DOWN : Fld := ⟨.TILE_LINK_STAT, 0, 8⟩
def BANK_UE_CNT_COUNT : Fld := ⟨.BANK_UE_CNT, 0, 32⟩
def RST_STAT_BOOT_STAGE : Fld := ⟨.RST_STAT, 29, 3⟩
def RST_STAT_PROGRESS : Fld := ⟨.RST_STAT, 22, 7⟩
def RST_STAT_LAST_RESET : Fld := ⟨.RST_STAT, 20, 2⟩
def RST_STAT_RAIL_OK : Fld := ⟨.RST_STAT, 14, 6⟩
def CLK_STAT_AON_CLK_OK : Fld := ⟨.CLK_STAT, 31, 1⟩
def CLK_STAT_REFCLK_OK : Fld := ⟨.CLK_STAT, 30, 1⟩
def CLK_STAT_PCIE_REFCLK_OK : Fld := ⟨.CLK_STAT, 29, 1⟩
def CLK_RUN_RUN : Fld := ⟨.CLK_RUN, 0, 25⟩
def BOOT_MS_V : Fld := ⟨.BOOT_MS, 0, 32⟩
def TOD_CTL_PPS_OUT_EN : Fld := ⟨.TOD_CTL, 31, 1⟩
def TOD_CTL_PPS_IN_EN : Fld := ⟨.TOD_CTL, 30, 1⟩
def TOD_CTL_PPS_IN_EDGE : Fld := ⟨.TOD_CTL, 29, 1⟩
def TOD_CTL_VALID : Fld := ⟨.TOD_CTL, 28, 1⟩
def TOD_CTL_RESTORED : Fld := ⟨.TOD_CTL, 27, 1⟩
def FUSE_STAT_CEILING_LEFT : Fld := ⟨.FUSE_STAT, 28, 4⟩
def FUSE_STAT_LICENCE_LEFT : Fld := ⟨.FUSE_STAT, 26, 2⟩
def FUSE_STAT_INBAND_LEFT : Fld := ⟨.FUSE_STAT, 23, 3⟩
def FUSE_STAT_OWNER_SLOTS : Fld := ⟨.FUSE_STAT, 15, 8⟩
def FUSE_STAT_LOG_LEN : Fld := ⟨.FUSE_STAT, 0, 6⟩
def LEARN_APPLIED_V : Fld := ⟨.LEARN_APPLIED, 0, 32⟩
def LEARN_MOVE_V : Fld := ⟨.LEARN_MOVE, 0, 32⟩
def LEARN_DUP_V : Fld := ⟨.LEARN_DUP, 0, 32⟩
def LEARN_FIFO_OVF_V : Fld := ⟨.LEARN_FIFO_OVF, 0, 32⟩
def LEARN_ENG_OVF_V : Fld := ⟨.LEARN_ENG_OVF, 0, 32⟩
def LEARN_TABLE_FULL_V : Fld := ⟨.LEARN_TABLE_FULL, 0, 32⟩
def LEARN_STATIC_V : Fld := ⟨.LEARN_STATIC, 0, 32⟩
def AGED_OUT_V : Fld := ⟨.AGED_OUT, 0, 32⟩
def AGE_RACE_V : Fld := ⟨.AGE_RACE, 0, 32⟩
def AGE_OVERRUN_V : Fld := ⟨.AGE_OVERRUN, 0, 32⟩
def OVF_DRAIN_V : Fld := ⟨.OVF_DRAIN, 0, 32⟩
def IB_PORT_EN_EN : Fld := ⟨.IB_PORT_EN, 0, 32⟩

end F

end Sys2Proof.Machine
end

