-- ==== Sys2Proof/Config.lean ====
section
/-! DEFINITION. What the spec leaves open: values no rule states.  Each is a constant without a body, so that nothing can be proved of the value it takes.  A constant applied to a plain counter of the state (`State.free`) gives a fresh value at each use. -/

namespace Sys2Proof.Config

/-- A value the spec leaves open, drawn at the place named by the first argument (a small number each use names in its docstring) with the state's counter (log 2). -/
opaque freeValue (place counter : Nat) : Nat

/-- The public-key hashes (first 32 bytes of the SHA-384 of a candidate key) that a signature over a message yields under ECDSA P-384 key recovery (R406); the model computes no ECDSA (log 5). -/
opaque ecdsaCandidates (message auth : Nat) : List Nat

/-- Whether a signature over a message verifies under the Arique root key (R303, R406; log 5). -/
opaque rootVerifies (message auth : Nat) : Bool

/-- HMAC-SHA-256 of a byte string (as a number, with its length) under a key (R288, R332; log 5). -/
opaque hmacSha256 (key len message : Nat) : Nat

/-- SHA-384 of a byte string (as a number, with its length; log 5). -/
opaque sha384 (len message : Nat) : Nat

/-- The contents of one-time fuses that the spec says exist but whose values it does not give: the unit's serial number, steppings, fused voltages and coefficients.  The argument names the fuse word (log 4). -/
opaque fuseWord (which : Nat) : Nat

/-- One draw of a pipeline's random generator in [0, 2^24) (R240; log 2). -/
opaque randomDraw (pipe counter : Nat) : Nat

end Sys2Proof.Config
end

