-- ==== Sys2Proof/Machine/PartsNet.lean ====
section
/-! DEFINITION. The parts of the state that the packet path holds (Chapters 2 to 10): ports, parsed packets, tables, epochs, the Palette, the scheduler and telemetry.  Plain data throughout. -/

namespace Sys2Proof.Machine

/-- Sparse data by key: the value at a key is the first listed one. -/
abbrev Tab (κ α : Type) := List (κ × α)

/-! ### Ports (Chapter 2) -/

/-- One entry of MAC_TS_POP (Table 2.17). -/
structure TsCap where
  lane : Nat
  tag : Nat
  time : Nat
deriving DecidableEq, Repr

/-- What a macro holds beside its registers: the last settings of PORT_MACRO_CFG, its SerDes power and the end of its wake (R46) and the MAC_TS_POP queue (R56), oldest first. -/
structure MacroRt where
  cfg : Option MacroCfg := none
  powered : Bool := false
  wakeAt : Option Nat := none
  caps : List TsCap := []
deriving DecidableEq, Repr

/-- What a lane driver holds beside its registers (R46, R47): when it last tripped, turned ON, and began its ramp, in monotonic ns. -/
structure LaneRt where
  tripAt : Nat := 0
  onSince : Nat := 0
  rampAt : Nat := 0
deriving DecidableEq, Repr

/-- A MAC control frame a port has still to send (R49): PFC or PAUSE, the instant of the Palette's decision, and the time of each class enabled (for PAUSE, one time under class 0). -/
structure PauseFrame where
  pfc : Bool
  made : Nat
  times : List (Nat × Nat)
deriving DecidableEq, Repr

/-- What a port holds beside its registers (R42 to R45, R49 to R51): whether auto-negotiation and link training are done, when negotiation may restart, since when the PCS is locked, the pause timers of the partner (class, expiry in ps of the monotonic count), the frames to send, when each class (in PAUSE mode the port, place 8) was last announced (in ps), and the watchdog's two instants per class: since when it is paused and the last pause received (R181). -/
structure PortRt where
  anDone : Bool := false
  ltDone : Bool := false
  anRetryAt : Option Nat := none
  lockSince : Option Nat := none
  pauseRx : Tab Nat Nat := []
  pausedSince : Tab Nat Nat := []
  lastPause : Tab Nat Nat := []
  toSend : List PauseFrame := []
  announced : Tab Nat Nat := []
  /-- a reception whose tail is still to come (R177): the frame's identifier and length -/
  rxOpen : Option (Nat × Nat) := none
  /-- the fault that keeps the port down: 0 none, 1 a local fault, 2 a received remote fault (R44) -/
  fault : Nat := 1
deriving DecidableEq, Repr

/-! ### Parsed packets (Chapter 3) -/

/-- An IPv4 or IPv6 header as the fixed parser extracts it (Table 3.3). -/
structure IpHdr where
  ver : Nat
  off : Nat
  hlen : Nat
  dscp : Nat
  ecn : Nat
  ttl : Nat
  proto : Nat
  src : Nat
  dst : Nat
deriving DecidableEq, Repr

/-- What the fixed parser and the Sketch graph leave of a frame (R64 to R73): the HDR_VALID bits set, `starts` the first byte of each header instance with its bit, `path` the nodes whose extractions were made with their bases, `frags` the HDR_VALID bits of extension headers that are fragment headers, `conts` what the ingress extractions of the nodes wrote. -/
structure Hdrs where
  valid : List Nat := []
  starts : Tab Nat Nat := []
  path : List (Nat × Nat) := []
  bytes : Nat := 0
  fixedBytes : Nat := 0
  chain : Bool := false
  ethOff : Nat := 0
  dmac : Nat := 0
  smac : Nat := 0
  etype : Nat := 0
  vlans : List Nat := []
  mpls : List Nat := []
  ip : Option IpHdr := none
  extHdr : Bool := false
  frags : List Nat := []
  fragTail : Bool := false
  l4 : Nat := 0
  l4Off : Nat := 0
  sport : Nat := 0
  dport : Nat := 0
  tunnel : Nat := 0
  vni : Nat := 0
  tunEnd : Nat := 0
  ioam : Option Nat := none
  err : Nat := 0
  limit : Bool := false
  ctrl : Bool := false
  sketchN : Nat := 0
  conts : Tab Nat Nat := []
deriving DecidableEq, Repr

/-- The values that the standard program carries from ingress to egress in the four bridged containers (R63, R150): the tunnel endpoint address, the remote router MAC, the TRI or BD, TC, SRC_IDX, the encapsulation kind, and what the forwarding decision was; `outer` says that the outer header was the routed one.  `Machine.packBridge` lays them into the containers. -/
structure Bridge where
  inRole : Nat := 0
  terminated : Bool := false
  innerOff : Nat := 0
  routed : Bool := false
  outer : Bool := false
  under : Bool := false
  flood : Bool := false
  bridged : Bool := false
  tri : Nat := 0
  bd : Nat := 0
  tc : Nat := 0
  encap : Nat := 0
  tepDst : Nat := 0
  rmac : Nat := 0
  srcIdx : Nat := 0
  hostMac : Nat := 0
  hash : Nat := 0
deriving DecidableEq, Repr

/-- What a program has decided of a packet at action resolve: the intrinsic RW fields of Table 3.2 with HDR_VALID, the learn event, the four bridged containers (R63) and IMG_KEY (R210). -/
structure Decision where
  tac : Nat := 0
  drop : Nat := 0
  trap : Nat := 0
  destKind : Nat := 0
  destQueue : Nat := 0
  mcast : Nat := 0
  cpuQueue : Nat := 0
  learn : Option (Nat × Nat × Nat) := none
  bridged : List Nat := []
  valid : Nat := 0
  key : Nat := 0
deriving DecidableEq, Repr

/-- A frame waiting in an ingress FIFO, or being received: its source, class and timestamp (R53, R182). -/
structure FifoEnt where
  id : Nat
  frame : List Byte
  len : Nat
  ended : Bool
  tailBad : Bool
  src : Nat
  admClass : Nat
  iclass : Nat
  ts : Nat
  tsMono : Nat
  marker : Bool
deriving DecidableEq, Repr

/-- A packet: in an ingress pipeline, then in the Palette (Table 7.2).  `cells` are the cells written, in order, as (bank, index); `charged` the cells charged under R171; `pools` what each pool was charged (pool 4 is headroom); `stamps` the trace stamps of R241. -/
structure Pkt where
  id : Nat
  frame : List Byte
  len : Nat
  ended : Bool
  tailBad : Bool := false
  src : Nat
  pipe : Nat
  admClass : Nat
  iclass : Nat
  lossless : Bool := false
  ts : Nat
  tsMono : Nat
  tsLast : Nat
  epoch : Nat
  hdr : Hdrs
  dec : Decision
  sample : Bool := false
  smpCount : Nat := 0
  trace : Option Nat := none
  traceCount : Nat := 0
  stamps : List Nat := []
  cells : List (Nat × Nat) := []
  charged : Nat := 0
  pool : Option Nat := none
  poolAmt : Nat := 0
  hrCharged : Bool := false
  pgCharged : Bool := false
  refcnt : Nat := 0
  openCopies : Nat := 0
  writing : Bool := false
  offered : Nat := 0
  /-- the index of its packet descriptor (R157) -/
  desc : Nat := 0
deriving DecidableEq, Repr

/-- Where a copy stands: waiting for its descriptor to be placed, queued, selected and being read, at egress, ready for its MAC, in transmission. -/
inductive CopyPhase where
  | placing | queued | reading | egress | ready | sending
deriving DecidableEq, Repr

/-- What rewrite and Glaze completion leave of a copy (R82, R55): its bytes without FCS, the four fields the MAC acts on, its HDR_VALID at the end of egress stage 7, its IMG_KEY (R210) and CPU_META (Table 11.5). -/
structure TxImage where
  bytes : List Byte := []
  tsAction : Nat := 0
  tsOffset : Nat := 0
  csumOffset : Nat := 0
  tsTag : Nat := 0
  valid : Nat := 0
  key : Nat := 0
  cpuMeta : Nat := 0
  /-- bytes of headers that the program has put before the packet's own (R150) -/
  front : Nat := 0
deriving DecidableEq, Repr

/-- A copy of a packet (Table 7.3 and its open Glaze record): `nextCell` is the next cell to enter its reader's window, `passed` how many cells have been passed on to egress extraction (R164), `selSeq` its place in selection order, `sentAt` the TOD of its first bit at the transmitting balls. -/
structure Copy where
  id : Nat
  pkt : Nat
  node : Node
  port : Nat
  qdepth : Nat := 0
  ecn : Bool := false
  ct : Bool := false
  lossless : Bool := false
  mcast : Bool := false
  paused : Bool := false
  phase : CopyPhase := .placing
  nextCell : Nat := 0
  passed : Nat := 0
  selSeq : Nat := 0
  egStamps : List Nat := []
  img : TxImage := {}
  sentAt : Nat := 0
  /-- LATENCY of its record, known when its first bit leaves (R209) -/
  latency : Nat := 0
  /-- the index of its queue descriptor, while it holds one (R157, R158) -/
  qdesc : Option Nat := none
deriving DecidableEq, Repr

/-! ### Tables and policy (Chapters 4 and 5) -/

/-- An entry of an exact-match table (Tables 4.1 and 4.2); `region` 0 and 1 are the halves, 2 the overflow store; `hit` holds each replica's HIT_TS. -/
structure ExEnt where
  region : Nat
  pos : Nat
  static : Bool
  origin : Nat
  openEnd : Bool
  seedSel : Bool
  vfrom : Nat
  vuntil : Nat
  key : Nat
  data : Nat
  hit : List Nat
deriving DecidableEq, Repr

/-- A prefix of an LPM table (R109), with the STATIC flag of its insert (Table 4.5). -/
structure LpmEnt where
  slot : Nat
  static : Bool := false
  tri : Nat
  addr : Nat
  plen : Nat
  data : Nat
  openEnd : Bool
  vfrom : Nat
  vuntil : Nat
deriving DecidableEq, Repr

/-- A background operation of a table (R94, R108): a rehash or repack, or a flush, with the positions visited and the command that started it. -/
structure BgOp where
  flush : Bool
  visited : Nat
  total : Nat
  params : Option TblFlush
  deleted : Nat
  cmd : Option Hdr
deriving DecidableEq, Repr

/-- Aging settings and position of a table (R101 to R103); `newSet` holds AGE_TICKS, SWEEP_TICKS and AGE_EN until the next tick, `newTick` TICK_MS until the next sweep. -/
structure AgeCfg where
  tickMs : Nat := 1000
  ageTicks : Nat := 300
  sweepTicks : Nat := 100
  en : Bool := false
  newTick : Option Nat := none
  newSet : Option (Nat × Nat × Bool) := none
  refresh : Bool := false
  ticks : Nat := 0
  slice : Nat := 0
  nextAt : Nat := 0
deriving DecidableEq, Repr

/-- What an exact-match table holds (Chapter 4). -/
structure ExTab where
  ents : List ExEnt := []
  seedA : Nat := 0
  seedB : Nat := 0
  bg : Option BgOp := none
  retryAt : Nat := 0
  age : AgeCfg := {}
deriving DecidableEq, Repr

/-- What an LPM table holds. -/
structure LpmTab where
  ents : List LpmEnt := []
  bg : Option BgOp := none
deriving DecidableEq, Repr

/-- A learn event (R98): table, key, data. -/
structure Learn where
  table : Nat
  key : Nat
  data : Nat
deriving DecidableEq, Repr

/-- An entry of a policy table (R115 to R120): its row in every pipeline it lies in, with its shadow; `badIn` names the pipelines whose TCAM array disagrees with the shadow (R123), `false` one that matches wrongly. -/
structure TcamEnt where
  handle : Nat
  table : Nat
  serial : Nat
  prio : Nat
  scope : Nat
  actionId : Nat
  data : Nat
  rangeEn : Nat
  ranges : List (Nat × Nat)
  key : Nat
  mask : Nat
  openEnd : Bool
  vfrom : Nat
  vuntil : Nat
  /-- the pipelines that hold a row of it; those whose array disagrees with the shadow; those whose action memory word is uncorrectable -/
  pipes : List Nat
  badIn : List Nat
  badAct : List Nat := []
deriving DecidableEq, Repr

/-- What the staged version changed and POL_ABORT restores (R132): an ended entry and its old VALID_UNTIL. -/
inductive Undo where
  | exact (table key old : Nat)
  | lpm (table tri addr plen old : Nat)
  | tcam (handle old : Nat)
deriving DecidableEq, Repr

/-- Parser configuration and seed of an epoch (R67): PARSE_CFG0 to 2, PARSE_ERR_ACT, GLB_HASH_SEED. -/
structure ParseCfg where
  c0 : Nat
  c1 : Nat
  c2 : Nat
  act : Nat
  seed : Nat
deriving DecidableEq, Repr

/-! ### Scheduler (Chapter 8) -/

/-- What a node holds beside its registers (R191 to R200): its deficit, FRESH flag, tokens in 1/1024 byte and the instant of their last refresh in ns, the active lists of its four bands, and a detach in progress. -/
structure NodeRt where
  deficit : Nat := 0
  fresh : Bool := true
  tokens : Int := 67108864
  last : Nat := 0
  active : List (List Node) := [[], [], [], []]
  detachN0 : Nat := 0
  detachCmd : Option Hdr := none
  /-- changes of parent and band that wait for a decision of the parent, oldest first (R190, R203) -/
  moves : List (Nat × Nat) := []
deriving DecidableEq, Repr

/-- An entry of the timing wheel (R200): due at a slot boundary, in ns; `parked` in the last coarse slot. -/
structure WheelEnt where
  node : Node
  due : Nat
  parked : Bool
deriving DecidableEq, Repr

/-- A policer (R204 to R207), tokens in 1/1024 byte. -/
structure Policer where
  en : Bool := false
  rate : Nat := 25000000
  burst : Nat := 256
  lenAdj : Int := 0
  tokens : Int := 67108864
  last : Nat := 0
  conf : Nat := 0
  refused : Nat := 0
  refBytes : Nat := 0
deriving DecidableEq, Repr

/-! ### The Palette's matching (R161 to R164) -/

/-- A slot of a reader's reorder buffer (R162): a cell of a copy, and where it stands: 0 in the window, 1 matched, 2 read. -/
structure Slot where
  copy : Nat
  cell : Nat
  st : Nat
deriving DecidableEq, Repr

/-- What a reader holds: the copies selected for it whose cells are still to enter its window, in selection order; the slots of its reorder buffer, oldest first; its accept pointer. -/
structure Reader where
  copies : List Nat := []
  slots : List Slot := []
  accept : Nat := 0
deriving DecidableEq, Repr

/-- One granted read of a match in flight. -/
structure Grant where
  bank : Nat
  reader : Nat
  copy : Nat
  cell : Nat
deriving DecidableEq, Repr

/-! ### Telemetry (Chapters 9 and 10) -/

/-- A closed Glaze record (Table 9.1). -/
structure Glaze where
  ingressTs : Nat
  closeTs : Nat
  latency : Nat
  tac : Nat
  ingressPort : Nat
  egressPort : Nat
  queue : Nat
  qdepth : Nat
  epoch : Nat
  drop : Nat
  pktLen : Nat
  outLen : Nat
  closeAt : Nat
  ecn : Bool
  ct : Bool
  paused : Bool
  mcast : Bool
  cpu : Bool
  sample : Bool
  trace : Option Nat
deriving DecidableEq, Repr

/-- A flow cache entry (R210, R211). -/
structure FlowEnt where
  set : Nat
  tac : Nat
  port : Nat
  imgKey : Nat
  partialKey : Bool
  pkts : Nat := 0
  octets : Nat := 0
  dropPkts : Nat := 0
  dropOctets : Nat := 0
  ecnPkts : Nat := 0
  latMin : Nat := 0xFFFFFFFF
  latMax : Nat := 0
  latSum : Nat := 0
  firstTs : Option Nat := none
  lastTs : Nat := 0
  /-- the monotonic instants of FIRST_TS and LAST_TS, on which the timeouts run (R404) -/
  firstMono : Option Nat := none
  lastMono : Nat := 0
  lastEgress : Nat := 0
  lastDrop : Nat := 0
deriving DecidableEq, Repr

/-- A meter record (Table 10.10). -/
structure MeterRec where
  tac : Nat
  flags : Nat
  start : Nat
  stop : Nat
  diffs : List Nat
  /-- the counters at END -/
  ends : List Nat
deriving DecidableEq, Repr

/-- One export record in a batch: its template and bytes (Table 9.9), and the meter record it carries, if any. -/
structure ExpRec where
  template : Nat
  bytes : List Byte
  meter : Option MeterRec := none
deriving DecidableEq, Repr

/-- A TEL_FLOW_FLUSH that runs (R213): its command, the entries that the caches held at its start, and those still to be visited in each cluster. -/
structure FlowFlush where
  cmd : Hdr
  total : Nat
  left : List Nat
deriving DecidableEq, Repr

/-- One frame of a batch still to send (R221, R224, R226): its UDP payload behind the IPFIX header or the RDMA payload with its offset in the region, and the data records it carries. -/
structure ExpFrame where
  body : List Byte
  off : Nat
  recs : Nat
  /-- led by the template sets -/
  tmpl : Bool := false
deriving DecidableEq, Repr

/-- An export target (R219 to R222): its settings; the filling batch with the TOD of its period's start; the batch in transmission with its records, the frames still to send, its period's start, whether its last bit is still to come, and the write offset and laps that hold once it completes; a disable that waits for the deadline; the batches so far, late ones included; the Portfolio write offset; when the templates were last sent; and when tokens for the next frame are at hand (ps of the monotonic count). -/
structure Target where
  cfg : Option TargetSet := none
  filling : List ExpRec := []
  fillStart : Nat := 0
  sendRecs : List ExpRec := []
  frames : List ExpFrame := []
  sendStart : Nat := 0
  /-- the monotonic instant at which transmission began; the end of the present period where it stands on the monotonic count and not at a multiple of the period (R223, R404) -/
  sendMono : Nat := 0
  dueMono : Option Nat := none
  sending : Bool := false
  nextOff : Nat := 4096
  nextWraps : Nat := 0
  ending : Bool := false
  disableCmd : Option Hdr := none
  batchSeq : Nat := 0
  offset : Nat := 4096
  tmplAt : Option Nat := none
  tokensAt : Nat := 0
deriving DecidableEq, Repr

/-- A sample or trace record waiting in a device ring: its 256 bytes (Table 10.4). -/
structure SmpRec where
  bytes : List Byte
deriving DecidableEq, Repr

/-- A Swatch capture (R244, R245): its number, instant and what it captured (counter values by section are taken into the record when the instant is reached). -/
structure Capture where
  seq : Nat
  time : Nat
  mask : Nat := 1
  /-- register counters: offset and value -/
  regs : List (Nat × Nat) := []
  /-- the monotonic instant at which the capture is complete and its DMA begins -/
  doneAt : Nat := 0
  /-- 64-bit counters: buffer offset and value -/
  vals : List (Nat × Nat) := []
deriving DecidableEq, Repr

/-- The base of a TAC's meter records (R250): the counter values and TOD of the last confirmed record, the record offered and not yet confirmed, and whether the next one carries MERGED or RESTART. -/
structure MeterBase where
  vals : List Nat := [0, 0, 0, 0, 0, 0, 0]
  start : Nat := 0
  merged : Bool := false
  restart : Bool := true
deriving DecidableEq, Repr

/-- One entry of a VF's permission table (R242). -/
structure VfPerm where
  en : Bool := false
  first : Nat := 0
  count : Nat := 0
deriving DecidableEq, Repr

end Sys2Proof.Machine
end

