-- ==== Sys2Proof/Machine/PartsHost.lean ====
section
/-! DEFINITION. The parts of the state behind the host interface (Chapters 11 and 12): the register file, rings, command records and locks, the BMC target, and what the device sends to the outside. -/

namespace Sys2Proof.Machine

/-- A reply (Table 12.3). -/
structure Reply where
  tag : Nat
  status : Nat
  opcode : Nat
  serial : Nat
  permille : Nat
  rdata : List Byte
  errOffset : Nat
  master : Nat
  cursor : Nat
  execTs : Nat
  detail : Nat
deriving DecidableEq, Repr

/-- What leaves the device.  The model's own record of outputs (log 7), newest first in `State.out`. -/
inductive Out where
  /-- a reply to a master (kind, sub) -/
  | reply (kind sub : Nat) (r : Reply)
  /-- bytes written to host memory by DMA -/
  | dma (addr : Nat) (bytes : List Byte)
  /-- a Swatch snapshot (R246) written to a buffer: its section mask, its header, its register pairs, and its nonzero 64-bit values by buffer offset; every other place of the selected sections is written zero -/
  | snapshot (buf mask : Nat) (header : List Byte) (regs vals : List (Nat × Nat))
  /-- an MSI-X message -/
  | msix (vector : Nat)
  /-- a data frame transmitted by a port, with FCS good or inverted -/
  | frame (port : Nat) (bytes : List Byte) (good : Bool)
  /-- a MAC control frame (R49), without its FCS -/
  | pause (port : Nat) (bytes : List Byte)
  /-- a Clause 73 base page (R42) -/
  | basePage (port : Nat) (page : BasePage)
  /-- what a port's transmitter sends from now on: 0 frames, 1 idle, 2 remote fault, 3 nothing (R44) -/
  | signal (port what : Nat)
  /-- an export or reply frame formed at a port's MAC (R221, R289) -/
  | exportFrame (port : Nat) (bytes : List Byte)
  /-- a control block or frame on a Stretcher port -/
  | stretcher (port kind : Nat) (bytes : List Byte)
  /-- a frame sent by the engines (heartbeats on backup ports, R332) -/
  | engineFrame (port : Nat) (bytes : List Byte)
  /-- a store of an engine to the engine bus (R294) -/
  | bus (eng addr value : Nat)
  /-- a line of the console (R298, R398; its text is not given): 0 the boot stage entered, 1 the fault collector's event -/
  | console (kind value : Nat)
  /-- a level on a pin: 0 FAULT_N, 1 THERMTRIP_N, 2 TOD_1PPS_OUT (level 1: its pulse of 1 ms), 3 AVSBus request in mV, 4 PWR_ALERT_N -/
  | pin (which level : Nat)
  /-- bytes answered to the BMC -/
  | bmc (code : Nat) (bytes : List Byte)
  /-- a code or address the BMC target did not acknowledge -/
  | bmcNack (code : Nat)
  /-- bits shifted out of the TAP: length and value -/
  | jtag (len value : Nat)
  /-- a register or counter value returned to a reader (who: 0 PF, 1 BMC, 2 + VF) -/
  | readData (who : Nat) (bytes : List Byte)
deriving DecidableEq, Repr

/-- The register file: written words, hidden marks of SC registers (R259), shadows of wide values (R263), held low words (R265), KEEP bits changed since the last reset, whose test functions may be enabled (R260). -/
structure RegFile where
  words : Tab RegKey W32 := []
  marks : List RegKey := []
  shadow : Tab Nat W32 := []
  held : Tab Nat W32 := []
  touched : Tab RegKey W32 := []
deriving DecidableEq, Repr

/-- An object of a command (R282). -/
inductive Obj where
  | table (id : Nat)
  | group (id : Nat)
  | policy (id : Nat)
  | staged
  | policer (dir pipe index : Nat)
  | node (kind index : Nat)
  | mac (id : Nat)
  | target (id : Nat)
  | swatch (seq : Nat)
  | opGroup (id : Nat)
deriving DecidableEq, Repr

/-- An outstanding command (R276, R278, R281, R282): its packet's header, its objects, whether it has been dispatched and to which engine, whether it still holds its objects, its progress (PERMILLE, that of the last interim reply, CURSOR), and the path its reply takes (RBUF_ADDR of the ring entry; the in-band frame's bytes up to its payload and its NONCE). -/
structure OutCmd where
  serial : Nat
  kind : Nat
  sub : Nat
  tag : Nat
  opcode : Nat
  idem : Bool
  ackReq : Bool
  prog : Bool
  priority : Nat
  objs : List Obj
  dispatched : Bool := false
  engine : Nat := 0
  holds : Bool := true
  permille : Nat := 0
  lastPermille : Nat := 0
  cursor : Nat := 0
  lastInterim : Nat := 0
  muted : Bool := false
  rbuf : Nat := 0
  frame : List Byte := []
  nonce : Nat := 0
deriving DecidableEq, Repr

/-- A lock of a class beside LOCK_STAT (R285): the SERIAL that took it and the monotonic instant at which its lease ends. -/
structure LockRt where
  serial : Nat
  expiry : Nat
deriving DecidableEq, Repr

/-- Coalescing of a ring (R267): completions since its last message and the instant of the first of them. -/
structure Coal where
  count : Nat := 0
  first : Nat := 0
deriving DecidableEq, Repr

/-- A command ring beside its registers (R286, R287): the PHASE of this lap, final replies waiting for room with their RBUF_ADDR and the number of their record, and coalescing. -/
structure CmdRing where
  phase : Bool := true
  waiting : List (Reply × Nat × Nat) := []
  coal : Coal := {}
deriving DecidableEq, Repr

/-- A frame staged or reserved on a packet ring (R268, R271): the copy being delivered with its descriptors. -/
structure PktRing where
  coal : Coal := {}
  /-- what the device's reads of the slots from HEAD up to TAIL return: each slot's 32-byte descriptor, on a transmit ring followed by its buffer's bytes (log 27) -/
  posted : List (List Byte) := []
  /-- receive: (copy, descriptors reserved) in selection order -/
  reserved : List (Nat × Nat) := []
  /-- receive: descriptors of the first reserved copy already written -/
  written : Nat := 0
  /-- transmit: a staged frame that waits for room in the FIFO -/
  staged : Option (List Byte × Nat) := none
deriving DecidableEq, Repr

/-- The sequencer's and interpreters' records (Chapter 12), and in-band replies that are formed and not yet sent (port, frame, SERIAL of the command that the reply ends or 0). -/
structure CmdState where
  outstanding : List OutCmd := []
  locks : Tab Nat LockRt := []
  rings : Tab Nat CmdRing := []
  ibDue : List (Nat × List Byte × Nat) := []
deriving DecidableEq, Repr

/-- The BMC target (R272): the register address set, the SERIAL of the last packet of code 0x40, the reply kept for code 0x41, the I3C dynamic address. -/
structure BmcState where
  addr : Nat := 0
  last : Option Nat := none
  reply : Option Reply := none
  i3c : Option Nat := none
deriving DecidableEq, Repr

/-- Host-side state beside the rings' registers (Chapter 11). -/
structure HostState where
  pkt : Tab Nat PktRing := []
  /-- the head copy of each CPU queue, the time it has lacked descriptors, and since when it lacks them now (R269) -/
  hold : Tab Nat (Nat × Nat × Option Nat) := []
  mboxFrom : Option Nat := none
  uart : List Byte := []
  /-- per-domain instant of the last register access that keeps it awake (R262) -/
  awake : Tab Nat Nat := []
  /-- domains asleep -/
  asleep : List Nat := []
  /-- transmit ring served last (R271) -/
  txRr : Nat := 0
  /-- whether MSI-X is enabled (R256; log 9) -/
  msix : Bool := false
  /-- whether the device may issue DMA (R256; log 9) -/
  dma : Bool := false
  /-- power state D3hot, else D0 (Table 11.1) -/
  d3hot : Bool := false
  bmc : BmcState := {}
deriving DecidableEq, Repr

end Sys2Proof.Machine
end

