-- ==== Sys2Proof/Machine/PartsSys.lean ====
section
/-! DEFINITION. The parts of the state behind the engines, the Stretcher, the twin and chain, power, faults and boot (Chapters 13 to 18).  Plain data throughout. -/

namespace Sys2Proof.Machine

/-! ### Atelier engines (Chapter 13) -/

/-- The trap frame (Table 13.7). -/
structure TrapFrame where
  x28 : Nat := 0
  x29 : Nat := 0
  x30 : Nat := 0
  x31 : Nat := 0
  vector : Nat := 0
  sp : Nat := 0
  next : Nat := 0
  ended : Nat := 0
  flags : Nat := 0
deriving DecidableEq, Repr

/-- An engine beside its registers (R293): control store, X1 to X31, flags, micro-PC, micro-stack (8 entries) and SP, trap frame, scratch SRAM (canonical, see Ops), work queue, a pending DRAIN, the monotonic instant of the last watchdog acknowledgement, whether it is in WAIT, and whether a periodic slice is running. -/
structure Engine where
  store : Tab Nat Nat := []
  x : Tab Nat Nat := []
  flags : Nat := 0
  upc : Nat := 0
  sp : Nat := 0
  stack : List Nat := [0, 0, 0, 0, 0, 0, 0, 0]
  frame : TrapFrame := {}
  scratch : List (Nat × Byte) := []
  work : List Nat := []
  drain : Bool := false
  ackAt : Nat := 0
  waiting : Bool := false
  slice : Bool := false
  /-- the failed engine whose tasks this one serves or is to serve (R301), and since when the tasks may begin -/
  standFor : Option Nat := none
  migrateAt : Option Nat := none
  /-- an ENG_RETURN whose self-test runs (R302), with the instant of its start -/
  testing : Option (Hdr × Nat) := none
deriving DecidableEq, Repr

/-- A hitless update in progress (R306 to R308): the engines of each half in order, how many halves are done, the command, and whether it is rolling back and for which failed engine. -/
structure FwUpdate where
  halves : List (List Nat)
  done : Nat
  cmd : Hdr
  rollback : Option Nat
  /-- the engine that stands in for a group of one engine, and its own role (R306) -/
  standIn : Option (Nat × Nat) := none
  /-- the half in progress when an engine failed has ended: the rollback runs (R308) -/
  stopped : Bool := false
deriving DecidableEq, Repr

/-- Images (R303 to R305): the running one, the staged one, both flash copies, and an update in progress. -/
structure FwState where
  running : Option Gesso := none
  staged : Option Gesso := none
  flash0 : Option Gesso := none
  flash1 : Option Gesso := none
  update : Option FwUpdate := none
deriving DecidableEq, Repr

/-! ### The Stretcher (Chapter 14) -/

/-- A lane of a Stretcher port beside its registers: the last 16 codewords (true bad), newest first, the last 32 link words it received (24 bits each), newest first, and when it reached ADAPTED. -/
structure StlLane where
  cws : List Bool := []
  links : List Nat := []
  adaptedAt : Option Nat := none
deriving DecidableEq, Repr

/-- A Stretcher port beside its registers: when it was last configured, the active logical lanes, when RESIZE began, since when each logical lane has been good at both ends, the frame in reception (its length, class, bytes so far and whether errored), when the last FLOW came and was sent, the number of the next heartbeat and when the last was sent, and the twin or chain fields of the last HB. -/
structure StlPort where
  cfgAt : Option Nat := none
  enabled : Bool := false
  awake : Bool := false
  wakeAt : Option Nat := none
  active : List Nat := []
  resizeAt : Option Nat := none
  goodSince : Tab Nat Nat := []
  rx : Option (Nat × Nat × List Byte) := none
  flowRxAt : Option Nat := none
  flowTxAt : Option Nat := none
  hbSeq : Nat := 0
  hbTxAt : Option Nat := none
  upSince : Option Nat := none
  hbDev : Nat := 0
  timeTx : Nat := 0
  timeRx : Nat := 0
  timeRxAt : Option Nat := none
  hbAt : Option Nat := none
  annAt : Option Nat := none
  timeAt : Option Nat := none
deriving DecidableEq, Repr

/-- The Stretcher as a whole: ports, lanes by (port, lane), and the reference of STL_REFO's driver. -/
structure StlState where
  ports : Tab Nat StlPort := []
  lanes : Tab (Nat × Nat) StlLane := []
  refPresent : Bool := true
  /-- SERIAL of the STL_PORT_CFG whose REFO_EN stands (R324) -/
  refoSerial : Nat := 0
deriving DecidableEq, Repr

/-! ### Twin and chain (Chapter 15) -/

/-- The AON copy of the twin configuration (R334): TWIN_CFG_STAT, TWIN_BKP and the words of TWIN_DH. -/
structure TwinCopy where
  cfg : W32
  bkp : W32
  dh : List W32
deriving DecidableEq, Repr

/-- The twin beside its registers: when the present state began, when the twin link was lost or last up, consecutive periods without HB and whether one came in this period, when a backup frame was last accepted, sequence numbers of the backup frames sent, the peer's configured role, TOD of the last PEER_LOST, whether the roles conflict, and the AON copy. -/
structure TwinState where
  since : Nat := 0
  lostAt : Option Nat := none
  downSince : Option Nat := none
  miss : Nat := 0
  heard : Bool := false
  bkpAt : Option Nat := none
  bkpSeq : Tab Nat Nat := []
  lostTod : Nat := 0
  conflict : Bool := false
  flushTables : List Nat := []
  aon : Option TwinCopy := none
  /-- the end of the last 10 µs period, and the timer values of the present state (TWIN_CFG's new ones wait for the next start) -/
  periodAt : Nat := 0
  tHold : Nat := 1000
  tWarm : Nat := 2000
  peerDev : Nat := 0
  bkpTxAt : Tab Nat Nat := []
  /-- Tables whose peer flush carries the bonded mask 0b0011 -/
  bonded : Bool := false
deriving DecidableEq, Repr

/-- A chain member as its ANNOUNCE frames show it (R340): its budget in ns, its neighbours west and east, when it was last heard on each port, hops from this device on each port, and its time flags. -/
structure Member where
  dev : Nat
  budget : Nat
  west : Nat
  east : Nat
  heardW : Option Nat
  heardE : Option Nat
  hopsW : Nat
  hopsE : Nat
  extSrc : Bool
deriving DecidableEq, Repr

/-- A forwarded command that waits for its reply (R280, R345): the master it came from and its TAG, the target, the opcode and when it was sent. -/
structure Forwarded where
  kind : Nat
  sub : Nat
  tag : Nat
  target : Nat
  opcode : Nat
  since : Nat
  ackReq : Bool
  /-- a number that no local command has, for its reply's path; the port it left by -/
  key : Nat
  port : Nat
  /-- the path of the answer: RBUF_ADDR, the in-band frame and its NONCE -/
  rbuf : Nat
  frame : List Byte
  nonce : Nat
deriving DecidableEq, Repr

/-- A chain-wide search or walk in progress (R347, R348): the command and its parameters, the membership generation it runs under, the member being asked with the place in it that is asked from, whether its GEN is first asked for, the records so far, the members that have given any, and the cursor behind the last record as (member, GEN, REGION, POSITION). -/
structure Wide where
  cmd : Hdr
  search : Option TblKey
  next : Option TblNext
  mgen : Nat
  dev : Nat
  gen : Nat
  region : Nat
  pos : Nat
  probing : Bool := false
  recs : List (List Byte) := []
  holders : Nat := 0
  mark : Nat × Nat × Nat × Nat
deriving DecidableEq, Repr

/-- The chain beside its registers: the other members, the frames waiting in the transit buffer behind each receiving port, the frames formed here that a far end's XOFF holds back (port, KIND, bytes), the forwarded commands and how many have been sent, the chain-wide searches of this device, the refused devices, and when this device became a member. -/
structure ChainState where
  members : List Member := []
  transit : Tab Nat (List (List Byte)) := []
  held : List (Nat × Nat × List Byte) := []
  forwarded : List Forwarded := []
  sent : Nat := 0
  wides : List Wide := []
  refused : List Nat := []
  joinedAt : Nat := 0
  /-- when this device's own ANNOUNCE last returned on its other port -/
  ownSeen : Option Nat := none
deriving DecidableEq, Repr

/-! ### Power (Chapter 16) -/

/-- The power manager beside its registers (R350 to R370): settings still to apply at the next pass, the last 16 estimates (newest first), passes since the last tightening, instants of dwell conditions on the monotonic count, whether the AON backstop holds, sensors' last two readings above the trip point, regions held, the droop window, a tighten request, the clock the regulator is to confirm, and energy fractions. -/
structure PwrState where
  mode : Option Nat := none
  cap : Option Nat := none
  thresh : Option (Nat × Nat × Nat × Nat) := none
  last : List Nat := []
  sinceTight : Nat := 16
  lowSince : Option Nat := none
  changedAt : Nat := 0
  unmetSince : Option Nat := none
  metSince : Option Nat := none
  passAt : Nat := 0
  stalled : Bool := false
  belowNs : Nat := 0
  unmetNs : Nat := 0
  /-- sensors at 115 °C or more at the last sample (R364) -/
  tooHot : List Nat := []
  /-- whether the sensors have been checked since reset, and whether a whole region was invalid (R360) -/
  checked : Bool := false
  heldRegion : Bool := false
  /-- instants of stretched cycles within the last ms, and a burst to answer (R365) -/
  droops : List Nat := []
  droopTight : Bool := false
  /-- whether boost has been permitted since reset (R358), and the clock that waits for its voltage (R352) -/
  boosted : Bool := false
  wantMhz : Option Nat := none
  staticFj : Nat := 0
  ageWarned : Bool := false
deriving DecidableEq, Repr

/-! ### Faults, reset and boot (Chapters 17 and 18) -/

/-- A return of a unit in progress (R379): kind 0 pipeline (index 32 · DIR + pipeline), 1 bank, 2 macro. -/
structure Returning where
  kind : Nat
  index : Nat
  cmd : Hdr
  since : Nat
  /-- the memory test has passed and the copy back of scoped rows is under way -/
  tested : Bool := false
deriving DecidableEq, Repr

/-- The fault collector beside its registers (R372 to R391): frozen by Varnish with the trigger kind (0 pin, 1 armed event, 2 class match, 3 none), event and TOD at trigger; tripped under R364; returns in progress; bank errors of the last second (bank, monotonic ns); quarantines decided and not yet applied (32 · direction + pipeline); quarantined pipelines whose TCAM copy is still to complete; and the clusters in which the next table lookup misses (code 0x02 of Table 17.3). -/
structure FltState where
  frozen : Bool := false
  trigger : Nat := 3
  trigEvent : Nat := 0
  trigTod : Nat := 0
  tripped : Bool := false
  returns : List Returning := []
  bankErrs : List (Nat × Nat) := []
  quarantining : List Nat := []
  copying : List Nat := []
  missNext : List Nat := []
deriving DecidableEq, Repr

/-- One fuse log entry (Table 18.7). -/
structure FuseEntry where
  tod : Nat
  fuse : Nat
  signer : Nat
  value : Nat
deriving DecidableEq, Repr

/-- A FUSE_PROGRAM in progress (R405): fuse, value, key, signer and the command. -/
structure FuseOp where
  fuse : Nat
  value : Nat
  key : Nat
  signer : Nat
  cmd : Hdr
  since : Nat
deriving DecidableEq, Repr

/-- The fuses (Table 18.6) and their log.  `slots` holds each owner slot as (state 0 empty, 1 enrolled, 2 revoked; key hash). -/
structure FuseState where
  ceiling : Nat := 1400
  ceilingUsed : Nat := 0
  licence : Nat := 3
  licenceUsed : Nat := 0
  gradeS : Bool := false
  slots : List (Nat × Nat) := [(0, 0), (0, 0), (0, 0), (0, 0)]
  ibKey : Nat := 0
  keyGen : Nat := 0
  log : List FuseEntry := []
  op : Option FuseOp := none
deriving DecidableEq, Repr

/-- Reset and boot beside their registers: AON power is off (R376), a warm reset is asked for (R396), the staged image is the one to load at the next warm reset (R305); and the TAP: its instruction, the memory selected with its next word (Table 17.9). -/
structure BootState where
  off : Bool := false
  warmPending : Bool := false
  nextImage : Bool := false
  ir : Nat := 0xFF
  memCode : Nat := 0
  memWord : Nat := 0
deriving DecidableEq, Repr

end Sys2Proof.Machine
end

