-- ==== Sys2Proof/Machine/State.lean ====
section
/-! DEFINITION. The state of the TS1536 as a block: every register, buffer, queue, table, counter, timer and mode the spec gives it, and the queue of commands that wait.  Plain data throughout.  Every register of the register map has one home, `regs`, and reads its reset word until it is written (Machine/Ops.lean). -/

namespace Sys2Proof.Machine

/-- The clocks' counts: `mono` is the monotonic ns count of R404, `tod` the TOD counter of R403, `aonTod` and `aonMono` the AON backup (its value and the monotonic instant of its setting), `resetAt` the instant of core release, `bootEnd` the TOD of the end of boot. -/
structure Clock where
  mono : Nat := 0
  tod : Nat := 0
  aonTod : Nat := 0
  aonMono : Nat := 0
  resetAt : Nat := 0
  bootEnd : Nat := 0
  /-- the monotonic instant of the last step of TOD (R404) -/
  stepAt : Option Nat := none
deriving DecidableEq, Repr

/-- Sources, macros, drivers and ports (Chapters 1 and 2).  `srcOld` holds, for a source 0 to 4 (SL0 to SL3, host path) whose attachment is moving, the pipeline it is moving from (R17), `srcHeld` the frames of the source that wait for the drain marker.  Drivers are keyed by (macro 0 to 95, lane), (96 + Stretcher port, lane) and (100, 0) for STL_REFO. -/
structure PortState where
  srcOld : Tab Nat Nat := []
  /-- the pipeline each moving source is moving to -/
  srcTo : Tab Nat Nat := []
  srcHeld : Tab Nat (List FifoEnt) := []
  /-- for a moving source whose marker has entered the old pipeline, the packets that were ahead of it there -/
  srcAhead : Tab Nat (List Nat) := []
  macs : Tab Nat MacroRt := []
  lanes : Tab (Nat × Nat) LaneRt := []
  ports : Tab Nat PortRt := []
deriving DecidableEq, Repr

/-- The pipeline image in force, the parser configuration of each epoch, the table contents, multicast lists, learning and the staged version (Chapters 3 to 5, R167).  `winAt` is the number of the last update window in units of 40 ns of TOD, `winUsed` the engines' entry writes that no window has yet had room for (R89), `ageDel` the conditional deletes that aging has asked for, each with the entry as the engine read it (R101). -/
structure TableState where
  winAt : Option Nat := none
  winUsed : Nat := 0
  ageDel : List (Nat × ExEnt) := []
  image : Option Image := none
  cfgOf : Tab Nat ParseCfg := []
  ex : Tab Nat ExTab := []
  lpm : Tab Nat LpmTab := []
  learnFifo : List Learn := []
  learnEng : List Learn := []
  mc : Tab Nat (List Nat) := []
  tcam : List TcamEnt := []
  undo : List Undo := []
  drainSince : Tab Nat Nat := []
  stageCmd : Option Hdr := none
  rewriteDone : Bool := true
  commitCmd : Option Hdr := none
  residualKey : List (Nat × Nat) := []
  throttleClock : Nat := 0
  scopeMoves : List (Nat × Nat) := []
deriving DecidableEq, Repr

/-- FIFOs, pipelines and the Palette (Chapter 7).  `admPtr` is P*i* of R168 for the write allocator, `resPtr` for the admission unit; `queuePool` holds, for each queue, the service pool that its lossy cells above the reserve are charged to and how many they are (Table 7.6).  `handed` holds the control frames that action resolve has handed to the engines (R65), by source, oldest first, until the engines' own rows take them. -/
structure PaletteState where
  handed : List (Nat × List Byte) := []
  nextId : Nat := 0
  selSeq : Nat := 0
  fifo : Tab Nat (List FifoEnt) := []
  inPipe : Tab Nat (List Pkt) := []
  smpCount : Tab Nat Nat := []
  traceCount : Tab Nat Nat := []
  pkts : List Pkt := []
  copies : List Copy := []
  writeQ : Tab Nat (List Nat) := []
  bankUsed : Tab Nat (List Nat) := []
  bankDrain : List Nat := []
  bankOut : List Nat := []
  wptr : Nat := 0
  admPtr : Nat := 0
  resPtr : Nat := 0
  queuePool : Tab Node (Nat × Nat) := []
  grant : Tab Nat Nat := []
  readers : Tab Nat Reader := []
  flight : List (List Grant) := []
  waking : Tab Nat Nat := []
  lastUse : Tab Nat Nat := []
deriving DecidableEq, Repr

/-- Queues, nodes, the timing wheel and policers (Chapter 8). -/
structure SchedState where
  queues : Tab Node (List Nat) := []
  nodes : Tab Node NodeRt := []
  wheel : List WheelEnt := []
  policers : Tab (Nat × Nat × Nat) Policer := []
  /-- for each reader, the port that was last given a decision (R193) -/
  lastPort : Tab Nat Nat := []
deriving DecidableEq, Repr

/-- Telemetry, counters, sampling, Swatch and metering (Chapters 9 and 10).  64-bit counters of the counter space are held by (family, unit, slot); energy fractions in units of the coefficients. -/
structure TeleState where
  flows : Tab Nat (List FlowEnt) := []
  /-- the flushes that run -/
  flushes : List FlowFlush := []
  targets : Tab Nat Target := []
  pcTokens : Tab Nat (Nat × Nat) := []
  ctr : Tab (Nat × Nat × Nat) Nat := []
  energyFrac : Tab Nat Nat := []
  winStart : Tab Nat (Nat × Nat × Nat) := []
  devRing : Tab Nat (List SmpRec) := []
  scanAt : Nat := 0
  /-- captures that SWATCH_TAKE has asked for, in the order of the commands (R245) -/
  asked : List Capture := []
  writing : Option Capture := none
  swatchK : Nat := 0
  swatchNext : Nat := 0
  heldA : Nat := 0
  heldB : Nat := 0
  meter : Tab Nat MeterBase := []
  offers : List MeterRec := []
  periodUs : Nat := 10
  vf : Tab (Nat × Nat) VfPerm := []
deriving DecidableEq, Repr

/-- The state of the block. -/
structure State where
  rf : RegFile := {}
  clk : Clock := {}
  port : PortState := {}
  tbl : TableState := {}
  pal : PaletteState := {}
  sched : SchedState := {}
  tele : TeleState := {}
  cmd : CmdState := {}
  host : HostState := {}
  eng : Tab Nat Engine := []
  fw : FwState := {}
  stl : StlState := {}
  twin : TwinState := {}
  chain : ChainState := {}
  pwr : PwrState := {}
  flt : FltState := {}
  fuse : FuseState := {}
  boot : BootState := {}
  /-- the model's own: how many free values have been drawn (log 2) -/
  free : Nat := 0
  /-- the model's own: what has left the device, newest first (log 7) -/
  out : List Out := []
  /-- the commands that wait, first in, first out -/
  pending : List Instr := []
deriving DecidableEq, Repr

/-- Faults of the model: an access to a unit the spec gives the device no such number of. -/
inductive Fault where
  /-- Raised by a meaning whose operand names a macro, lane, port, pipeline, engine, bank, ring, table, epoch, class or node that the device does not have.  Safe: the spec gives no such unit (WellFormed refuses such a command). -/
  | noSuchUnit (what : String) (number : Nat)
deriving DecidableEq, Repr

/-- Refusals of the model. -/
inductive Refusal where
  /-- Raised by the dispatch alone, for a command without a meaning yet.  Safe. -/
  | notModelled (mnemonic : String)
deriving DecidableEq, Repr

/-- The machine right after a power-on reset begins (R395, Table 18.2): every register at its reset word, TOD 0, nothing listed in any table, queue or memory, no image loaded, no command waiting. -/
def State.reset : State := {}

end Sys2Proof.Machine
end

