-- ==== Sys2Proof/Machine/Tab.lean ====
section
/-! DEFINITION. Sparse tables, bit fields and byte orders: the shared plain operations on data that every meaning uses. -/

namespace Sys2Proof.Machine

/-- The value listed at a key, none when nothing is listed. -/
def tget {κ α : Type} [DecidableEq κ] : List (κ × α) → κ → Option α
  | [], _ => none
  | (k', v) :: t, k => if k' = k then some v else tget t k

/-- The table without a key. -/
def terase {κ α : Type} [DecidableEq κ] : List (κ × α) → κ → List (κ × α)
  | [], _ => []
  | (k', v) :: t, k => if k' = k then terase t k else (k', v) :: terase t k

/-- The table with a value at a key. -/
def tset {κ α : Type} [DecidableEq κ] (t : List (κ × α)) (k : κ) (v : α) : List (κ × α) :=
  (k, v) :: terase t k

/-- The value at a key, a default when nothing is listed. -/
def tgetD {κ α : Type} [DecidableEq κ] (t : List (κ × α)) (k : κ) (d : α) : α := (tget t k).getD d

/-- Change the value at a key, from a default when nothing is listed. -/
def tmod {κ α : Type} [DecidableEq κ] (t : List (κ × α)) (k : κ) (d : α) (f : α → α) : List (κ × α) :=
  tset t k (f (tgetD t k d))

/-- Bits [lo + w − 1 : lo] of a number. -/
def bits (n lo w : Nat) : Nat := n / 2 ^ lo % 2 ^ w

/-- One bit of a number. -/
def bit (n k : Nat) : Bool := n / 2 ^ k % 2 == 1

/-- A number with bits [lo + w − 1 : lo] replaced. -/
def putBits (n lo w v : Nat) : Nat := n - bits n lo w * 2 ^ lo + v % 2 ^ w * 2 ^ lo

/-- A number with one bit set or cleared. -/
def putBit (n k : Nat) (b : Bool) : Nat := putBits n k 1 b.toNat

/-- 1 for true. -/
def b2n (b : Bool) : Nat := if b then 1 else 0

/-- The `n` lowest bytes of a number, least significant first. -/
def leBytes : Nat → Nat → List Byte
  | 0, _ => []
  | n + 1, v => BitVec.ofNat 8 v :: leBytes n (v / 256)

/-- The number that bytes spell, least significant first. -/
def leNum : List Byte → Nat
  | [] => 0
  | b :: bs => b.toNat + 256 * leNum bs

/-- The `n` lowest bytes of a number, most significant first (network order). -/
def beBytes (n v : Nat) : List Byte := (leBytes n v).reverse

/-- The number that bytes spell, most significant first. -/
def beNum (bs : List Byte) : Nat := bs.foldl (fun a b => a * 256 + b.toNat) 0

/-- Bytes [off, off + n) of a byte string. -/
def slice (bs : List Byte) (off n : Nat) : List Byte := (bs.drop off).take n

/-- The big-endian number in bytes [off, off + n). -/
def beAt (bs : List Byte) (off n : Nat) : Nat := beNum (slice bs off n)

/-- The little-endian number in bytes [off, off + n). -/
def leAt (bs : List Byte) (off n : Nat) : Nat := leNum (slice bs off n)

/-- Zero bytes. -/
def zeros (n : Nat) : List Byte := List.replicate n 0

/-- Bytes with those from `off` replaced (and grown with zeros where they are too short). -/
def patch (bs : List Byte) (off : Nat) (new : List Byte) : List Byte :=
  let bs' := bs ++ zeros (off + new.length - bs.length)
  bs'.take off ++ new ++ bs'.drop (off + new.length)

/-- A two's-complement number of `w` bits. -/
def signed (w n : Nat) : Int := if n % 2 ^ w < 2 ^ (w - 1) then (n % 2 ^ w : Nat) else (n % 2 ^ w : Nat) - (2 ^ w : Nat)

/-- The `w`-bit two's-complement pattern of an integer. -/
def unsignedOf (w : Nat) (i : Int) : Nat := (i % (2 ^ w : Nat)).toNat

/-- Ceiling division. -/
def cdiv (a b : Nat) : Nat := (a + b - 1) / b

/-- The insertion of an element into a list that stays sorted by a key. -/
def insertBy {α : Type} (f : α → Nat) (x : α) : List α → List α
  | [] => [x]
  | y :: ys => if f x < f y then x :: y :: ys else y :: insertBy f x ys

/-- A list sorted by a key, equal keys in their first order. -/
def sortBy {α : Type} (f : α → Nat) (l : List α) : List α := l.foldr (fun x acc => insertLe f x acc) []
where
  /-- insertion before equal keys, so that `foldr` keeps their order -/
  insertLe (f : α → Nat) (x : α) : List α → List α
    | [] => [x]
    | y :: ys => if f x ≤ f y then x :: y :: ys else y :: insertLe f x ys

/-- The first index of [0, n) that a test accepts. -/
def firstIx (n : Nat) (p : Nat → Bool) : Option Nat := (List.range n).find? p

/-- How many indexes of [0, n) a test accepts. -/
def countIx (n : Nat) (p : Nat → Bool) : Nat := ((List.range n).filter p).length

/-- The element of a list with the least key, the first of equal ones. -/
def leastBy {α : Type} (f : α → Nat) : List α → Option α
  | [] => none
  | x :: xs => match leastBy f xs with
    | none => some x
    | some y => if f x ≤ f y then some x else some y

/-- Drop the elements at which a test holds. -/
def without {α : Type} (l : List α) (p : α → Bool) : List α := l.filter (fun x => !p x)

/-- A list with the element at an index replaced. -/
def listSet {α : Type} : List α → Nat → α → List α
  | [], _, _ => []
  | _ :: xs, 0, v => v :: xs
  | x :: xs, n + 1, v => x :: listSet xs n v

/-- One bit of a CRC over most-significant-first data: register of `w` bits, polynomial `poly`. -/
def crcBit (w poly : Nat) (reg : Nat) (b : Bool) : Nat :=
  let top := bit reg (w - 1) != b
  let r := reg * 2 % 2 ^ w
  if top then Nat.xor r poly else r

/-- A CRC over a byte, most significant bit first. -/
def crcByteMsb (w poly reg : Nat) (b : Byte) : Nat :=
  [7, 6, 5, 4, 3, 2, 1, 0].foldl (fun r k => crcBit w poly r (bit b.toNat k)) reg

/-- A CRC over bytes, most significant bit first, from an initial register. -/
def crcMsb (w poly start : Nat) (bs : List Byte) : Nat := bs.foldl (crcByteMsb w poly) start

/-- One byte of a reflected CRC (register of up to 32 bits, reflected polynomial). -/
def crcByteLsb (poly reg : Nat) (b : Byte) : Nat :=
  [0, 1, 2, 3, 4, 5, 6, 7].foldl
    (fun r _ => if r % 2 == 1 then Nat.xor (r / 2) poly else r / 2) (Nat.xor reg b.toNat)

/-- A reflected CRC over bytes, from an initial register. -/
def crcLsb (poly start : Nat) (bs : List Byte) : Nat := bs.foldl (crcByteLsb poly) start

/-- The Internet checksum's 16-bit sum over big-endian pairs, a last odd byte padded with zero. -/
def onesSum : List Byte → Nat → Nat
  | [], acc => acc
  | [a], acc => fold (acc + a.toNat * 256)
  | a :: b :: bs, acc => onesSum bs (fold (acc + a.toNat * 256 + b.toNat))
where
  /-- the end-around carry -/
  fold (n : Nat) : Nat := n % 65536 + n / 65536

end Sys2Proof.Machine
end

