-- ==== Sys2Proof/Machine/Ops.lean ====
section
/-! DEFINITION. The named operations over the state that every meaning is written with: registers and their fields, the clock, free values, outputs, scratch memory, and the wrappers that say in which conditions of the device a command acts at all. -/

namespace Sys2Proof.Machine

/-- What a step answers. -/
abbrev Res := Host.Outcome State Fault Refusal

/-! ### Registers -/

/-- One word of a value given over all the words of a register: word `j` of a wide value; of a register of one word the value itself, whatever its second number counts. -/
def wordOf (n : RegName) (v j : Nat) : W32 := BitVec.ofNat 32 (if (regRow n).words = 1 then v else v / 2 ^ (32 * j))

/-- The word a register holds at reset: the spec's reset value, or the fuse or configuration value the register map names (log 4). -/
def resetWord (k : RegKey) : W32 :=
  match k.n with
  | .PIPE_STAT => BitVec.ofNat 32 (k.i % 32 * 65536)
  | .PAL_POOL_SIZE => if k.i = 0 then 0x140000 else 0
  | .PAL_POOL_EFF => if k.i = 0 then 0x140000 else 0
  | .PC_DROP_MASK => if k.i = 0 then 0xFFFFFFFE else 0xFFFFFFFF
  | .CPU_QMAP => BitVec.ofNat 32 (k.i % 32)
  | .PWR_CTL => BitVec.ofNat 32 (1400 * 65536 + 1400)
  | .PWR_STAT1 => BitVec.ofNat 32 (1800 * 2 ^ 20 + Config.fuseWord 4 % 1024)
  | .PKT_COEF => BitVec.ofNat 32 (if k.i = 7 then 0 else Config.fuseWord (16 + k.i))
  | .BYTE_COEF => BitVec.ofNat 32 (if k.i = 7 then 0 else Config.fuseWord (24 + k.i) + Config.fuseWord (32 + k.i))
  | n => wordOf n (regRow n).reset k.j

/-- The word a register holds. -/
def reg (s : State) (n : RegName) (i j : Nat) : W32 :=
  tgetD s.rf.words ⟨n, i, j⟩ (resetWord ⟨n, i, j⟩)

/-- Set a register's word. -/
def setReg (n : RegName) (i j : Nat) (v : W32) (s : State) : State :=
  { s with rf := { s.rf with words := tset s.rf.words ⟨n, i, j⟩ v } }

/-- A field of a register. -/
def getF (s : State) (f : Fld) (i j : Nat) : Nat := bits (reg s f.reg i j).toNat f.lo f.w

/-- A one-bit field of a register. -/
def flag (s : State) (f : Fld) (i j : Nat) : Bool := getF s f i j == 1

/-- Set a field of a register. -/
def setF (f : Fld) (i j v : Nat) (s : State) : State :=
  setReg f.reg i j (BitVec.ofNat 32 (putBits (reg s f.reg i j).toNat f.lo f.w v)) s

/-- Advance a 32-bit counter, which wraps modulo 2^32 (R292, R309, R371). -/
def bump (n : RegName) (i j k : Nat) (s : State) : State :=
  setReg n i j (BitVec.ofNat 32 ((reg s n i j).toNat + k)) s

/-- Advance a field that saturates at its greatest value. -/
def bumpSat (f : Fld) (i j k : Nat) (s : State) : State :=
  setF f i j (min (getF s f i j + k) (2 ^ f.w - 1)) s

/-- A wide value of `w` words (R263). -/
def wide (s : State) (n : RegName) (i : Nat) : Nat → Nat
  | 0 => 0
  | w + 1 => wide s n i w + (reg s n i w).toNat * 2 ^ (32 * w)

/-- Set a wide value of `w` words. -/
def setWide (n : RegName) (i v : Nat) : Nat → State → State
  | 0, s => s
  | w + 1, s => setReg n i w (BitVec.ofNat 32 (v / 2 ^ (32 * w))) (setWide n i v w s)

/-- One bit of a bit map spread over words of a register (bit `k` in word k / 32 as unit number). -/
def mapBit (s : State) (n : RegName) (k : Nat) : Bool := bit (reg s n (k / 32) 0).toNat (k % 32)

/-- Set one bit of such a bit map. -/
def setMapBit (n : RegName) (k : Nat) (b : Bool) (s : State) : State :=
  setReg n (k / 32) 0 (BitVec.ofNat 32 (putBit (reg s n (k / 32) 0).toNat (k % 32) b)) s

/-! ### 64-bit counters -/

/-- A 64-bit counter (Tables 10.1 to 10.3, 10.7): family 1 source blocks, 2 subscriber queues, 3 TACs, 4 CPU queues, 5 ingress and 6 egress stage counters. -/
def ctr (s : State) (fam unit slot : Nat) : Nat := tgetD s.tele.ctr (fam, unit, slot) 0

/-- Advance a 64-bit counter. -/
def addCtr (fam unit slot k : Nat) (s : State) : State :=
  { s with tele := { s.tele with ctr := tset s.tele.ctr (fam, unit, slot) ((ctr s fam unit slot + k) % 2 ^ 64) } }

/-! ### Outputs, free values, time -/

/-- Record something that leaves the device (log 7). -/
def emit (o : Out) (s : State) : State := { s with out := o :: s.out }

/-- Count one free value as drawn. -/
def drawn (s : State) : State := { s with free := s.free + 1 }

/-- Whether the device issues DMA: it has since the host last enabled it (R256; log 9). -/
def dmaOn (s : State) : Bool := s.host.dma && !s.host.d3hot

/-- The host's configuration of the function, which comes before its first access: power state D0, DMA and MSI-X enabled (R256; log 9). -/
def attach (s : State) : State := { s with host := { s.host with msix := true, dma := true, d3hot := false } }

/-- The free value of a place at this point of the run (log 2). -/
def freeAt (place : Nat) (s : State) : Nat := Config.freeValue place s.free

/-- Advance the clocks to the instant of a command: the monotonic count never falls, and TOD advances with it while its domain runs (R403, R404). -/
def tick (t : Nat) (s : State) : State :=
  { s with clk := { s.clk with mono := max s.clk.mono t, tod := if s.flt.tripped then s.clk.tod else (s.clk.tod + (max s.clk.mono t - s.clk.mono)) % 2 ^ 64 } }

/-- The AON backup of TOD, in steps of 20 ns (R403). -/
def aonNow (s : State) : Nat := (s.clk.aonTod + (s.clk.mono - s.clk.aonMono) / 20 * 20) % 2 ^ 64

/-! ### Conditions of the device -/

/-- The device is in the safe state (R376, R383). -/
def isSafe (s : State) : Bool := flag s F.FLT_STAT_SAFE 0 0

/-- The clocks of the device run: neither safe state nor thermal trip (R364, R383). -/
def running (s : State) : Bool := !isSafe s && !s.flt.tripped

/-- The boot stage (Table 18.3). -/
def bootStage (s : State) : Nat := getF s F.RST_STAT_BOOT_STAGE 0 0

/-- Nothing in the device changes: Varnish has stopped every clock (R388), or AON power is off (R376). -/
def halted (s : State) : Bool := s.flt.frozen || s.boot.off

/-- A command that acts only while the device's clocks run: under Varnish nothing changes (R388), in the safe state and after a thermal trip only time passes. -/
def live (t : Nat) (f : State → State) (s : State) : Res :=
  if halted s then .next s
  else if running (tick t s) then .next (f (tick t s)) else .next (tick t s)

/-- A command of the always-on island: it acts unless Varnish has stopped every clock (R388). -/
def aon (t : Nat) (f : State → State) (s : State) : Res :=
  if halted s then .next s else .next (f (tick t s))

/-- A command that acts in every condition of the device: JTAG, RST_N, AON power. -/
def always (f : State → State) (s : State) : Res := .next (f s)

/-- Stop by name where an operand names a unit the device does not have. -/
def need (ok : Bool) (what : String) (number : Nat) (k : Res) : Res :=
  if ok then k else .fault (.noSuchUnit what number)

/-! ### Scratch memory (R293): 64 KiB, an unlisted byte reads zero (log 8) -/

/-- The scratch memory's canonical form: addresses strictly rising, no entry equal to zero. -/
def Scratch.wf : List (Nat × Byte) → Bool
  | [] => true
  | [(_, v)] => v != 0
  | (a, v) :: (b, w) :: t => v != 0 && decide (a < b) && Scratch.wf ((b, w) :: t)

/-- Read one byte of scratch. -/
def Scratch.read : List (Nat × Byte) → Nat → Byte
  | [], _ => 0
  | (b, v) :: t, a => if b = a then v else Scratch.read t a

/-- Write one byte of scratch, keeping the canonical form. -/
def Scratch.write : List (Nat × Byte) → Nat → Byte → List (Nat × Byte)
  | [], a, v => if v = 0 then [] else [(a, v)]
  | (b, w) :: t, a, v =>
    if a < b then (if v = 0 then (b, w) :: t else (a, v) :: (b, w) :: t)
    else if a = b then (if v = 0 then t else (a, v) :: t)
    else (b, w) :: Scratch.write t a v

/-- Read `n` bytes of scratch, least significant first. -/
def Scratch.readN (m : List (Nat × Byte)) (a : Nat) : Nat → Nat
  | 0 => 0
  | n + 1 => Scratch.readN m a n + (Scratch.read m (a + n)).toNat * 256 ^ n

/-- Write `n` bytes of scratch, least significant first. -/
def Scratch.writeN (m : List (Nat × Byte)) (a v : Nat) : Nat → List (Nat × Byte)
  | 0 => m
  | n + 1 => Scratch.write (Scratch.writeN m a v n) (a + n) (BitVec.ofNat 8 (v / 256 ^ n))

/-! ### Control frames at the engines (R65) -/

/-- The engines take a handed control frame of a port whose bytes end as given: the oldest such one, where one waits. -/
def takeHanded (port : Nat) (tail : List Byte) (s : State) : State :=
  let fits (x : Nat × List Byte) : Bool := x.1 == port && decide (x.2.drop (x.2.length - tail.length) = tail)
  { s with pal := { s.pal with handed := match s.pal.handed.find? fits with
    | some x => s.pal.handed.erase x
    | none => s.pal.handed } }

/-! ### Small shared notions of units -/

/-- An engine's state beside its registers. -/
def engine (s : State) (e : Nat) : Engine := tgetD s.eng e {}

/-- Set an engine's state. -/
def setEngine (e : Nat) (x : Engine) (s : State) : State := { s with eng := tset s.eng e x }

end Sys2Proof.Machine
end

