-- ==== Sys2Proof/Machine/Flags.lean ====
section
/-! DEFINITION. Events: their IDs and classes (Table 17.2), the SC register each sets (R259), the history queue, the class counts, interrupts, entry to the safe state (R383) and the Varnish freeze (R388). -/

namespace Sys2Proof.Machine

/-- FLT_WIRE_FAULT, class D. -/
def Ev.FLT_WIRE_FAULT : Nat := 0x0100
/-- FLT_MEM_CE, class C. -/
def Ev.FLT_MEM_CE : Nat := 0x0101
/-- FLT_MEM_UE, class D. -/
def Ev.FLT_MEM_UE : Nat := 0x0102
/-- FLT_PIPE_QUARANTINE, class D. -/
def Ev.FLT_PIPE_QUARANTINE : Nat := 0x0103
/-- FLT_PIPE_RETURNED, class N. -/
def Ev.FLT_PIPE_RETURNED : Nat := 0x0104
/-- FLT_BANK_RETIRE, class D. -/
def Ev.FLT_BANK_RETIRE : Nat := 0x0105
/-- FLT_BANK_RETURNED, class N. -/
def Ev.FLT_BANK_RETURNED : Nat := 0x0106
/-- FLT_TILE_LINK_CE, class C. -/
def Ev.FLT_TILE_LINK_CE : Nat := 0x0107
/-- FLT_TILE_LINK_DOWN, class D. -/
def Ev.FLT_TILE_LINK_DOWN : Nat := 0x0108
/-- FLT_MACRO_FAIL, class D. -/
def Ev.FLT_MACRO_FAIL : Nat := 0x0109
/-- FLT_MACRO_RETURNED, class N. -/
def Ev.FLT_MACRO_RETURNED : Nat := 0x010A
/-- FLT_RETURN_FAIL, class D. -/
def Ev.FLT_RETURN_FAIL : Nat := 0x010B
/-- FLT_INJECTED, class N. -/
def Ev.FLT_INJECTED : Nat := 0x010C
/-- FLT_VARNISH_ARMED, class N. -/
def Ev.FLT_VARNISH_ARMED : Nat := 0x010D
/-- FLT_SAFE_STATE, class F. -/
def Ev.FLT_SAFE_STATE : Nat := 0x010E
/-- HIF_TEST_TOUCH, class U. -/
def Ev.HIF_TEST_TOUCH : Nat := 0x0200
/-- HIF_UNMAPPED, class N. -/
def Ev.HIF_UNMAPPED : Nat := 0x0201
/-- HIF_XDOMAIN_FAIL, class D. -/
def Ev.HIF_XDOMAIN_FAIL : Nat := 0x0202
/-- HIF_PARTIAL_WR, class N. -/
def Ev.HIF_PARTIAL_WR : Nat := 0x0203
/-- HIF_RX_RING_EMPTY, class N. -/
def Ev.HIF_RX_RING_EMPTY : Nat := 0x0204
/-- HIF_RX_ABORT, class N. -/
def Ev.HIF_RX_ABORT : Nat := 0x0205
/-- HIF_TX_BAD, class N. -/
def Ev.HIF_TX_BAD : Nat := 0x0206
/-- HIF_UART_ERR, class N. -/
def Ev.HIF_UART_ERR : Nat := 0x0207
/-- HIF_LINK_DEGRADE, class D. -/
def Ev.HIF_LINK_DEGRADE : Nat := 0x0208
/-- CMD_ENG_FAULT_RET, class N. -/
def Ev.CMD_ENG_FAULT_RET : Nat := 0x0300
/-- CMD_REISSUED, class N. -/
def Ev.CMD_REISSUED : Nat := 0x0301
/-- CMD_IB_AUTH_FAIL, class N. -/
def Ev.CMD_IB_AUTH_FAIL : Nat := 0x0302
/-- CMD_IB_REPLAY, class N. -/
def Ev.CMD_IB_REPLAY : Nat := 0x0303
/-- CMD_LOCK_EXPIRED, class N. -/
def Ev.CMD_LOCK_EXPIRED : Nat := 0x0304
/-- PWR_BELOW_BASE, class N. -/
def Ev.PWR_BELOW_BASE : Nat := 0x0400
/-- PWR_CAP_UNMET, class D. -/
def Ev.PWR_CAP_UNMET : Nat := 0x0401
/-- PWR_THERM_CHANGE, class N. -/
def Ev.PWR_THERM_CHANGE : Nat := 0x0402
/-- PWR_T_OVER, class D. -/
def Ev.PWR_T_OVER : Nat := 0x0403
/-- PWR_SENSOR_FAIL, class D. -/
def Ev.PWR_SENSOR_FAIL : Nat := 0x0404
/-- PWR_LOOP_STALL, class D. -/
def Ev.PWR_LOOP_STALL : Nat := 0x0405
/-- PWR_DROOP_BURST, class C. -/
def Ev.PWR_DROOP_BURST : Nat := 0x0406
/-- PWR_AGE_WARN, class D. -/
def Ev.PWR_AGE_WARN : Nat := 0x0407
/-- EPOCH_BUSY_REFUSED, class N. -/
def Ev.EPOCH_BUSY_REFUSED : Nat := 0x0500
/-- EPOCH_COMMITTED, class N. -/
def Ev.EPOCH_COMMITTED : Nat := 0x0501
/-- EPOCH_RECLAIMED, class N. -/
def Ev.EPOCH_RECLAIMED : Nat := 0x0502
/-- EPOCH_EXPIRED, class D. -/
def Ev.EPOCH_EXPIRED : Nat := 0x0503
/-- TCAM_THROTTLE_CHANGE, class N. -/
def Ev.TCAM_THROTTLE_CHANGE : Nat := 0x0600
/-- TCAM_FALSE_HIT, class C. -/
def Ev.TCAM_FALSE_HIT : Nat := 0x0601
/-- TCAM_SCRUB_FIX, class C. -/
def Ev.TCAM_SCRUB_FIX : Nat := 0x0602
/-- TCAM_SHADOW_UE, class U. -/
def Ev.TCAM_SHADOW_UE : Nat := 0x0603
/-- TCAM_VERIFY_DROP, class D. -/
def Ev.TCAM_VERIFY_DROP : Nat := 0x0604
/-- TCAM_SCOPE_HELD, class D. -/
def Ev.TCAM_SCOPE_HELD : Nat := 0x0605
/-- LEARN_FIFO_OVF, class D. -/
def Ev.LEARN_FIFO_OVF : Nat := 0x0700
/-- LEARN_ENG_OVF, class D. -/
def Ev.LEARN_ENG_OVF : Nat := 0x0701
/-- LEARN_TABLE_FULL, class D. -/
def Ev.LEARN_TABLE_FULL : Nat := 0x0702
/-- LEARN_AGE_OVERRUN, class D. -/
def Ev.LEARN_AGE_OVERRUN : Nat := 0x0703
/-- LEARN_BG_DONE, class N. -/
def Ev.LEARN_BG_DONE : Nat := 0x0704
/-- LEARN_RESIDUAL_END, class N. -/
def Ev.LEARN_RESIDUAL_END : Nat := 0x0705
/-- PAL_WD_DROP, class D. -/
def Ev.PAL_WD_DROP : Nat := 0x0800
/-- PAL_WD_RESTORE, class N. -/
def Ev.PAL_WD_RESTORE : Nat := 0x0801
/-- PAL_HEADROOM_DROP, class D. -/
def Ev.PAL_HEADROOM_DROP : Nat := 0x0802
/-- PAL_QDESC_LOW, class N. -/
def Ev.PAL_QDESC_LOW : Nat := 0x0803
/-- PAL_POOL_SHRUNK, class N. -/
def Ev.PAL_POOL_SHRUNK : Nat := 0x0804
/-- PAL_CFG_REFUSED, class N. -/
def Ev.PAL_CFG_REFUSED : Nat := 0x0805
/-- PAL_RX_TAIL, class D. -/
def Ev.PAL_RX_TAIL : Nat := 0x0806
/-- SCH_DETACH_DONE, class N. -/
def Ev.SCH_DETACH_DONE : Nat := 0x0900
/-- SCH_WHEEL_LATE, class N. -/
def Ev.SCH_WHEEL_LATE : Nat := 0x0901
/-- TEL_BATCH_LATE, class D. -/
def Ev.TEL_BATCH_LATE : Nat := 0x0A00
/-- TEL_REC_OVF, class D. -/
def Ev.TEL_REC_OVF : Nat := 0x0A01
/-- TEL_PC_LIMITED, class N. -/
def Ev.TEL_PC_LIMITED : Nat := 0x0A02
/-- TEL_FLOW_PRESSURE, class N. -/
def Ev.TEL_FLOW_PRESSURE : Nat := 0x0A03
/-- TEL_IOAM_SKIP, class N. -/
def Ev.TEL_IOAM_SKIP : Nat := 0x0A04
/-- TEL_TARGET_DOWN, class D. -/
def Ev.TEL_TARGET_DOWN : Nat := 0x0A05
/-- CNT_METER_MERGED, class N. -/
def Ev.CNT_METER_MERGED : Nat := 0x0B00
/-- CNT_SWATCH_DONE, class N. -/
def Ev.CNT_SWATCH_DONE : Nat := 0x0B01
/-- CNT_SWATCH_SKIP, class N. -/
def Ev.CNT_SWATCH_SKIP : Nat := 0x0B02
/-- CNT_SMP_DROP, class D. -/
def Ev.CNT_SMP_DROP : Nat := 0x0B03
/-- CNT_VF_DENIED, class N. -/
def Ev.CNT_VF_DENIED : Nat := 0x0B04
/-- ENG_FAILED, class D. -/
def Ev.ENG_FAILED : Nat := 0x0C00
/-- ENG_RETURNED, class N. -/
def Ev.ENG_RETURNED : Nat := 0x0C01
/-- ENG_TASK_MIGRATED, class N. -/
def Ev.ENG_TASK_MIGRATED : Nat := 0x0C02
/-- ENG_OVERRUN, class D. -/
def Ev.ENG_OVERRUN : Nat := 0x0C03
/-- ENG_FW_DONE, class N. -/
def Ev.ENG_FW_DONE : Nat := 0x0C04
/-- ENG_FW_ROLLBACK, class D. -/
def Ev.ENG_FW_ROLLBACK : Nat := 0x0C05
/-- ENG_CS_CORRECTED, class C. -/
def Ev.ENG_CS_CORRECTED : Nat := 0x0C06
/-- MAC_TX_SHORT, class D. -/
def Ev.MAC_TX_SHORT : Nat := 0x0D00
/-- MAC_TX_LATCHED, class D. -/
def Ev.MAC_TX_LATCHED : Nat := 0x0D01
/-- MAC_LINK_CHANGE, class N. -/
def Ev.MAC_LINK_CHANGE : Nat := 0x0D02
/-- MAC_AN_FAIL, class N. -/
def Ev.MAC_AN_FAIL : Nat := 0x0D03
/-- MAC_LT_FAIL, class N. -/
def Ev.MAC_LT_FAIL : Nat := 0x0D04
/-- MAC_FEC_UNCORR, class D. -/
def Ev.MAC_FEC_UNCORR : Nat := 0x0D05
/-- MAC_PTP_FIFO_OVF, class N. -/
def Ev.MAC_PTP_FIFO_OVF : Nat := 0x0D06
/-- STL_LINK_CHANGE, class N. -/
def Ev.STL_LINK_CHANGE : Nat := 0x0E00
/-- STL_WIDTH_CHANGE, class D. -/
def Ev.STL_WIDTH_CHANGE : Nat := 0x0E01
/-- STL_LOCK_LOSS, class D. -/
def Ev.STL_LOCK_LOSS : Nat := 0x0E02
/-- STL_REF_MISMATCH, class D. -/
def Ev.STL_REF_MISMATCH : Nat := 0x0E03
/-- STL_DESKEW_FAIL, class D. -/
def Ev.STL_DESKEW_FAIL : Nat := 0x0E04
/-- STL_CFG_MISMATCH, class N. -/
def Ev.STL_CFG_MISMATCH : Nat := 0x0E05
/-- STL_LAST_GASP_RX, class D. -/
def Ev.STL_LAST_GASP_RX : Nat := 0x0E06
/-- STL_TX_SHORT, class D. -/
def Ev.STL_TX_SHORT : Nat := 0x0E07
/-- STL_TX_LATCHED, class D. -/
def Ev.STL_TX_LATCHED : Nat := 0x0E08
/-- STL_REF_LOST, class D. -/
def Ev.STL_REF_LOST : Nat := 0x0F1D
/-- TWIN_PEER_LOST, class D. -/
def Ev.TWIN_PEER_LOST : Nat := 0x1000
/-- TWIN_LINK_LOST, class D. -/
def Ev.TWIN_LINK_LOST : Nat := 0x1001
/-- TWIN_DETACHED, class D. -/
def Ev.TWIN_DETACHED : Nat := 0x1002
/-- TWIN_PAIRED, class N. -/
def Ev.TWIN_PAIRED : Nat := 0x1003
/-- TWIN_ROLE_CONFLICT, class D. -/
def Ev.TWIN_ROLE_CONFLICT : Nat := 0x1004
/-- CHAIN_TOPOLOGY, class N. -/
def Ev.CHAIN_TOPOLOGY : Nat := 0x1100
/-- CHAIN_BREAK, class D. -/
def Ev.CHAIN_BREAK : Nat := 0x1101
/-- CHAIN_WRAP, class N. -/
def Ev.CHAIN_WRAP : Nat := 0x1102
/-- CHAIN_REFUSED, class D. -/
def Ev.CHAIN_REFUSED : Nat := 0x1103
/-- CHAIN_DUP_ID, class D. -/
def Ev.CHAIN_DUP_ID : Nat := 0x1104
/-- CHAIN_TIME_STEP, class N. -/
def Ev.CHAIN_TIME_STEP : Nat := 0x1105

/-- The classes of a group's events by bit number (Table 17.2); MEM_UE and WIRE_FAULT, whose class is that of the action, stand as D. -/
def evClasses : Nat → List Nat
  | 1 => [2, 1, 2, 2, 0, 2, 0, 1, 2, 2, 0, 2, 0, 0, 4]
  | 2 => [3, 0, 2, 0, 0, 0, 0, 0, 2]
  | 3 => [0, 0, 0, 0, 0]
  | 4 => [0, 2, 0, 2, 2, 2, 1, 2]
  | 5 => [0, 0, 0, 2]
  | 6 => [0, 1, 1, 3, 2, 2]
  | 7 => [2, 2, 2, 2, 0, 0]
  | 8 => [2, 0, 2, 0, 0, 0, 2]
  | 9 => [0, 0]
  | 10 => [2, 2, 0, 0, 0, 2]
  | 11 => [0, 0, 0, 2, 0]
  | 12 => [2, 0, 0, 2, 0, 2, 1]
  | 13 => [2, 2, 0, 0, 0, 2, 0]
  | 14 => [0, 2, 2, 2, 2, 0, 2, 2, 2]
  | 16 => [2, 2, 2, 0, 2]
  | 17 => [0, 2, 0, 2, 2, 0]
  | _ => []

/-- The fixed class of an event, none where Table 17.2 has no such event. -/
def evClass (ev : Nat) : Option Nat :=
  if ev = 0x0F1D then some 2 else (evClasses (ev / 256))[ev % 256]?

/-- The SC register of an event's group, with the unit that INSTANCE names where the register is one of several. -/
def evReg (ev inst : Nat) : RegName × Nat :=
  match ev / 256 with
  | 1 => (.FLT_EVT, 0) | 2 => (.HIF_EVT, 0) | 3 => (.CMD_EVT, 0) | 4 => (.PWR_EVT, 0)
  | 5 => (.EPOCH_EVT, 0) | 6 => (.TCAM_EVT, 0) | 7 => (.LEARN_EVT, 0) | 8 => (.PAL_EVT, 0)
  | 9 => (.SCH_EVT, 0) | 10 => (.TEL_EVT, 0) | 11 => (.CNT_EVT, 0) | 12 => (.ENG_EVT, 0)
  | 13 => (.MAC_EVT, inst) | 14 => (.STL_EVT, inst) | 15 => (.STL_REF, 0) | 16 => (.TWIN_EVT, 0)
  | _ => (.CHAIN_EVT, 0)

/-- The register that holds the SEQ of an SC register: its own, but STL_REF_EVT for REF_LOST (Table 14.8). -/
def seqReg (n : RegName) : RegName := if n = .STL_REF then .STL_REF_EVT else n

/-- Set an event's bit, advance SEQ modulo 256 and set the hidden mark (R259). -/
def scEvent (ev inst : Nat) (s : State) : State :=
  let k := evReg ev inst
  let s1 := setF ⟨k.1, ev % 256, 1⟩ k.2 0 1 s
  let q := seqReg k.1
  let s2 := setF ⟨q, 24, 8⟩ k.2 0 (getF s1 ⟨q, 24, 8⟩ k.2 0 + 1) s1
  { s2 with rf := { s2.rf with marks := ⟨q, k.2, 0⟩ :: s2.rf.marks.filter (· ≠ ⟨q, k.2, 0⟩) } }

/-- Send the MSI-X message of a vector, or set its pending bit while the vector is masked (R266). -/
def raiseVector (v : Nat) (s : State) : State :=
  if !s.host.msix then s
  else if bit (reg s .MSIX_TABLE (v % 256) 3).toNat 0 then setMapBit .MSIX_PBA (v % 256) true s
  else emit (.msix (v % 256)) s

/-- The vector that an event's register raises: EVT_VECTOR for HIF_EVT, VECTOR for FLT_EVT (R266, R391). -/
def evVector (ev : Nat) (s : State) : State :=
  match ev / 256 with
  | 1 => raiseVector (getF s F.FLT_CFG_VECTOR 0 0) s
  | 2 => raiseVector (getF s F.HIF_CFG_EVT_VECTOR 0 0) s
  | _ => s

/-- INSTANCE as the history shows it (Table 17.2, INSTANCE): the unit for the groups and events that name one, otherwise 0. -/
def instShown (ev inst : Nat) : Nat :=
  if ev / 256 = 1 ∨ ev / 256 = 13 ∨ ev / 256 = 14 ∨ ev = 0x0603 ∨ ev = 0x0A00 ∨ ev = 0x0A05 ∨ ev = 0x0B04 ∨ ev = 0x0C00 ∨ ev = 0x0C01 ∨ ev = 0x0C02 then inst else 0

/-- Write one history entry at HIST_HEAD (R376, Table 17.7). -/
def histEntry (ev cls inst syn : Nat) (inj : Bool) (s : State) : State :=
  let h := getF s F.FLT_STAT_HIST_HEAD 0 0
  let v := s.clk.tod * 2 ^ 64 + ev % 2 ^ 16 * 2 ^ 48 + cls % 8 * 2 ^ 45 + b2n inj * 2 ^ 44 + inst % 2 ^ 12 * 2 ^ 32 + syn % 2 ^ 32
  setWide .FLT_HIST h v 4 s |> setF F.FLT_STAT_HIST_HEAD 0 0 ((h + 1) % 32) |> bump .HIST_TOTAL 0 0 1

/-- Whether an event is the armed one (R387). -/
def armedFor (s : State) (ev : Nat) : Bool :=
  flag s F.VARNISH_CFG_ARMED 0 0 && getF s F.VARNISH_CFG_ARMED_ID 0 0 == ev

/-- Whether an event's class triggers Varnish (R387). -/
def classTrips (s : State) (cls : Nat) : Bool :=
  let m := getF s F.VARNISH_CFG_CLASS_MIN 0 0
  decide (1 ≤ m) && decide (m ≤ 4) && decide (m ≤ cls)

/-- The freeze (R388): every domain but TST stops, FAULT_N follows it (R422), and VSTATUS holds the trigger (Table 17.9).  The drivers are forced off, as `txState` shows. -/
def freeze (trigger ev : Nat) (s0 : State) : State :=
  let s := if isSafe s0 then s0 else emit (.pin 0 0) s0
  { s with flt := { s.flt with frozen := true, trigger := trigger, trigEvent := ev, trigTod := s.clk.tod } }

/-- A line of the console, while it is enabled (R274, R298). -/
def consoleLine (kind v : Nat) (s : State) : State := if flag s F.UART_CFG_EN 0 0 then emit (.console kind v) s else s

/-- An event of the fault collector's own group gives a line (R298; log 45). -/
def eventLine (ev : Nat) (s : State) : State := if ev / 256 = 1 then consoleLine 1 ev s else s

/-- Record an event in its register, its class count and, at its class, the history (R259, R373, R376); a triggering event is always written, and one of the fault collector's own group gives a line on the console (R298; log 45). -/
def record (ev cls inst syn : Nat) (inj : Bool) (s : State) : State :=
  let s1 := scEvent ev inst s |> bump .CLASS_CNT cls 0 1
  let s2 := if decide (getF s1 F.FLT_CFG_HIST_MIN_CLASS 0 0 ≤ cls) || armedFor s1 ev || classTrips s1 cls
    then histEntry ev cls (instShown ev inst) syn inj s1 else s1
  evVector ev (eventLine ev s2)

/-- The Stretcher ports that send LAST_GASP: UP or in RESIZE (R328). -/
def gaspPorts (s : State) : List Nat :=
  [0, 1, 2, 3].filter fun n => flag s F.STL_PORT_STAT_UP n 0 || flag s F.STL_PORT_STAT_RESIZE n 0

/-- LAST_GASP as the cause byte and the TOD of entry (R328, R383), one record for the 16 rounds of a port. -/
def lastGasp (cause n : Nat) (s : State) : State :=
  emit (.stretcher n 0x78 ([0x78, BitVec.ofNat 8 (0x40 + cause), 0, 0] ++ leBytes 8 s.clk.tod)) s

/-- The flow caches are flushed as the safe state is entered (R213): each entry counts as a flush, and its record is lost. -/
def flushLost (s : State) : State :=
  (List.range 8).foldl (fun z n => setF F.FLOW_ACTIVE_FLOW_ACTIVE n 0 0 (bump .FLOW_EXPORTED n 0 (tgetD s.tele.flows n []).length z)) s

/-- Entry to the safe state (R383, Table 17.5): FLT_SAFE_STATE, SAFE, SAFE_CAUSE, the event and TOD of entry, FAULT_N, LAST_GASP, and the loss of Palette contents, flow caches and queues.  Front and Stretcher drivers read SQUELCHED and engines but AE0 read OFF while SAFE stands (see `txState`, `engState`). -/
def enterSafe (cause ev : Nat) (s : State) : State :=
  let s1 := setF F.FLT_STAT_SAFE 0 0 1 s |> setF F.FLT_STAT_SAFE_CAUSE 0 0 cause
    |> setF F.FLT_SAFE_EVENT_EVENT_ID 0 0 ev |> fun z => setWide .FLT_SAFE_TOD 0 z.clk.tod 2 z
  let s2 := emit (.pin 0 0) s1
  let s3 := flushLost ((gaspPorts s).foldl (fun z n => lastGasp cause n z) s2)
  { s3 with
    pal := { s3.pal with fifo := [], inPipe := [], pkts := [], copies := [], writeQ := [], readers := [], flight := [] }
    sched := { s3.sched with queues := [], wheel := [] }
    tele := { s3.tele with flows := [] }
    flt := { s3.flt with returns := [] } }

/-- An event whose consequences for the whole device follow it: the Varnish trigger where it is armed or its class matches (R387), otherwise the safe state for class F (R383, with a given SAFE_CAUSE), Varnish being taken where both fall together (R390).  Nothing is recorded once the device is frozen. -/
def raiseAs (cause ev cls inst syn : Nat) (inj : Bool) (s : State) : State :=
  if s.flt.frozen then s else
  let s1 := record ev cls inst syn inj s
  if armedFor s1 ev then freeze 1 ev s1
  else if classTrips s1 cls then freeze 2 ev s1
  else if cls = 4 && !isSafe s1 then
    let s2 := if ev = Ev.FLT_SAFE_STATE then s1 else record Ev.FLT_SAFE_STATE 4 0 0 false s1
    if ev ≠ Ev.FLT_SAFE_STATE ∧ armedFor s1 Ev.FLT_SAFE_STATE then freeze 1 Ev.FLT_SAFE_STATE s2
    else enterSafe cause ev s2
  else s1

/-- An event of its fixed class with INSTANCE and SYNDROME (R375). -/
def raise (ev inst syn : Nat) (s : State) : State := raiseAs 1 ev ((evClass ev).getD 0) inst syn false s

/-- An event whose entry names neither unit nor detail. -/
def raise0 (ev : Nat) (s : State) : State := raise ev 0 0 s

/-- The safe state on a decision that is no event of class F: the collector's own registers, or a role left empty (R301, R383). -/
def safeBy (cause : Nat) (s : State) : State :=
  if isSafe s || s.flt.frozen then s else raiseAs cause Ev.FLT_SAFE_STATE 4 0 0 false s

/-- The driver state of a front lane as it stands: OFF under Varnish (R388), SQUELCHED while the device is in the safe state (R47), else the register's field (Table 2.10). -/
def txState (s : State) (mac lane : Nat) : Nat :=
  if s.flt.frozen then 0 else if isSafe s then 5 else getF s F.LANE_TXCTL_TX_STATE mac lane

/-- The driver state of a Stretcher lane as it stands (R318). -/
def stlTxState (s : State) (port lane : Nat) : Nat :=
  if s.flt.frozen then 0 else if isSafe s then 5 else getF s F.STL_LANE_TXCTL_TX_STATE port lane

/-- An engine's STATE as it stands: in the safe state every engine but AE0 is stopped (Table 17.5). -/
def engState (s : State) (e : Nat) : Nat :=
  if isSafe s && e ≠ 0 then 0 else getF s F.ENG_STAT_STATE e 0

end Sys2Proof.Machine
end

