-- ==== Sys2Proof/Machine/Operands.lean ====
section
/-! DEFINITION. Operand forms: the command packet's header and reserved bits, the reply's bytes, the opcode table's kinds and lengths, and the chain header. -/

namespace Sys2Proof.Machine

/-- Kind of an opcode (Table 12.9): R, W or P. -/
inductive OpKind where
  | r | w | p
deriving DecidableEq, Repr

/-- What Table 12.9 says of an opcode: its kind, whether it has progress (L), whether it refuses IDEMPOTENT (N), its parameter words, and whether it has reply data. -/
structure OpInfo where
  kind : OpKind
  prog : Bool
  noIdem : Bool
  words : Nat
  data : Bool
deriving DecidableEq, Repr

/-- Table 12.9. -/
def opInfo (op : Nat) : Option OpInfo :=
  match op with
  | 0x0001 => some ⟨.r, false, false, 0, true⟩
  | 0x0002 => some ⟨.r, false, false, 0, false⟩
  | 0x0003 => some ⟨.r, false, false, 2, true⟩
  | 0x0004 => some ⟨.w, false, false, 2, false⟩
  | 0x0005 => some ⟨.w, false, false, 1, false⟩
  | 0x0006 => some ⟨.r, false, false, 0, true⟩
  | 0x0010 => some ⟨.p, false, true, 1, false⟩
  | 0x0020 => some ⟨.p, false, true, 38, true⟩
  | 0x0021 => some ⟨.r, false, false, 1, true⟩
  | 0x0101 => some ⟨.w, false, false, 10, false⟩
  | 0x0102 => some ⟨.w, false, false, 10, false⟩
  | 0x0103 => some ⟨.r, false, false, 10, true⟩
  | 0x0104 => some ⟨.r, false, false, 12, true⟩
  | 0x0105 => some ⟨.w, true, false, 10, false⟩
  | 0x0106 => some ⟨.w, true, false, 2, false⟩
  | 0x0107 => some ⟨.w, false, false, 2, false⟩
  | 0x0110 => some ⟨.w, false, false, 2, false⟩
  | 0x0111 => some ⟨.r, false, false, 2, true⟩
  | 0x0201 => some ⟨.w, true, true, 0, true⟩
  | 0x0202 => some ⟨.w, false, true, 0, true⟩
  | 0x0203 => some ⟨.w, false, true, 0, false⟩
  | 0x0204 => some ⟨.w, false, true, 50, true⟩
  | 0x0205 => some ⟨.w, false, false, 1, false⟩
  | 0x0206 => some ⟨.r, false, false, 1, true⟩
  | 0x0207 => some ⟨.r, false, false, 2, true⟩
  | 0x0210 => some ⟨.w, false, false, 4, false⟩
  | 0x0211 => some ⟨.r, false, false, 1, true⟩
  | 0x0301 => some ⟨.w, false, false, 4, false⟩
  | 0x0302 => some ⟨.w, true, false, 4, false⟩
  | 0x0401 => some ⟨.w, false, false, 9, false⟩
  | 0x0501 => some ⟨.w, true, false, 26, false⟩
  | 0x0502 => some ⟨.w, true, false, 0, false⟩
  | 0x0503 => some ⟨.r, false, false, 2, true⟩
  | 0x0504 => some ⟨.p, false, false, 2, false⟩
  | 0x0505 => some ⟨.r, false, false, 1, true⟩
  | 0x0506 => some ⟨.w, false, true, 2, true⟩
  | 0x0507 => some ⟨.w, false, false, 1, false⟩
  | 0x0601 => some ⟨.w, false, false, 1, false⟩
  | 0x0602 => some ⟨.w, false, false, 1, false⟩
  | 0x0603 => some ⟨.w, false, false, 1, false⟩
  | 0x0604 => some ⟨.r, false, false, 0, true⟩
  | 0x0605 => some ⟨.r, false, false, 0, true⟩
  | 0x0701 => some ⟨.w, true, false, 1, false⟩
  | 0x0702 => some ⟨.w, true, false, 1, false⟩
  | 0x0703 => some ⟨.p, false, true, 1, false⟩
  | 0x0704 => some ⟨.p, false, true, 1, false⟩
  | 0x0705 => some ⟨.w, true, false, 1, false⟩
  | 0x0801 => some ⟨.w, false, false, 1, false⟩
  | 0x0802 => some ⟨.w, false, false, 3, false⟩
  | 0x0803 => some ⟨.w, false, false, 2, false⟩
  | 0x0804 => some ⟨.r, false, false, 1, true⟩
  | 0x0805 => some ⟨.r, false, false, 0, true⟩
  | 0x0F01 => some ⟨.r, false, false, 0, true⟩
  | 0x0F02 => some ⟨.p, true, true, 4, false⟩
  | 0x0F03 => some ⟨.p, true, true, 1, false⟩
  | 0x0F04 => some ⟨.p, true, true, 1, false⟩
  | 0x0F05 => some ⟨.p, false, true, 1, false⟩
  | _ => none

/-- Whether a master's kind may send an opcode (Table 12.2). -/
def permitted (k : OpKind) (master : Nat) : Bool :=
  match k with
  | .r => true
  | .w => master ≠ 1
  | .p => master = 0

/-- Outstanding share of a master's kind (Table 12.2). -/
def share (master : Nat) : Nat :=
  if master = 0 then 15615 else if master = 1 then 1 else 256

/-- MASTER_ID (Table 12.2). -/
def masterId (kind sub : Nat) : Nat := kind * 4096 + sub % 4096

/-- Whether two MASTER_IDs are one master for locks (R276): the same kind, and for the chain kind the same member. -/
def sameMaster (a b : Nat) : Bool :=
  a / 4096 == b / 4096 && (a / 4096 ≠ 4 || a == b)

/-! ### Packet header (Table 12.1) -/

/-- OPCODE. -/
def pOpcode (p : List Byte) : Nat := leAt p 0 2
/-- FLAGS. -/
def pFlags (p : List Byte) : Nat := leAt p 2 1
/-- TAG. -/
def pTag (p : List Byte) : Nat := leAt p 4 4
/-- TARGET_DEV[11:0]. -/
def pTarget (p : List Byte) : Nat := leAt p 8 2 % 4096
/-- PARAM_LEN. -/
def pParamLen (p : List Byte) : Nat := leAt p 10 2
/-- PRIORITY. -/
def pPriority (p : List Byte) : Nat := leAt p 14 2
/-- `n` parameter bytes from parameter byte `off`, as a number. -/
def par (p : List Byte) (off n : Nat) : Nat := leAt p (32 + off) n

/-- Parameter words that an opcode's packet must have (R290); MC_GROUP_WRITE has 2 + COUNT. -/
def wordsOf (op : Nat) (info : OpInfo) (p : List Byte) : Nat :=
  if op = 0x0110 then 2 + par p 4 1 else info.words

/-- Reserved header bits by byte (Table 12.1). -/
def headerReserved : List (Nat × Nat) :=
  [(2, 0xF8), (9, 0xF0)] ++ (List.range 16).map fun k => (16 + k, 0xFF)

/-- Bytes [a, b] as fully reserved. -/
def zeroBytes (a b : Nat) : List (Nat × Nat) := (List.range (b + 1 - a)).map fun k => (a + k, 0xFF)

/-- Reserved parameter bits by parameter byte (R290, Table 12.9). -/
def paramReserved (op : Nat) (p : List Byte) : List (Nat × Nat) :=
  match op with
  | 0x0003 => zeroBytes 6 7
  | 0x0004 => zeroBytes 1 3
  | 0x0005 => zeroBytes 1 3
  | 0x0020 => zeroBytes 1 3 ++ zeroBytes 40 55
  | 0x0101 => (1, 0xFC) :: zeroBytes 5 7
  | 0x0102 => [(1, 0xFF), (3, 0xFF)] ++ zeroBytes 5 7
  | 0x0103 => [(1, 0xFB), (3, 0xFF)] ++ zeroBytes 5 7
  | 0x0104 => [(2, 0xF8), (3, 0xFC)]
  | 0x0105 => [(2, 0xFC), (3, 0xFF), (6, 0xFF), (7, 0xFF)]
  | 0x0106 => zeroBytes 1 3
  | 0x0107 => [(1, 0xFE)]
  | 0x0110 => [(5, 0xFE), (6, 0xFF), (7, 0xFF)] ++
      (List.range (par p 4 1)).flatMap fun i =>
        let b := 8 + 4 * i
        (if bit (par p b 4) 31 then [(b, 0xC0), (b + 1, 0xFF)] else []) ++ [(b + 2, 0xFF), (b + 3, 0x7F)]
  | 0x0111 => zeroBytes 5 7
  | 0x0204 => [(7, 0xF0)]
  | 0x0207 => zeroBytes 2 3
  | 0x0210 => [(4, 0xFE), (7, 0xFF), (14, 0xFF), (15, 0xFF)]
  | 0x0301 => [(1, 0xFE), (3, 0xFF), (14, 0xFF), (15, 0xFF)]
  | 0x0302 => zeroBytes 13 15
  | 0x0401 => [(1, 0xFC), (6, 0xFF), (7, 0xFF), (11, 0xFF), (15, 0xFF), (18, 0xFF), (19, 0xFF)]
  | 0x0501 => if bit (par p 1 1) 0 then [(1, 0xE0), (21, 0x80), (70, 0xFF), (71, 0xFF), (79, 0xFF)] else [(1, 0xE0)]
  | 0x0503 => zeroBytes 2 3
  | 0x0504 => [(2, 0xFE), (3, 0xFF)]
  | 0x0505 => zeroBytes 1 3
  | 0x0601 => zeroBytes 2 3
  | 0x0602 => zeroBytes 1 3
  | 0x0701 => zeroBytes 2 3
  | 0x0702 => zeroBytes 1 3
  | 0x0703 => [(0, 0xFE), (1, 0xFF)]
  | 0x0704 => zeroBytes 2 3
  | 0x0705 => zeroBytes 1 3
  | 0x0801 => [(3, 0xFC)]
  | 0x0802 => [(1, 0xFF)]
  | 0x0803 => zeroBytes 2 3
  | 0x0804 => zeroBytes 2 3
  | 0x0F02 => zeroBytes 1 3
  | 0x0F03 => zeroBytes 1 3
  | 0x0F04 => zeroBytes 1 3
  | 0x0F05 => zeroBytes 1 3
  | _ => []

/-- The first byte of a list of (byte, reserved bits) that holds a nonzero reserved bit. -/
def firstReserved (p : List Byte) (base : Nat) (l : List (Nat × Nat)) : Option Nat :=
  (l.find? fun x => Nat.land (leAt p (base + x.1) 1) x.2 ≠ 0).map fun x => base + x.1

/-- The objects of a command (R282). -/
def objsOf (op : Nat) (p : List Byte) : List Obj :=
  match op with
  | 0x0110 => [.group (par p 0 2)]
  | 0x0111 => [.group (par p 0 2)]
  | 0x0201 => [.staged]
  | 0x0202 => [.staged]
  | 0x0203 => [.staged]
  | 0x0204 => [.policy (par p 0 1)]
  | 0x0205 => [.policy (par p 3 1)]
  | 0x0206 => [.policy (par p 3 1)]
  | 0x0207 => [.policy (par p 0 1)]
  | 0x0210 => [.policer (par p 0 1) (par p 1 1) (par p 2 2)]
  | 0x0211 => [.policer (par p 0 1) (par p 1 1) (par p 2 2)]
  | 0x0301 => [.node (par p 0 1) (par p 4 4)]
  | 0x0302 => [.node (par p 0 1) (par p 4 4)]
  | 0x0401 => [.mac (par p 0 1)]
  | 0x0705 => [.mac (par p 0 1)]
  | 0x0501 => [.target (par p 0 1)]
  | 0x0506 => [.swatch 0]
  | 0x0507 => [.swatch 0]
  | _ => if 0x0101 ≤ op ∧ op ≤ 0x0107 then [.table (par p 0 1)] else [.opGroup (op / 256)]

/-! ### Replies (Table 12.3) -/

/-- A reply's bytes: the 48-byte header, then the data. -/
def replyBytes (r : Reply) : List Byte :=
  leBytes 4 r.tag ++ leBytes 2 r.status ++ leBytes 2 r.opcode ++ leBytes 8 r.serial ++ leBytes 2 r.permille
    ++ leBytes 2 (cdiv r.rdata.length 4) ++ leBytes 2 r.errOffset ++ leBytes 2 r.master ++ leBytes 8 r.cursor
    ++ leBytes 8 r.execTs ++ leBytes 4 r.detail ++ zeros 4 ++ r.rdata

/-- A reply read from its bytes. -/
def replyOf (b : List Byte) : Reply :=
  { tag := leAt b 0 4, status := leAt b 4 2, opcode := leAt b 6 2, serial := leAt b 8 8, permille := leAt b 16 2,
    rdata := slice b 48 (4 * leAt b 18 2), errOffset := leAt b 20 2, master := leAt b 22 2, cursor := leAt b 24 8,
    execTs := leAt b 32 8, detail := leAt b 40 4 }

/-! ### The chain header (R342, Table 15.5) -/

/-- CHECK over bytes 0 to 13 with TTL and WRAPPED taken as zero. -/
def chainCheck (h : List Byte) : Nat :=
  crcMsb 16 0x1021 0xFFFF (slice h 0 1 ++ [0] ++ [BitVec.ofNat 8 ((beAt h 2 1) % 128)] ++ slice h 3 11)

/-- A chain header with its CHECK. -/
def chainHeader (kind ttl : Nat) (wrapped : Bool) (src dst tac : Nat) : List Byte :=
  let h := beBytes 1 (16 + kind) ++ beBytes 1 ttl ++ beBytes 2 (b2n wrapped * 32768 + src % 4096) ++ beBytes 2 (dst % 4096)
    ++ zeros 6 ++ beBytes 2 (tac % 16384)
  h ++ beBytes 2 (chainCheck h)

/-- Whether a chain header is whole: CHECK, VER and KIND (R342). -/
def chainHeaderOk (f : List Byte) : Bool :=
  decide (16 ≤ f.length) && beAt f 14 2 == chainCheck f && beAt f 0 1 / 16 == 1 && decide (beAt f 0 1 % 16 ≤ 4)

/-- HIF_SERIAL, the unit's fused serial number (Table 11.3; log 4). -/
def hifSerial : Nat := Config.fuseWord 0 % 2 ^ 64

/-- This device's DEV_ID, 0 for none (R330). -/
def devId (s : State) : Nat := getF s F.CHAIN_STAT_DEV_ID 0 0

end Sys2Proof.Machine
end

