-- ==== Sys2Proof/Machine/Command.lean ====
section
/-! DEFINITION. Command packets (Chapter 12): the sequencer with the checks of Table 12.4, forwarding, dispatch, replies on every master's path, locks, and the meanings of the rows that carry packets and of the opcodes of group 0x00. -/

namespace Sys2Proof.Machine

/-! ### Replies and their paths -/

/-- A ring's coalescing after one more completion (R267): the new count and whether the vector is raised. -/
def coalesce (c : Coal) (cnt us now : Nat) : Coal × Bool :=
  let c1 : Coal := { count := c.count + 1, first := if c.count = 0 then now else c.first }
  if (cnt = 0 ∧ us = 0) ∨ (cnt ≠ 0 ∧ cnt ≤ c1.count) then ({}, true) else (c1, false)

/-- A command ring's state beside its registers. -/
def cmdRing (s : State) (r : Nat) : CmdRing := tgetD s.cmd.rings r {}

/-- Set it. -/
def setCmdRing (r : Nat) (x : CmdRing) (s : State) : State :=
  { s with cmd := { s.cmd with rings := tset s.cmd.rings r x } }

/-- Entries of a completion ring. -/
def cqSize (s : State) (r : Nat) : Nat := 2 ^ getF s F.CMD_RING_CFG_CQ_SIZE_LOG2 r 0

/-- Whether a completion ring takes no entry: it is full (R286), or DMA has stopped (R256). -/
def cqFull (s : State) (r : Nat) : Bool :=
  !dmaOn s || (getF s F.CQ_TAIL_TAIL r 0 + 1) % cqSize s r == getF s F.CQ_HEAD_HEAD r 0 % cqSize s r

/-- The write-back to WB_ADDR: SQ_HEAD in [15:0] and CQ_TAIL in [31:16] (R286). -/
def cmdWriteBack (r : Nat) (s : State) : State :=
  emit (.dma (wide s .CMD_WB_ADDR r 2) (leBytes 4 (getF s F.SQ_HEAD_HEAD r 0 + getF s F.CQ_TAIL_TAIL r 0 * 65536))) s

/-- Write a reply at CQ_TAIL: reply data over 12 bytes to RBUF_ADDR first, then the 64-byte entry, then the write-back, then the vector under coalescing (R286). -/
def cqPut (r : Nat) (rep : Reply) (rbuf : Nat) (s : State) : State :=
  let c := cmdRing s r
  let tail := getF s F.CQ_TAIL_TAIL r 0
  let s1 := if 12 < rep.rdata.length then emit (.dma rbuf rep.rdata) s else s
  let data := (rep.rdata ++ zeros 12).take 12
  let entry := (replyBytes rep).take 48 ++ data ++ zeros 3 ++ [if c.phase then 1 else 0]
  let s2 := emit (.dma (wide s .CQ_BASE r 2 + 64 * tail) entry) s1 |> emit (.reply 0 r rep)
  let next := (tail + 1) % cqSize s r
  let s3 := cmdWriteBack r (setF F.CQ_TAIL_TAIL r 0 next s2)
  let co := coalesce c.coal (getF s F.CMD_RING_TIME_COAL_CNT r 0) (getF s F.CMD_RING_TIME_COAL_US r 0) s.clk.mono
  let s4 := setCmdRing r { c with phase := if next = 0 then !c.phase else c.phase, coal := co.1 } s3
  if co.2 then raiseVector (getF s F.CMD_RING_CFG_VECTOR r 0) s4 else s4

/-- The record of an outstanding command. -/
def outCmd (s : State) (serial : Nat) : Option OutCmd := s.cmd.outstanding.find? (fun o => o.serial == serial)

/-- Change the record of an outstanding command. -/
def modOut (serial : Nat) (f : OutCmd → OutCmd) (s : State) : State :=
  { s with cmd := { s.cmd with outstanding := s.cmd.outstanding.map (fun o => if o.serial = serial then f o else o) } }

/-- A command stops being outstanding. -/
def dropOut (serial : Nat) (s : State) : State :=
  { s with cmd := { s.cmd with outstanding := s.cmd.outstanding.filter (fun o => o.serial ≠ serial) } }

/-- Put the final replies that wait for room into a completion ring while it has room, oldest first; each command then stops being outstanding (R286). -/
def cqDrain (r : Nat) : Nat → State → State
  | 0, s => s
  | n + 1, s =>
    match (cmdRing s r).waiting with
    | [] => s
    | (rep, rbuf, key) :: rest =>
      if cqFull s r then s
      else cqDrain r n (cqPut r rep rbuf (setCmdRing r { cmdRing s r with waiting := rest } (dropOut key s)))

/-- Bytes a path can carry, none where it has no limit below the size of any reply (R279). -/
def pathLimit (s : State) (kind sub : Nat) : Option Nat :=
  if kind = 1 then some 255
  else if kind = 2 then
    match (tgetD s.port.macs (sub / 8) {}).cfg with
    | some c => some ((c.maxFrame[sub % 8]?).getD 0 - (14 + 16 + 32 + 4))
    | none => some 0
  else none

/-- MAX lowered to the records of a size that the reply's path can carry behind the header and `fixed` bytes (R279). -/
def fitMax (s : State) (h : Hdr) (fixed size max : Nat) : Nat :=
  match pathLimit s h.kind h.sub with
  | some n => min max ((n - 48 - fixed) / size)
  | none => max

/-- The layout of Table 12.8 as a reply: the command frame's addresses exchanged, its tags and EtherType kept, KIND 1, KEY_GEN, the command's NONCE, the reply and its HMAC (R289). -/
def ibFrame (s : State) (cmdFrame : List Byte) (nonce : Nat) (rep : Reply) : List Byte :=
  let pay := [1, 1, 0, 0] ++ leBytes 4 s.fuse.keyGen ++ leBytes 8 nonce ++ replyBytes rep
  slice cmdFrame 6 6 ++ slice cmdFrame 0 6 ++ cmdFrame.drop 12 ++ pay
    ++ leBytes 32 (Config.hmacSha256 s.fuse.ibKey pay.length (leNum pay))

/-- Whether a logical port is up (MAC_MACRO_CFG.PORT_UP). -/
def portIsUp (s : State) (p : Nat) : Bool := bit (getF s F.MAC_MACRO_CFG_PORT_UP (p / 8) 0) (p % 8)

/-- A frame formed here leaves by an UP Stretcher port, or waits there while the far end holds frames back: only HB, TIME, LAST_GASP and ALIGN are never held (R317). -/
def stlSend (port kind : Nat) (f : List Byte) (s : State) : State :=
  if flag s F.STL_PORT_STAT_XOFF_RX port 0 then { s with chain := { s.chain with held := s.chain.held ++ [(port, kind, f)] } }
  else emit (.stretcher port kind f) s

/-- A frame formed here for a chain or twin port leaves by it; one whose chain port is not UP goes out of the other with WRAPPED set, and one that can leave by neither is discarded (R344). -/
def chainOut (port kind : Nat) (f : List Byte) (s : State) : State :=
  let m := if port < 2 then 1 - port else 5 - port
  if flag s F.STL_PORT_STAT_UP port 0 then stlSend port kind f s
  else if flag s F.STL_PORT_STAT_UP m 0 && getF s F.STL_PORT_STAT_MODE m 0 == getF s F.STL_PORT_STAT_MODE port 0 then
    if port < 2 then stlSend m kind f s
    else raise0 Ev.CHAIN_WRAP (bump .CHAIN_WRAP_CNT 0 0 1 (stlSend m kind (patch f 2 (beBytes 2 (putBits (beAt f 2 2) 15 1 1))) s))
  else if port < 2 then s
  else bump .CHAIN_TTL_DROP 0 0 1 s

/-- The shorter direction to a member in hops, west on a tie (R342). -/
def chainDir (s : State) (dev : Nat) : Nat :=
  match s.chain.members.find? (fun m => m.dev == dev) with
  | some m => if m.hopsW ≤ m.hopsE then 2 else 3
  | none => 2

/-- TTL at the origin: the smaller of 255 and twice the members (R342). -/
def chainTtl (s : State) : Nat := min 255 (2 * (s.chain.members.length + 1))

/-- A reply on the path of an in-band, twin or chain master (R277, R289, R345); `key` is the SERIAL of the command that a final reply ends, 0 for an interim one. -/
def linkReply (o : OutCmd) (rep : Reply) (key : Nat) (s : State) : State :=
  if o.kind = 2 then
    (if portIsUp s o.sub then { s with cmd := { s.cmd with ibDue := s.cmd.ibDue ++ [(o.sub, ibFrame s o.frame o.nonce rep, key)] } } else dropOut key s)
  else
    let dev := if o.kind = 3 then (tgetD s.stl.ports o.sub {}).hbDev else o.sub
    chainOut (if o.kind = 3 then o.sub else chainDir s o.sub) 3 (chainHeader 3 (chainTtl s) false (devId s) dev 0 ++ replyBytes rep)
      (emit (.reply o.kind o.sub rep) (dropOut key s))

/-- Send a final reply on its master's path (R277, R286, R289, R272, R345); the command stops being outstanding when the reply leaves or is discarded. -/
def deliver (o : OutCmd) (rep : Reply) (s : State) : State :=
  if o.muted then dropOut o.serial s
  else if o.kind = 0 then
    if !flag s F.CMD_RING_CFG_EN o.sub 0 then dropOut o.serial s
    else if cqFull s o.sub || !(cmdRing s o.sub).waiting.isEmpty then
      setCmdRing o.sub { cmdRing s o.sub with waiting := (cmdRing s o.sub).waiting ++ [(rep, o.rbuf, o.serial)] } s
    else cqPut o.sub rep o.rbuf (dropOut o.serial s)
  else if o.kind = 1 then
    let s1 := dropOut o.serial s
    if s1.host.bmc.last = some o.serial then
      emit (.reply 1 0 rep) { s1 with host := { s1.host with bmc := { s1.host.bmc with reply := some rep } } }
    else s1
  else linkReply o rep o.serial s

/-- Count a final reply that refuses: STATUS 0x0010 to 0x0015, of all masters and of its ring (R292, Table 12.7). -/
def countRefused (kind sub status : Nat) (s : State) : State :=
  if 0x10 ≤ status ∧ status ≤ 0x15 then
    let s1 := bump .CMD_REFUSED_CNT 0 0 1 s
    if kind = 0 then bump .REFUSED_CNT sub 0 1 s1 else s1
  else s

/-- The record that a command's header stands for where the sequencer holds none. -/
def asOut (h : Hdr) (op : Nat) : OutCmd :=
  { serial := h.serial, kind := h.kind, sub := h.sub, tag := h.tag, opcode := op, idem := h.idem, ackReq := h.ackReq,
    prog := h.prog, priority := 0, objs := [], dispatched := true }

/-- What a command answers: status, ERR_OFFSET, DETAIL, CURSOR and reply data. -/
structure Answer where
  status : Nat := 0
  off : Nat := 0xFFFF
  detail : Nat := 0
  cursor : Nat := 0
  data : List Byte := []
deriving DecidableEq, Repr

/-- The final reply of a command under the ACK rules (R278, R279): sent when ACK_REQ is 1, STATUS is not OK or the opcode has reply data. -/
def finish (h : Hdr) (op : Nat) (a : Answer) (s : State) : State :=
  let o := (outCmd s h.serial).getD (asOut h op)
  let hasData := match opInfo op with
    | some i => i.data
    | none => false
  let r : Reply :=
    { tag := h.tag, status := a.status, opcode := op, serial := h.serial,
      permille := (match opInfo op with
        | some i => if i.prog then (if a.status = 0 then 1000 else o.permille) else 0xFFFF
        | none => 0xFFFF),
      rdata := a.data, errOffset := a.off, master := masterId h.kind h.sub, cursor := a.cursor,
      execTs := s.clk.tod, detail := a.detail }
  let fits := match pathLimit s h.kind h.sub with
    | some n => decide (48 + a.data.length ≤ n)
    | none => true
  let r1 := if fits then r else { r with status := 0x12, rdata := [], detail := (match opInfo op with
    | some i => i.words
    | none => 0) }
  if h.ackReq || r1.status ≠ 0 || hasData then deliver o r1 (countRefused h.kind h.sub r1.status s)
  else dropOut h.serial s

/-- A command that completes OK with no data. -/
def ok (h : Hdr) (op : Nat) (s : State) : State := finish h op {} s

/-- A command that completes with a status alone. -/
def failWith (h : Hdr) (op status detail : Nat) (s : State) : State :=
  finish h op { status := status, detail := detail } s

/-- The final reply of a command whose effect ran on after its start, where it is still outstanding: one that its engine's failure has ended (R29) is not answered again. -/
def finishOpen (h : Hdr) (op : Nat) (a : Answer) (s : State) : State :=
  if (outCmd s h.serial).isSome then finish h op a s else s

/-- BAD_PARAM at a header or parameter byte. -/
def badParam (h : Hdr) (op off : Nat) (s : State) : State := finish h op { status := 0x13, off := off } s

/-- A failed check: status, ERR_OFFSET, DETAIL. -/
abbrev Chk := Option (Nat × Nat × Nat)

/-- The first check that fails, of a list of (failed, status, ERR_OFFSET, DETAIL) in order. -/
def firstBad : List (Bool × Nat × Nat × Nat) → Chk
  | [] => none
  | (b, st, off, d) :: l => if b then some (st, off, d) else firstBad l

/-- A parameter out of range (step 11): BAD_PARAM at parameter byte `p`. -/
def bad (b : Bool) (p : Nat) : Bool × Nat × Nat × Nat := (b, 0x13, 32 + p, 0)

/-- A reserved enumeration value (step 10) at parameter byte `p`. -/
def resv (b : Bool) (p v : Nat) : Bool × Nat × Nat × Nat := (b, 0x14, 32 + p, v)

/-- Whether the boot stage lets a command be dispatched (R400, R304): all from Ready, three from START, none before; in recovery every command is dispatched and R304 decides. -/
def stageAllows (s : State) (op : Nat) : Bool :=
  match bootStage s with
  | 6 => true
  | 7 => true
  | 5 => op = 0x0001 || op = 0x0F01 || op = 0x0021
  | _ => false

/-- The opcodes that recovery accepts (R304). -/
def recoveryAllows (op : Nat) : Bool :=
  op = 0x0001 || op = 0x0F01 || op = 0x0F02 || op = 0x0F03 || op = 0x0F04

/-- The holder of a class's lock when it stands against a command: another master holds it, taken by a lower SERIAL (R285). -/
def lockAgainst (s : State) (h : Hdr) (cls : Nat) : Option Nat :=
  if flag s F.LOCK_STAT_HELD cls 0 then
    let holder := getF s F.LOCK_STAT_HOLDER cls 0
    let since := (tgetD s.cmd.locks cls ⟨0, 0⟩).serial
    if !sameMaster holder (masterId h.kind h.sub) && decide (since < h.serial) then some holder else none
  else none

/-- The common course of a command's execution: it acts while the clocks run; in the safe state it is refused (step 1); it waits until dispatched and until the boot stage allows it; then the kind permitted to the master (step 7), the flags (step 11), the opcode's own checks (steps 10 and 11), the lock of its class (step 12), and its effect. -/
def runCmd (op : Nat) (h : Hdr) (checks : State → Chk) (cls : State → Option Nat) (body : State → State) (s : State) : Res :=
  if halted s then .next s
  else
    let s := tick h.t s
    if s.flt.tripped then .next s
    else if isSafe s then .next (failWith h op 0x33 0 s)
    else if !stageAllows s op || (match outCmd s h.serial with
        | some o => !o.dispatched
        | none => false) then .next s
    else if bootStage s = 7 && !recoveryAllows op then .next (failWith h op 0x15 0 s)
    else match opInfo op with
      | none => .next (finish h op { status := 0x10, off := 0 } s)
      | some i =>
        if !permitted i.kind h.kind then .next (finish h op { status := 0x15, off := 0 } s)
        else match checks s with
          | some (st, off, d) => .next (finish h op { status := st, off := off, detail := d } s)
          | none =>
            if i.noIdem && h.idem then .next (badParam h op 2 s)
            else match cls s with
              | none => .next (body s)
              | some c => match (if i.kind = .r then none else lockAgainst s h c) with
                | some holder => .next (failWith h op 0x32 holder s)
                | none => .next (body s)

/-- No checks. -/
def noChk (_ : State) : Chk := none

/-- No lock class. -/
def noCls (_ : State) : Option Nat := none

/-! ### The sequencer -/

/-- Whether an exact-match table of the image in force is versioned (R85). -/
def versioned (s : State) (id : Nat) : Bool :=
  match s.tbl.image with
  | none => false
  | some im => match im.exact.find? (fun d => d.id == id) with
    | some d => d.versioned
    | none => im.lpm.any (fun d => d.id == id)

/-- Whether two objects overlap: the staged version overlaps every versioned table and every policy table (R282). -/
def overlap (s : State) (a b : Obj) : Bool :=
  match a, b with
  | .staged, .table i => versioned s i
  | .table i, .staged => versioned s i
  | .staged, .policy _ => true
  | .policy _, .staged => true
  | a, b => a == b

/-- A refusal by the sequencer: a reply with the SERIAL just given. -/
def refuse (o : OutCmd) (st off detail : Nat) (s : State) : State :=
  let r : Reply := { tag := o.tag, status := st, opcode := o.opcode, serial := o.serial, permille := (match opInfo o.opcode with
      | some i => if i.prog then 0 else 0xFFFF
      | none => 0xFFFF),
                     rdata := [], errOffset := off, master := masterId o.kind o.sub, cursor := 0, execTs := s.clk.tod, detail := detail }
  deliver o r (countRefused o.kind o.sub st s)

/-- Steps 1 to 5 and 7 of Table 12.4, with what the packet says. -/
def earlyChecks (s : State) (kind : Nat) (p : List Byte) (lenOk : Bool) : Chk :=
  if isSafe s then some (0x33, 0xFFFF, 0)
  else match opInfo (pOpcode p) with
    | none => some (0x10, 0, 0)
    | some i => match firstReserved p 0 headerReserved with
      | some b => some (0x11, b, 0)
      | none => firstBad [
          (leAt p 3 1 ≠ 1, 0x14, 3, leAt p 3 1),
          (pTarget p = 0, 0x14, 8, 0),
          (decide (3 < pPriority p), 0x14, 14, pPriority p),
          (pParamLen p ≠ wordsOf (pOpcode p) i p || !lenOk, 0x12, 10, wordsOf (pOpcode p) i p),
          (!permitted i.kind kind, 0x15, 0, 0)]

/-- The chain members other than this device that a command can be sent to, and the twin (R280, R345). -/
def reachable (s : State) (dev : Nat) : Option Nat :=
  if [0, 1].any (fun n => flag s F.STL_PORT_STAT_UP n 0 && getF s F.STL_PORT_STAT_MODE n 0 == 1
      && (tgetD s.stl.ports n {}).hbDev == dev) then
    (if flag s F.STL_PORT_STAT_UP 0 0 then some 0 else some 1)
  else if s.chain.members.any (fun m => m.dev == dev) then some (chainDir s dev) else none

/-- Forward a packet unchanged to its target (R280, R345) as a KIND 2 frame; for the BMC the command forwarded is the one whose reply code 0x41 returns. -/
def forwardTo (port : Nat) (o : OutCmd) (p : List Byte) (s : State) : State :=
  let f : Forwarded := { kind := o.kind, sub := o.sub, tag := o.tag, target := pTarget p, opcode := o.opcode,
                         since := s.clk.mono, ackReq := o.ackReq, key := 2 ^ 64 + s.chain.sent, port := port, rbuf := o.rbuf, frame := o.frame, nonce := o.nonce }
  chainOut port 2 (chainHeader 2 (chainTtl s) false (devId s) (pTarget p) 0 ++ p)
    { s with chain := { s.chain with forwarded := s.chain.forwarded ++ [f], sent := s.chain.sent + 1 }
             host := if o.kind = 1 then { s.host with bmc := { s.host.bmc with last := some f.key } } else s.host }

/-- A packet that reaches the sequencer (R280, R281, R283): it takes the next SERIAL and is checked in the order of Table 12.4 through step 9; steps 10 to 12 are made where the command executes.  A packet for another member is forwarded without a SERIAL. -/
def sequence (kind sub : Nat) (p : List Byte) (lenOk : Bool) (rbuf : Nat) (frame : List Byte) (nonce : Nat) (s : State) : State :=
  let serial := wide s .CMD_SERIAL 0 2 + 1
  let o : OutCmd := { serial := serial, kind := kind, sub := sub, tag := pTag p, opcode := pOpcode p,
                      idem := bit (pFlags p) 1, ackReq := bit (pFlags p) 0, prog := bit (pFlags p) 2, priority := pPriority p,
                      objs := objsOf (pOpcode p) p, lastInterim := s.clk.mono, rbuf := rbuf, frame := frame, nonce := nonce }
  let s1 := setWide .CMD_SERIAL 0 serial 2 s
  let here := pTarget p = 0xFFF || pTarget p = 0 || pTarget p = devId s
  match earlyChecks s kind p lenOk with
  | some (0x15, off, d) =>
    if here && decide (share kind ≤ (s.cmd.outstanding.filter (fun x => x.kind == kind)).length) then refuse o 0x24 0xFFFF 0 s1
    else refuse o 0x15 off d s1
  | some (st, off, d) => refuse o st off d s1
  | none =>
    if !here then
      match reachable s (pTarget p) with
      | some port => forwardTo port o p s
      | none => refuse o 0x34 8 (pTarget p) s1
    else if share kind ≤ (s.cmd.outstanding.filter (fun x => x.kind == kind)).length then refuse o 0x24 0xFFFF 0 s1
    else match firstReserved p 32 (paramReserved (pOpcode p) p) with
      | some b => refuse o 0x11 b 0 s1
      | none => { s1 with cmd := { s1.cmd with outstanding := s1.cmd.outstanding ++ [o] } }

/-- Take one submission entry of 256 bytes (R286): SQ_HEAD advances, the ring counts it, and its packet reaches the sequencer. -/
def takeEntry (r : Nat) (e : List Byte) (s : State) : State :=
  let size := 2 ^ getF s F.CMD_RING_CFG_SQ_SIZE_LOG2 r 0
  let s1 := setF F.SQ_HEAD_HEAD r 0 ((getF s F.SQ_HEAD_HEAD r 0 + 1) % size) s |> bump .CMD_CNT r 0 1
  sequence 0 r (slice e 0 248) (decide (pParamLen e ≤ 54)) (leAt e 248 8) [] 0 s1

/-- Take entries in ring order up to the one before SQ_TAIL, while the PCIe share has room (R286). -/
def takeEntries (r : Nat) : List (List Byte) → State → State
  | [], s => s
  | e :: es, s =>
    if getF s F.SQ_HEAD_HEAD r 0 = getF s F.SQ_TAIL_TAIL r 0 then s
    else if share 0 ≤ (s.cmd.outstanding.filter (fun x => x.kind == 0)).length then s
    else takeEntries r es (takeEntry r e s)

/-- The command rings are served in the safe state too, where each packet is refused with SAFE_STATE (Table 17.5; log 37). -/
def served (t : Nat) (f : State → State) (s : State) : Res :=
  aon t (fun z => if z.flt.tripped then z else f (attach z)) s

/-- SQ_TAIL_WRITE (R286): host software advances SQ_TAIL of a ring; `entries` are the bytes that the device's reads of the submission array return, from SQ_HEAD on. -/
def execSqTailWrite (t ring tail : Nat) (entries : List (List Byte)) (s : State) : Res :=
  need (decide (ring < 16)) "command ring" ring <| served t (fun s =>
    let s1 := setF F.SQ_TAIL_TAIL ring 0 tail s
    if flag s1 F.CMD_RING_CFG_EN ring 0 then takeEntries ring entries s1 else s1) s

/-- CQ_HEAD_WRITE (R286): host software frees completion entries; final replies that waited are written. -/
def execCqHeadWrite (t ring head : Nat) (s : State) : Res :=
  need (decide (ring < 16)) "command ring" ring <| served t (fun s =>
    let s1 := setF F.CQ_HEAD_HEAD ring 0 head s
    cqDrain ring (cmdRing s1 ring).waiting.length s1) s

/-- Set EN of a command ring from 0 to 1: all four positions 0, PHASE 1 on the first lap (R286, R287). -/
def cmdRingOn (r : Nat) (s : State) : State :=
  setF F.SQ_TAIL_TAIL r 0 0 s |> setF F.SQ_HEAD_HEAD r 0 0 |> setF F.CQ_HEAD_HEAD r 0 0 |> setF F.CQ_TAIL_TAIL r 0 0
    |> setCmdRing r {}

/-- RESET of a command ring (R287): entries not taken are dropped, replies of commands already taken are discarded, EN becomes 0 and RST_DONE 1 (at once in the model, log 10). -/
def cmdRingReset (r : Nat) (s : State) : State :=
  let gone := (cmdRing s r).waiting.map (fun w => w.2.2)
  let outs := (s.cmd.outstanding.filter (fun o => !gone.contains o.serial)).map
    (fun o => if o.kind = 0 ∧ o.sub = r then { o with muted := true } else o)
  setF F.CMD_RING_CFG_EN r 0 0 { s with cmd := { s.cmd with outstanding := outs },
                                         chain := { s.chain with forwarded := s.chain.forwarded.filter (fun f => !(f.kind == 0 && f.sub == r)) } }
    |> setF F.CMD_RING_CFG_RST_DONE r 0 1 |> setCmdRing r {}

/-- A write of a command ring's RING_CFG: RESET first, then EN; the sizes change only while EN = 0 and only to values in range (R287, Table 12.7). -/
def writeCmdRingCfg (r v : Nat) (s : State) : State :=
  let en := flag s F.CMD_RING_CFG_EN r 0
  let s1 := setF F.CMD_RING_CFG_VECTOR r 0 (bits v 16 8) s
  let sz (f : Fld) (z : State) : State := if !en && decide (6 ≤ bits v f.lo 4) && decide (bits v f.lo 4 ≤ 12) then setF f r 0 (bits v f.lo 4) z else z
  let s2 := sz F.CMD_RING_CFG_SQ_SIZE_LOG2 (sz F.CMD_RING_CFG_CQ_SIZE_LOG2 s1)
  if bit v 30 then cmdRingReset r s2
  else if bit v 31 && !en then setF F.CMD_RING_CFG_EN r 0 1 (cmdRingOn r s2)
  else setF F.CMD_RING_CFG_EN r 0 (bits v 31 1) s2

/-- CMD_RING_RESET (R287): a write of RESET = 1. -/
def execCmdRingReset (t ring : Nat) (s : State) : Res :=
  need (decide (ring < 16)) "command ring" ring <| live t (cmdRingReset ring) s

/-! ### BMC and in-band packets -/

/-- BMC_COMMAND_WRITE (R272, R276): code 0x40 submits one packet; a packet written while the previous one is unanswered meets the share of 1 and returns BUSY. -/
def execBmcCommandWrite (t : Nat) (bytes : List Byte) (s : State) : Res :=
  aon t (fun s =>
    if s.flt.tripped then s
    else if isSafe s then emit (.bmcNack 0x40) s
    else
      let serial := wide s .CMD_SERIAL 0 2 + 1
      sequence 1 0 bytes (decide (bytes.length = 32 + 4 * pParamLen bytes)) 0 [] 0
        { s with host := { s.host with bmc := { s.host.bmc with last := some serial, reply := none } } }) s

/-- BMC_REPLY_READ (R272): code 0x41 returns the reply to the last packet of code 0x40, an empty block while there is none (log 11). -/
def execBmcReplyRead (t : Nat) (s : State) : Res :=
  aon t (fun s =>
    if s.flt.tripped then s
    else if isSafe s then emit (.bmcNack 0x41) s
    else emit (.bmc 0x41 (match s.host.bmc.reply with
      | some r => replyBytes r
      | none => [])) s) s

/-- Bytes before the payload of an in-band frame: addresses, at most two VLAN tags, EtherType 0x88B6 (R288); none where it is no such frame. -/
def ibHeaderLen (f : List Byte) : Option Nat :=
  let tag (o : Nat) : Bool := beAt f o 2 = 0x8100 || beAt f o 2 = 0x88A8
  if beAt f 12 2 = 0x88B6 then some 14
  else if tag 12 && beAt f 16 2 = 0x88B6 then some 18
  else if tag 12 && tag 16 && beAt f 20 2 = 0x88B6 then some 22
  else none

/-- An in-band command frame at the engines (R288): authenticated by IB_EN, the port's enable, KEY_GEN and HMAC, then by its NONCE; an accepted frame's packet goes to the sequencer. -/
def inbandRx (port : Nat) (f : List Byte) (s : State) : State :=
  match ibHeaderLen f with
  | none => s
  | some n =>
    let pay := f.drop n
    let body := pay.take (pay.length - 32)
    let mac := leNum (pay.drop (pay.length - 32))
    let nonce := leAt pay 8 8
    if leAt pay 1 1 ≠ 0 ∧ leAt pay 0 1 = 1 then s
    else if leAt pay 0 1 ≠ 1 ∨ !flag s F.IB_CFG_IB_EN 0 0 ∨ !mapBit s .IB_PORT_EN port ∨ s.fuse.keyGen = 0 ∨
        leAt pay 4 4 ≠ s.fuse.keyGen ∨ mac ≠ Config.hmacSha256 s.fuse.ibKey body.length (leNum body) then
      raise0 Ev.CMD_IB_AUTH_FAIL (bump .IB_AUTH_FAIL_CNT 0 0 1 s)
    else if nonce ≤ wide s .IB_NONCE_LAST 0 2 then raise0 Ev.CMD_IB_REPLAY (bump .IB_REPLAY_CNT 0 0 1 s)
    else
      let p := body.drop 16
      sequence 2 port p (decide (p.length = 32 + 4 * pParamLen p)) 0 (f.take n) nonce
        (setWide .IB_NONCE_LAST 0 nonce 2 s)

/-- INBAND_COMMAND_RX (R288): a frame of EtherType 0x88B6 from a front port has reached the engines, which take it from those that action resolve has handed over (R65). -/
def execInbandCommandRx (t port : Nat) (frame : Frame) (s : State) : Res :=
  need (decide (port < 768)) "port" port <| live t (fun s => inbandRx port frame.bytes (takeHanded port frame.bytes s)) s

/-! ### Dispatch and progress -/

/-- Whether a waiting command may be dispatched: no earlier command that overlaps it still holds its objects, and the boot stage allows it (R282, R400). -/
def dispatchable (s : State) (o : OutCmd) : Bool :=
  !o.dispatched && stageAllows s o.opcode &&
    !(s.cmd.outstanding.any (fun e => decide (e.serial < o.serial) && e.holds && e.objs.any (fun a => o.objs.any (overlap s a))))

/-- COMMAND_DISPATCH (R282): an interpreter engine takes the dispatchable command of least PRIORITY, then least SERIAL. -/
def execCommandDispatch (t engine : Nat) (s : State) : Res :=
  need (decide (engine < 64)) "engine" engine <| live t (fun s =>
    if (engState s engine = 1 ∨ engState s engine = 2) ∧ getF s F.ENG_STAT_ROLE engine 0 = 1 ∧ !(tgetD s.eng engine {}).drain then
      match leastBy (fun o => o.priority * 2 ^ 64 + o.serial) (s.cmd.outstanding.filter (dispatchable s)) with
      | none => s
      | some o => modOut o.serial (fun o => { o with dispatched := true, engine := engine }) s
    else s) s

/-- An interim reply of an outstanding command: IN_PROGRESS with its PERMILLE and CURSOR; one that finds the completion ring full is discarded (R278, R286). -/
def interimReply (o : OutCmd) (s : State) : State :=
  let r : Reply := { tag := o.tag, status := 1, opcode := o.opcode, serial := o.serial, permille := o.permille, rdata := [],
                     errOffset := 0xFFFF, master := masterId o.kind o.sub, cursor := o.cursor, execTs := s.clk.tod, detail := 0 }
  let s1 := modOut o.serial (fun o => { o with lastInterim := s.clk.mono, lastPermille := o.permille }) s
  if o.kind = 0 then (if o.muted || cqFull s o.sub || !flag s F.CMD_RING_CFG_EN o.sub 0 then s1 else cqPut o.sub r o.rbuf s1)
  else if o.kind = 1 then emit (.reply 1 0 r) s1
  else linkReply o r 0 s1

/-! ### Opcodes of group 0x00 -/

/-- SYS_INFO (0x0001). -/
def execSysInfo (h : Hdr) (s : State) : Res :=
  runCmd 0x0001 h noChk noCls (fun s =>
    let d := leBytes 4 (reg s .PIPE_IMG_ID 0 0).toNat ++ leBytes 4 (reg s .FW_RUN_VER 0 0).toNat
      ++ leBytes 8 (wide s .CMD_SERIAL 0 2 + 1) ++ leBytes 2 s.cmd.outstanding.length
      ++ leBytes 1 (getF s F.RST_STAT_PROGRESS 0 0) ++ [0] ++ leBytes 2 (devId s) ++ zeros 10
    finish h 0x0001 { data := d } s) s

/-- SYS_NOP (0x0002). -/
def execSysNop (h : Hdr) (s : State) : Res := runCmd 0x0002 h noChk noCls (ok h 0x0002) s

/-- SYS_PROGRESS (0x0003): PERMILLE, OPCODE, SERIAL and CURSOR of the oldest outstanding command that matches TAG and MASTER_ID (R278). -/
def execSysProgress (h : Hdr) (tag master : Nat) (s : State) : Res :=
  runCmd 0x0003 h noChk noCls (fun s =>
    match leastBy OutCmd.serial (s.cmd.outstanding.filter (fun o => o.tag == tag && masterId o.kind o.sub == master)) with
    | none => failWith h 0x0003 0x21 0 s
    | some o =>
      let pm := match opInfo o.opcode with
        | some i => if i.prog then o.permille else 0xFFFF
        | none => 0xFFFF
      finish h 0x0003 { data := leBytes 2 pm ++ leBytes 2 o.opcode ++ zeros 4 ++ leBytes 8 o.serial ++ leBytes 8 o.cursor } s) s

/-- Take or renew a class's lock. -/
def takeLock (h : Hdr) (cls lease : Nat) (s : State) : State :=
  let fresh := !flag s F.LOCK_STAT_HELD cls 0
  let serial := if fresh then h.serial else (tgetD s.cmd.locks cls ⟨h.serial, 0⟩).serial
  let s1 := setF F.LOCK_STAT_HELD cls 0 1 s
  let s2 := if fresh then setF F.LOCK_STAT_HOLDER cls 0 (masterId h.kind h.sub) s1 else s1
  { s2 with cmd := { s2.cmd with locks := tset s2.cmd.locks cls ⟨serial, s.clk.mono + lease * 1000000⟩ } }

/-- End a class's lock. -/
def endLock (cls : Nat) (s : State) : State :=
  let s1 := setF F.LOCK_STAT_HELD cls 0 0 s |> setF F.LOCK_STAT_HOLDER cls 0 0
  { s1 with cmd := { s1.cmd with locks := terase s1.cmd.locks cls } }

/-- End every lock that a master kind holds, for the chain kind of one member (R285). -/
def endLocksOf (p : Nat → Bool) (s : State) : State :=
  (List.range 8).foldl (fun z c => if flag z F.LOCK_STAT_HELD c 0 && p (getF z F.LOCK_STAT_HOLDER c 0) then endLock c z else z) s

/-- OBJ_LOCK (0x0004, R285). -/
def execObjLock (h : Hdr) (cls lease : Nat) (s : State) : Res :=
  runCmd 0x0004 h (fun _ => firstBad [resv (decide (7 < cls)) 0 cls, bad (decide (lease < 1) || decide (60000 < lease)) 4]) noCls (fun s =>
    if flag s F.LOCK_STAT_HELD cls 0 && !sameMaster (getF s F.LOCK_STAT_HOLDER cls 0) (masterId h.kind h.sub) then
      failWith h 0x0004 0x32 (getF s F.LOCK_STAT_HOLDER cls 0) s
    else ok h 0x0004 (takeLock h cls lease s)) s

/-- OBJ_UNLOCK (0x0005, R285). -/
def execObjUnlock (h : Hdr) (cls : Nat) (s : State) : Res :=
  runCmd 0x0005 h (fun _ => firstBad [resv (decide (7 < cls)) 0 cls]) noCls (fun s =>
    if !flag s F.LOCK_STAT_HELD cls 0 then failWith h 0x0005 0x21 0 s
    else if !sameMaster (getF s F.LOCK_STAT_HOLDER cls 0) (masterId h.kind h.sub) then
      failWith h 0x0005 0x32 (getF s F.LOCK_STAT_HOLDER cls 0) s
    else ok h 0x0005 (endLock cls s)) s

/-- One class of OBJ_LOCK_QUERY's reply: holder, 0xFFFF for none, and ms of lease left. -/
def lockRecord (s : State) (c : Nat) : List Byte :=
  if flag s F.LOCK_STAT_HELD c 0 then
    leBytes 2 (getF s F.LOCK_STAT_HOLDER c 0) ++ zeros 2 ++ leBytes 4 (((tgetD s.cmd.locks c ⟨0, 0⟩).expiry - s.clk.mono) / 1000000)
  else leBytes 2 0xFFFF ++ zeros 6

/-- OBJ_LOCK_QUERY (0x0006, R285). -/
def execObjLockQuery (h : Hdr) (s : State) : Res :=
  runCmd 0x0006 h noChk noCls (fun s => finish h 0x0006 { data := (List.range 8).flatMap (lockRecord s) } s) s

/-- LOCK_EXPIRED (R285): a lease ends and the lock with it. -/
def execLockExpired (t cls : Nat) (s : State) : Res :=
  need (decide (cls < 8)) "lock class" cls <| live t (fun s =>
    if flag s F.LOCK_STAT_HELD cls 0 && decide ((tgetD s.cmd.locks cls ⟨0, 0⟩).expiry ≤ s.clk.mono) then
      raise0 Ev.CMD_LOCK_EXPIRED (endLock cls s)
    else s) s

/-- SYS_WARM_RESET (0x0010, R396): the reply is sent, then the warm reset is due (WARM_RESET_START). -/
def execSysWarmReset (h : Hdr) (confirm : Nat) (s : State) : Res :=
  runCmd 0x0010 h (fun _ => firstBad [bad (confirm ≠ 0x57525354) 0]) noCls (fun s =>
    let s1 := ok h 0x0010 s
    { s1 with boot := { s1.boot with warmPending := true } }) s

end Sys2Proof.Machine
end

