-- ==== Sys2Proof/Machine/Ports.lean ====
section
/-! DEFINITION. Port macros, lane drivers and Ethernet ports (Chapter 2): numbering and settings, drivers, what a port is ready for, pause frames, and the timestamp queue. -/

namespace Sys2Proof.Machine

/-! ### Numbering and settings -/

/-- A macro beside its registers. -/
def macRt (s : State) (m : Nat) : MacroRt := tgetD s.port.macs m {}

/-- Set it. -/
def setMacRt (m : Nat) (x : MacroRt) (s : State) : State := { s with port := { s.port with macs := tset s.port.macs m x } }

/-- A port beside its registers. -/
def portRt (s : State) (p : Nat) : PortRt := tgetD s.port.ports p {}

/-- Set it. -/
def setPortRt (p : Nat) (x : PortRt) (s : State) : State := { s with port := { s.port with ports := tset s.port.ports p x } }

/-- Whether a macro is enabled. -/
def macEnabled (s : State) (m : Nat) : Bool := flag s F.MAC_MACRO_CFG_ENABLED m 0

/-- Whether a lane starts a port of an enabled macro (R33). -/
def startsPort (s : State) (p : Nat) : Bool :=
  decide (p < 768) && macEnabled s (p / 8) && bit (getF s F.MAC_MACRO_CFG_PORT_START (p / 8) 0) (p % 8)

/-- Width of the port that starts at a lane under a PORT_START value: up to the lane before the next first lane (R33). -/
def widthAt (start l : Nat) : Nat :=
  match (List.range 8).find? (fun k => decide (l < k) && bit start k) with
  | some k => k - l
  | none => 8 - l

/-- Width of a port in lanes. -/
def portWidth (s : State) (p : Nat) : Nat := widthAt (getF s F.MAC_MACRO_CFG_PORT_START (p / 8) 0) (p % 8)

/-- Lane rate of a macro in Gb/s (Table 2.4). -/
def laneGbps (s : State) (m : Nat) : Nat :=
  match getF s F.MAC_MACRO_CFG_LANE_RATE m 0 with
  | 0 => 50
  | 1 => 100
  | _ => 200

/-- Speed of a port in Gb/s (Table 2.1). -/
def portGbps (s : State) (p : Nat) : Nat := laneGbps s (p / 8) * portWidth s p

/-- A quantum of 512 bit times of a port, in ps. -/
def quantumPs (s : State) (p : Nat) : Nat := 512000 / max (portGbps s p) 1

/-- Physical transmit lanes of a port: logical lane i of the macro on MAC_TXMAP[3i+2:3i] (R38). -/
def txLanes (s : State) (p : Nat) : List Nat :=
  let map := getF s F.MAC_TXMAP_TX_LANE (p / 8) 0
  (List.range (portWidth s p)).map fun i => bits map (3 * (p % 8 + i)) 3

/-- Whether a layout is one that R32 and R33 allow. -/
def layoutOk (start : Nat) : Bool :=
  bit start 0 && decide (start < 256) && (List.range 8).all fun l =>
    !bit start l || (let w := widthAt start l
      (w == 1 || w == 2 || w == 4 || w == 8) && l % w == 0)

/-- Whether a 24-bit lane map is a permutation of 0 to 7 (R38). -/
def permOk (map : Nat) : Bool :=
  (List.range 8).all fun p => (List.range 8).any fun i => bits map (3 * i) 3 == p

/-- Macros the lane licence lets be enabled at one time (Table 0.4, R7). -/
def licensedMacros (s : State) : Nat := 24 * (s.fuse.licence + 1)

/-- Whether a macro is failed (R381). -/
def macFailed (s : State) (m : Nat) : Bool := mapBit s .MACRO_FAILED m

/-- Whether a port is held by the twin state: TWIN_STAT.HELD and DUAL_HOMED in TWIN_DH (R336). -/
def heldPort (s : State) (p : Nat) : Bool := flag s F.TWIN_STAT_HELD 0 0 && mapBit s .TWIN_DH p

/-! ### Drivers (R46, R47, Table 2.10) -/

/-- The TXCTL register of a driver. -/
def drvCtl (mac : Nat) : RegName := if mac < 96 then .LANE_TXCTL else if mac < 100 then .STL_LANE_TXCTL else .STL_REFO_CTL

/-- The register of a driver's TRIP_TOTAL and OC_GLITCH. -/
def drvTrip (mac : Nat) : RegName := if mac < 96 then .LANE_STAT else if mac < 100 then .STL_LANE_TRIP else .STL_REFO_TRIP

/-- The unit number of a driver in its registers. -/
def drvUnit (mac : Nat) : Nat := if mac < 96 then mac else if mac < 100 then mac - 96 else 0

/-- TX_STATE of a driver; STL_REFO is not squelched in the safe state (R326). -/
def drvState (s : State) (mac lane : Nat) : Nat :=
  if isSafe s && decide (mac < 100) then 5 else getF s ⟨drvCtl mac, 8, 3⟩ (drvUnit mac) lane

/-- Set TX_STATE. -/
def setDrv (mac lane st : Nat) (s : State) : State := setF ⟨drvCtl mac, 8, 3⟩ (drvUnit mac) lane st s

/-- RETRY_COUNT of a driver. -/
def drvRetry (s : State) (mac lane : Nat) : Nat := getF s ⟨drvCtl mac, 12, 4⟩ (drvUnit mac) lane

/-- Set RETRY_COUNT. -/
def setRetry (mac lane n : Nat) (s : State) : State := setF ⟨drvCtl mac, 12, 4⟩ (drvUnit mac) lane n s

/-- TX_SQUELCH of a driver. -/
def drvSquelch (s : State) (mac lane : Nat) : Bool := flag s ⟨drvCtl mac, 0, 1⟩ (drvUnit mac) lane

/-- A driver beside its registers. -/
def laneRt (s : State) (mac lane : Nat) : LaneRt := tgetD s.port.lanes (mac, lane) {}

/-- Set it. -/
def setLaneRt (mac lane : Nat) (x : LaneRt) (s : State) : State :=
  { s with port := { s.port with lanes := tset s.port.lanes (mac, lane) x } }

/-- Whether a driver exists. -/
def drvExists (mac lane : Nat) : Bool := decide (mac < 100) && decide (lane < 8) || (mac == 100 && lane == 0)

/-- The port whose transmit lanes include a physical lane of a macro, if any. -/
def portOfLane (s : State) (mac lane : Nat) : Option Nat :=
  (List.range 8).findSome? fun l =>
    if startsPort s (8 * mac + l) && (txLanes s (8 * mac + l)).contains lane then some (8 * mac + l) else none

/-- Whether a driver's port is enabled with its SerDes awake, and not held: Ethernet ports by their macro, Stretcher ports by their own enable, STL_REFO by REFO_EN and the PLL's lock (R46, R318, R326, R336). -/
def drvEnabled (s : State) (mac lane : Nat) : Bool :=
  if mac < 96 then
    macEnabled s mac && (macRt s mac).powered && !macFailed s mac &&
      (match portOfLane s mac lane with
        | some p => !heldPort s p
        | none => false)
  else if mac < 100 then (tgetD s.stl.ports (mac - 96) {}).enabled && (tgetD s.stl.ports (mac - 96) {}).awake && flag s F.STL_REF_REF_LOCK 0 0
    && decide (lane < 2 ^ getF s F.STL_PORT_STAT_LANES (mac - 96) 0)
  else flag s F.STL_REF_REFO_EN 0 0 && flag s F.STL_REF_REF_LOCK 0 0

/-- A driver that is OFF with its port enabled and TX_SQUELCH = 0 enters RAMP. -/
def drvStart (mac lane : Nat) (s : State) : State :=
  if drvState s mac lane = 0 ∧ drvEnabled s mac lane ∧ !drvSquelch s mac lane then
    setLaneRt mac lane { laneRt s mac lane with rampAt := s.clk.mono } (setDrv mac lane 1 s)
  else s

/-- A driver goes to OFF. -/
def drvOff (mac lane : Nat) (s : State) : State := if drvState s mac lane = 5 then s else setDrv mac lane 0 s

/-! ### Port state -/

/-- Whether every lane of a port is ON (R48). -/
def lanesOn (s : State) (p : Nat) : Bool := (txLanes s p).all fun q => drvState s (p / 8) q == 2

/-- Whether a port uses auto-negotiation. -/
def anOn (s : State) (p : Nat) : Bool :=
  match (macRt s (p / 8)).cfg with
  | some c => bit c.anEn (p % 8)
  | none => false

/-- Whether link training runs on a port: CR and KR types, that is REACH other than chip-to-module (Table 2.7). -/
def trains (s : State) (p : Nat) : Bool := getF s F.MAC_MACRO_CFG_REACH (p / 8) 0 ≠ 0

/-- Whether a port is in link training: all lanes ON, negotiation done where it is on, training not done (R43, R48). -/
def inTraining (s : State) (p : Nat) : Bool :=
  startsPort s p && trains s p && lanesOn s p && (!anOn s p || (portRt s p).anDone) && !(portRt s p).ltDone

/-- Whether the PCS may align: lanes ON, negotiation and training done where they run (R48), and the port not held down for want of TCAM rows (R121). -/
def pcsReady (s : State) (p : Nat) : Bool :=
  startsPort s p && lanesOn s p && !macFailed s (p / 8) && !s.tbl.scopeMoves.any (fun x => x.1 == p) &&
    (!trains s p || ((!anOn s p || (portRt s p).anDone) && (portRt s p).ltDone))

/-! ### PAUSE and PFC (R49 to R52) -/

/-- FLOW_MODE of a port. -/
def flowMode (s : State) (p : Nat) : Nat := getF s F.PORT_FLOW_FLOW_MODE (p / 8) (p % 8)

/-- QUANTA as sent: 0 is treated as 1 (Table 2.13). -/
def pfcQuanta (s : State) (p : Nat) : Nat := max 1 (getF s F.PORT_PFC_TIME_QUANTA (p / 8) (p % 8))

/-- The resend interval in quanta: QUANTA / 2 where REFRESH is QUANTA or more, never less than one (R49, Table 2.13). -/
def pfcRefresh (s : State) (p : Nat) : Nat :=
  let r := getF s F.PORT_PFC_TIME_REFRESH (p / 8) (p % 8)
  max 1 (if pfcQuanta s p ≤ r then pfcQuanta s p / 2 else r)

/-- A MAC control frame as sent (R49), padded to 60 bytes: destination 01-80-C2-00-00-01, EtherType 0x8808, and for PFC opcode 0x0101, the class-enable vector and eight times, for PAUSE opcode 0x0001 and one time.  The spec gives no source address: a free value of the port (place 1409). -/
def pauseBytes (p : Nat) (f : PauseFrame) : List Byte :=
  let time (c : Nat) : Nat := match f.times.find? (fun x => x.1 == c) with
    | some x => x.2
    | none => 0
  let body := if f.pfc then beBytes 2 0x0101 ++ beBytes 2 (f.times.foldl (fun m x => putBit m x.1 true) 0) ++ (List.range 8).flatMap (fun c => beBytes 2 (time c))
    else beBytes 2 0x0001 ++ beBytes 2 (time 0)
  let f := beBytes 6 0x0180C2000001 ++ beBytes 6 (Config.freeValue 1409 p) ++ beBytes 2 0x8808 ++ body
  f ++ zeros (60 - f.length)

/-- Queue a MAC control frame; PFC classes that change in one clock share one frame (R49). -/
def queuePause (p : Nat) (f : PauseFrame) (s : State) : State :=
  let r := portRt s p
  match r.toSend.getLast? with
  | some l =>
    if l.pfc && f.pfc && l.made == f.made then
      setPortRt p { r with toSend := r.toSend.dropLast ++ [{ l with times := l.times.filter (fun x => !f.times.any (fun y => y.1 == x.1)) ++ f.times }] } s
    else setPortRt p { r with toSend := r.toSend ++ [f] } s
  | none => setPortRt p { r with toSend := [f] } s

/-- The Palette asserts or releases pause for a class of a port toward its sender (R49): PAUSED_TX shows it, and the frame of the port's mode is queued. -/
def pauseTx (p c : Nat) (on : Bool) (s : State) : State :=
  let old := getF s F.PORT_STAT_PAUSED_TX (p / 8) (p % 8)
  let new := putBit old c on
  if old = new then s
  else
    let s1 := setF F.PORT_STAT_PAUSED_TX (p / 8) (p % 8) new s
    let time := if on then pfcQuanta s p else 0
    let mark (k : Nat) (z : State) : State := setPortRt p { portRt z p with announced := tset (portRt z p).announced k (z.clk.mono * 1000) } z
    if flowMode s p = 2 then
      if bit (getF s F.PORT_FLOW_PFC_TX_EN (p / 8) (p % 8)) c then mark c (queuePause p ⟨true, s.clk.mono, [(c, time)]⟩ s1) else s1
    else if flowMode s p = 1 then
      if on then mark 8 (queuePause p ⟨false, s.clk.mono, [(0, time)]⟩ s1)
      else if new = 0 then queuePause p ⟨false, s.clk.mono, [(0, 0)]⟩ s1 else s1
    else s1

/-- Whether a front port's MAC may begin a frame other than a MAC control frame: none of its own is in transmission and no control frame waits (R50). -/
def macIdle (s : State) (p : Nat) : Bool := (portRt s p).toSend.isEmpty && !s.pal.copies.any (fun c => c.port == p && c.phase = .sending)

/-- PFC_FRAME_TX (R49, R50): the port's next MAC control frame is sent, behind a frame already begun and ahead of every other. -/
def execPfcFrameTx (t port : Nat) (s : State) : Res :=
  need (decide (port < 768)) "port" port <| live t (fun s =>
    match (portRt s port).toSend with
    | [] => s
    | f :: rest =>
      if portIsUp s port && !s.pal.copies.any (fun c => c.port == port && c.phase = .sending) then
        emit (.pause port (pauseBytes port f)) (addCtr 1 port 9 1 (setPortRt port { portRt s port with toSend := rest } s))
      else s) s

/-- Whether an announcement of a place of `announced` (a class, or 8 for PAUSE mode) is due again (R49). -/
def announceDue (s : State) (p k : Nat) : Bool :=
  decide (tgetD (portRt s p).announced k (s.clk.mono * 1000) + pfcRefresh s p * quantumPs s p ≤ s.clk.mono * 1000)

/-- The places of `announced` are announced now. -/
def announce (p : Nat) (ks : List Nat) (s : State) : State :=
  setPortRt p { portRt s p with announced := ks.foldl (fun a k => tset a k (s.clk.mono * 1000)) (portRt s p).announced } s

/-- PFC_REFRESH (R49): in PFC mode the classes still paused whose REFRESH interval has passed are announced again; in PAUSE mode the one PAUSE frame is, while any class stays paused. -/
def execPfcRefresh (t port : Nat) (s : State) : Res :=
  need (decide (port < 768)) "port" port <| live t (fun s =>
    let paused := getF s F.PORT_STAT_PAUSED_TX (port / 8) (port % 8)
    if flowMode s port = 2 then
      let cs := (List.range 8).filter fun c => bit paused c && bit (getF s F.PORT_FLOW_PFC_TX_EN (port / 8) (port % 8)) c && announceDue s port c
      if cs.isEmpty then s else announce port cs (queuePause port ⟨true, s.clk.mono, cs.map (fun c => (c, pfcQuanta s port))⟩ s)
    else if flowMode s port = 1 && paused ≠ 0 && announceDue s port 8 then
      announce port [8] (queuePause port ⟨false, s.clk.mono, [(0, pfcQuanta s port)]⟩ s)
    else s) s

/-- Start or end a received pause timer of a class (R51). -/
def pauseRx (p c quanta : Nat) (s : State) : State :=
  let r := portRt s p
  let old := getF s F.PORT_STAT_PAUSED_RX (p / 8) (p % 8)
  if quanta = 0 then
    setF F.PORT_STAT_PAUSED_RX (p / 8) (p % 8) (putBit old c false)
      (setPortRt p { r with pauseRx := terase r.pauseRx c, pausedSince := terase r.pausedSince c } s)
  else
    setF F.PORT_STAT_PAUSED_RX (p / 8) (p % 8) (putBit old c true)
      (setPortRt p { r with pauseRx := tset r.pauseRx c (s.clk.mono * 1000 + quanta * quantumPs s p),
                            pausedSince := if bit old c then r.pausedSince else tset r.pausedSince c s.clk.mono,
                            lastPause := tset r.lastPause c s.clk.mono } s)

/-- What a received MAC control frame does to a port that is up (R51, R52): a PFC frame in PFC mode acts on its enabled classes with PFC_RX_EN, a PAUSE frame in PAUSE mode on every class; any other MAC control frame is discarded and counted. -/
def macControl (port opcode enable : Nat) (quanta : List Nat) (s : State) : State :=
  let s := addCtr 1 port 5 1 s
  if opcode = 0x0101 ∧ flowMode s port = 2 then
    (List.range 8).foldl (fun z c =>
      if bit enable c && bit (getF s F.PORT_FLOW_PFC_RX_EN (port / 8) (port % 8)) c then pauseRx port c ((quanta[c]?).getD 0) z else z) s
  else if opcode = 0x0001 ∧ flowMode s port = 1 then
    (List.range 8).foldl (fun z c => pauseRx port c ((quanta[0]?).getD 0) z) s
  else bumpSat F.PORT_STAT_CTRL_DISCARD (port / 8) (port % 8) 1 s

/-! ### Timestamp queue (R56) -/

/-- A MAC_TS_POP entry as its 128-bit value (Table 2.17). -/
def tsPopValue (c : TsCap) : Nat := 2 ^ 127 + c.lane % 8 * 2 ^ 112 + c.tag % 2 ^ 16 * 2 ^ 64 + c.time % 2 ^ 64

/-- The oldest entry's value; VALID = 0 where the queue is empty. -/
def tsPopHead (s : State) (m : Nat) : Nat :=
  match (macRt s m).caps with
  | c :: _ => tsPopValue c
  | [] => 0

/-- Remove the oldest entry. -/
def tsPopDrop (m : Nat) (s : State) : State := setMacRt m { macRt s m with caps := (macRt s m).caps.drop 1 } s

/-- A capture of a transmit timestamp: discarded with PTP_FIFO_OVF where 64 entries are held. -/
def tsCapture (m : Nat) (c : TsCap) (s : State) : State :=
  if 64 ≤ (macRt s m).caps.length then raise Ev.MAC_PTP_FIFO_OVF m 0 s
  else setMacRt m { macRt s m with caps := (macRt s m).caps ++ [c] } s

end Sys2Proof.Machine
end

