-- ==== Sys2Proof/Machine/Fifo.lean ====
section
/-! DEFINITION. Sources and ingress FIFOs: the attachment of each source to an ingress pipeline (R15 to R18), admission of a frame to a FIFO by its class (R182), and pause from a FIFO's fill or a priority group (R183). -/

namespace Sys2Proof.Machine

/-- Ports of the numbering of Table 1.2: 0 to 767 front ports, 768 to 771 SL0 to SL3, 772 the host path. -/
def hostSrc : Nat := 772

/-- The pipeline number a source is attached to: a front port's macro (R15), or GLB_SRC_MAP0 and GLB_SRC_MAP1 (R16). -/
def attachedPipe (s : State) (src : Nat) : Nat :=
  if src < 768 then src / 24
  else if src < 772 then bits (reg s .GLB_SRC_MAP0 0 0).toNat (8 * (src - 768)) 5
  else getF s F.GLB_SRC_MAP1_HOST_PIPE 0 0

/-- The pipeline that serves a pipeline's sources in a direction (0 ingress, 1 egress): itself, or while it is quarantined the one SERVED_BY names (R18, R378). -/
def servingPipe (s : State) (dir pipe : Nat) : Nat :=
  if flag s F.PIPE_STAT_QUARANTINED pipe dir then getF s F.PIPE_STAT_SERVED_BY pipe dir % 32 else pipe

/-- The pipeline a source 768 to 772 is moving from, while its attachment moves (R17). -/
def movingFrom (s : State) (src : Nat) : Option Nat := if src < 768 then none else tget s.port.srcOld (src - 768)

/-- The pipeline number of a port or source, before quarantine: while its attachment moves, the pipeline it is moving from (R17). -/
def homePipe (s : State) (port : Nat) : Nat := (movingFrom s port).getD (attachedPipe s port)

/-- The ingress pipeline a source's traffic enters. -/
def ingressPipe (s : State) (src : Nat) : Nat := servingPipe s 0 (homePipe s src)

/-- The egress pipeline through which traffic to a port leaves (R16, R121). -/
def egressPipe (s : State) (port : Nat) : Nat := servingPipe s 1 (homePipe s port)

/-- Whether a direction of a port's or source's traffic is between two pipelines: its pipeline is quarantined and its scoped rows are not yet in the sibling, or no sibling is left (R121, R378). -/
def betweenPipes (s : State) (dir port : Nat) : Bool :=
  s.flt.copying.contains (32 * dir + homePipe s port) || s.tbl.scopeMoves.contains (port, dir) ||
    flag s F.PIPE_STAT_QUARANTINED (servingPipe s dir (homePipe s port)) dir

/-! ### Classes of a frame -/

/-- The tags at the front of a frame and the EtherType after at most two of them (Table 7.9). -/
def outerTags (f : List Byte) : Nat × Nat :=
  let tag (o : Nat) : Bool := beAt f o 2 == 0x8100 || beAt f o 2 == 0x88A8
  if tag 12 then (if tag 16 then (2, beAt f 20 2) else (1, beAt f 16 2)) else (0, beAt f 12 2)

/-- Whether a frame is CONTROL (Table 7.9). -/
def isControl (f : List Byte) : Bool :=
  decide (beAt f 0 6 / 16 = 0x0180C200000) || [0x88B5, 0x88B6, 0x88F7, 0x8809].contains (outerTags f).2

/-- ICLASS of a frame of a front port or the host path (R178). -/
def frameIclass (s : State) (src : Nat) (f : List Byte) : Nat :=
  let tags := outerTags f
  if tags.1 ≠ 0 then beAt f 14 1 / 32
  else if flag s F.PORT_ADM_DSCP_CLASS src 0 && tags.2 == 0x0800 then beAt f 15 1 / 32
  else if flag s F.PORT_ADM_DSCP_CLASS src 0 && tags.2 == 0x86DD then bits (beAt f 14 2) 9 3
  else getF s F.PORT_ADM_UNTAGGED_CLASS src 0

/-- UP of a Stretcher port. -/
def stlUp (s : State) (n : Nat) : Bool := flag s F.STL_PORT_STAT_UP n 0

/-- Whether a Stretcher port is down for R45 and R196: neither UP nor in RESIZE (R322). -/
def stlIsDown (s : State) (n : Nat) : Bool := !stlUp s n && !flag s F.STL_PORT_STAT_RESIZE n 0

/-- Whether a frame of a source and ICLASS is lossless (R178, R179, R317). -/
def isLossless (s : State) (src iclass : Nat) (control : Bool) : Bool :=
  !control &&
    (if src < 768 then
      (flowMode s src == 2 && bit (getF s F.PORT_FLOW_PFC_TX_EN (src / 8) (src % 8)) iclass) || flowMode s src == 1
    else if src < 772 then bit (getF s F.STL_PORT_CTL_LL_CLASS (src - 768) 0) iclass
    else bit (getF s F.HOST_FLOW_LL_CLASS 0 0) iclass)

/-- A frame as its MAC and EtherType fields stand: a frame of a Stretcher port in chain mode without the 16-byte chain header before it (R342). -/
def chainBody (s : State) (port : Nat) (f : List Byte) : List Byte :=
  if 768 ≤ port ∧ port < 772 ∧ getF s F.STL_PORT_STAT_MODE (port - 768) 0 = 2 then f.drop 16 else f

/-- ADM_CLASS (Table 7.9): 0 LOSSY, 1 LOSSLESS, 2 CONTROL. -/
def admClass (s : State) (src iclass : Nat) (f : List Byte) : Nat :=
  if isControl (chainBody s src f) then 2 else if isLossless s src iclass false then 1 else 0

/-! ### Pause -/

/-- Whether a class of a front port is to be paused: a PG's XOFF or its pipeline's FIFO ask for it (R180, R183). -/
def pauseWanted (s : State) (p c : Nat) : Bool :=
  flag s F.PG_STAT1_XOFF p c ||
    (flag s F.FIFO_STAT_FIFO_PAUSE (ingressPipe s p) 0 &&
      ((flowMode s p == 2 && bit (getF s F.PORT_FLOW_PFC_TX_EN (p / 8) (p % 8)) c) || flowMode s p == 1))

/-- Bring a port's pause state in line with what is wanted. -/
def updatePause (p c : Nat) (s : State) : State := pauseTx p c (pauseWanted s p c) s

/-- Bring every class of every port that a pipeline serves in line (R183). -/
def updatePipePause (pipe : Nat) (s : State) : State :=
  (List.range 768).foldl (fun z p =>
    if startsPort z p && ingressPipe z p == pipe then (List.range 8).foldl (fun y c => updatePause p c y) z else z) s

/-- Whether a Stretcher port is to send XOFF (R317). -/
def stlXoffWanted (s : State) (n : Nat) : Bool :=
  flag s F.FIFO_STAT_FIFO_PAUSE (ingressPipe s (768 + n)) 0 ||
    (List.range 8).any fun c => flag s F.PG_STAT1_XOFF (768 + n) c

/-- Whether a staged frame of a class on the host path is held back (R179): by the XOFF of its PG, or, a class set in LL_CLASS, by the FIFO's pause. -/
def hostPaused (s : State) (c : Nat) : Bool :=
  flag s F.PG_STAT1_XOFF hostSrc c ||
    (flag s F.FIFO_STAT_FIFO_PAUSE (ingressPipe s hostSrc) 0 && bit (getF s F.HOST_FLOW_LL_CLASS 0 0) c)

/-! ### The FIFO -/

/-- The entries of a FIFO, oldest first. -/
def fifo (s : State) (pipe : Nat) : List FifoEnt := tgetD s.pal.fifo pipe []

/-- Set them. -/
def setFifo (pipe : Nat) (l : List FifoEnt) (s : State) : State := { s with pal := { s.pal with fifo := tset s.pal.fifo pipe l } }

/-- Limit of an admission class; every class may fill the FIFO while its pipeline wakes (R182, Table 7.9). -/
def fifoLimit (s : State) (pipe cls : Nat) : Nat :=
  if (tget s.pal.waking pipe).isSome then 65536
  else if cls = 0 then 49152 else if cls = 1 then 61440 else 65536

/-- The FIFO's pause after a change of its fill (R183): asserted at 40,960 bytes, released at 32,768. -/
def fifoPause (pipe : Nat) (s : State) : State :=
  let level := getF s F.FIFO_STAT_LEVEL pipe 0
  let on := flag s F.FIFO_STAT_FIFO_PAUSE pipe 0
  if !on && decide (40960 ≤ level) then updatePipePause pipe (setF F.FIFO_STAT_FIFO_PAUSE pipe 0 1 s)
  else if on && decide (level ≤ 32768) then updatePipePause pipe (setF F.FIFO_STAT_FIFO_PAUSE pipe 0 0 s)
  else s

/-- A FIFO's fill. -/
def setLevel (pipe level : Nat) (s : State) : State := fifoPause pipe (setF F.FIFO_STAT_LEVEL pipe 0 level s)

/-- Offer a frame to a FIFO (R182): it enters within its class's limit, or is refused and counted in its class alone. -/
def fifoOffer (pipe : Nat) (e : FifoEnt) (s : State) : State :=
  let level := getF s F.FIFO_STAT_LEVEL pipe 0
  if level + e.len ≤ fifoLimit s pipe e.admClass then
    setLevel pipe (level + e.len) (setFifo pipe (fifo s pipe ++ [e]) s)
  else bump (if e.admClass = 0 then .FIFO_DROP_LOSSY else if e.admClass = 1 then .FIFO_DROP_LOSSLESS else .FIFO_DROP_CONTROL) pipe 0 1 s

/-- A frame of a source that is offered to its pipeline, with its receive timestamp; while the source's attachment moves, it is held until the marker has left (R17); between a quarantine and its TCAM copy it is discarded and counted in QUAR_RX_DROP (R378). -/
def offer (src iclass : Nat) (f : List Byte) (ended : Bool) (ts : Nat) (s : State) : State :=
  let e : FifoEnt := { id := s.pal.nextId, frame := f, len := f.length + 4, ended := ended, tailBad := false, src := src,
                       admClass := admClass s src iclass f, iclass := iclass, ts := ts % 2 ^ 64, tsMono := s.clk.mono, marker := false }
  let s1 := { s with pal := { s.pal with nextId := s.pal.nextId + 1 } }
  if betweenPipes s 0 src then bump .QUAR_RX_DROP 0 0 1 s
  else if (movingFrom s src).isSome then
    { s1 with port := { s1.port with srcHeld := tmod s1.port.srcHeld (src - 768) [] (· ++ [e]) } }
  else fifoOffer (ingressPipe s src) e s1

end Sys2Proof.Machine
end

