-- ==== Sys2Proof/Machine/ImageCheck.lean ====
section
/-! DEFINITION. The pipeline image: the loader's checks (R60, R64, R71, R74, R78, R79, R82, R84, R85, R114) and its installation in the registers that show it. -/

namespace Sys2Proof.Machine

/-- The stages of a direction (R74). -/
def stageCount (egress : Bool) : Nat := if egress then 8 else 14

/-- An exact-match table keeps within R84 and R85. -/
def exactDefOk (d : ExactDef) : Bool :=
  decide (d.id < 48) && decide (d.stage < stageCount d.egress) && d.blocks % 2 == 0 && decide (2 ≤ d.blocks) && decide (d.blocks ≤ 32)
    && (d.entryBytes == 16 || d.entryBytes == 32) && decide (1 ≤ d.keyLen) && decide (d.keyLen ≤ 16)
    && decide (d.keyLen + d.dataLen ≤ d.entryBytes - 4) && (!d.learnable || !d.versioned) && (!d.ageable || !d.versioned)
    && (match d.destLo with
      | some lo => !d.versioned && decide (lo + 12 ≤ 8 * d.dataLen)
      | none => true) && decide (d.seed < 2 ^ 32)

/-- An LPM table keeps within R84 and has blocks (R74). -/
def lpmDefOk (d : LpmDef) : Bool := decide (48 ≤ d.id) && decide (d.id ≤ 55) && decide (1 ≤ d.blocks)

/-- A policy table keeps within R114, R117 and R118. -/
def policyDefOk (d : PolicyDef) : Bool :=
  decide (d.id < 32) && decide (d.stage < stageCount d.egress) && decide (1 ≤ d.profile) && decide (d.profile ≤ 3)
    && d.slices % 2 ^ (d.profile - 1) == 0 && decide (1 ≤ d.slices) && decide (d.slices ≤ (if d.egress then 4 else 16))
    && (!d.egress || d.profile == 1) && decide (d.gmasks.length ≤ 8) && decide (d.rangePos.length ≤ 4)
    && (d.profile == 3 || d.rangePos.isEmpty)

/-- No two members of a list are equal. -/
def distinct (l : List Nat) : Bool := l.length == (l.foldl (fun acc x => if acc.contains x then acc else x :: acc) []).length

/-- A word of a node. -/
def nodeWord (w : List Nat) (k : Nat) : Nat := (w[k]?).getD 0

/-- Whether a node of the list is present with NODE_VALID = 1. -/
def nodeValid (nodes : List (Nat × List Nat)) (n : Nat) : Bool :=
  match nodes.find? (fun p => p.1 == n) with
  | some p => bit (nodeWord p.2 0) 31
  | none => false

/-- A node keeps within R71 and Table 3.8.  The checks of a match entry's KIND, MATCH_VALUE and GOTO are made on entries with ENTRY_VALID = 1 only: R71 names no exemption, but an entry not in use has no outcome (DESIGN CHOICE, log 72). -/
def nodeOk (nodes : List (Nat × List Nat)) (p : Nat × List Nat) : Bool :=
  let w := nodeWord p.2
  if !bit (w 0) 31 then true
  else
    decide (p.1 < 256) && p.2.length == 64 && bits (w 0) 29 2 ≠ 3 && bits (w 0) 8 5 == 0 && decide (bits (w 1) 30 2 < 2) && bits (w 1) 0 13 == 0
      && bits (w 2) 29 2 == 0 && bits (w 2) 9 15 == 0 && w 19 == 0
      && (List.range 12).all (fun k => w (52 + k) == 0)
      && (bits (w 0) 29 2 ≠ 1 || nodeValid nodes (bits (w 0) 0 8))
      && (List.range 16).all (fun k =>
        let x := w (3 + k)
        bits x 23 6 == 0 && bits x 8 8 == 0 && (!bit x 31 || decide (16 ≤ bits x 16 7)))
      && (List.range 16).all (fun k =>
        let e := w (36 + k)
        bits e 10 21 == 0 && (!bit e 31 || (bits e 8 2 ≠ 3 && decide (w (20 + k) < 2 ^ (bits (w 0) 24 5 + 1))
          && (bits e 8 2 ≠ 1 || nodeValid nodes (bits e 0 8)))))

/-- An entry point keeps within Table 3.7.  An enabled entry whose START_NODE has NODE_VALID = 0 is refused: the spec states neither a refusal nor an effect (DESIGN CHOICE, log 72). -/
def entryOk (nodes : List (Nat × List Nat)) (e : Nat) : Bool :=
  !bit e 31 || (decide (bits e 28 3 ≤ 5) && bits e 24 4 == 0 && nodeValid nodes (bits e 16 8))

/-! ### The program of an image -/

/-- Whether Table 3.3 offers a bit field of a header to extraction: each entry is the field's first bit and width in its header. -/
def offered (valid : Nat) : List (Nat × Nat) :=
  if valid = 18 then [(0, 32), (32, 32), (64, 32), (96, 32)]
  else if valid = 0 then [(0, 48), (48, 48), (96, 16)]
  else if valid ≤ 2 then [(0, 3), (3, 1), (4, 12), (16, 16)]
  else if valid ≤ 6 then [(0, 20), (20, 3), (23, 1), (24, 8)]
  else if valid = 7 then [(8, 6), (14, 2), (16, 16), (32, 16), (48, 3), (51, 13), (64, 8), (72, 8), (96, 32), (128, 32)]
  else if valid = 8 then [(4, 8), (12, 20), (32, 16), (48, 8), (56, 8), (64, 128), (192, 128)]
  else if valid = 9 ∨ valid = 10 then [(0, 8), (8, 8), (16, 13), (31, 1)]
  else if valid = 11 then [(0, 16), (16, 16), (32, 16), (48, 16)]
  else if valid = 12 then [(0, 16), (16, 16), (32, 32), (64, 32), (96, 4), (104, 8), (112, 16)]
  else if valid = 13 then [(0, 8), (8, 8)]
  else if valid = 14 then [(0, 8), (32, 24)]
  else if valid = 15 then [(0, 2), (2, 6), (8, 1), (9, 1), (16, 16), (32, 24)]
  else if valid = 17 then [(0, 16), (16, 5), (21, 4), (25, 7), (32, 24)]
  else []

/-- A field lies within the PHV (R60). -/
def fieldOk (f : PhvField) : Bool :=
  decide (1 ≤ f.width) && decide (f.lo < 32) && (decide (f.lo + f.width ≤ 32) || decide (32 < f.width)) && decide (f.cont + cdiv (f.lo + f.width) 32 ≤ 128)

/-- A field lies in the containers that belong to the program (R60). -/
def ownField (f : PhvField) : Bool := fieldOk f && decide (16 ≤ f.cont)

/-- How many bits a list of fields has. -/
def fieldBits (fs : List PhvField) : Nat := fs.foldl (fun a f => a + f.width) 0

/-- A list of fields keeps within the PHV and within a number of whole bytes. -/
def fieldsOk (bytes : Nat) (fs : List PhvField) : Bool := fs.all fieldOk && fieldBits fs % 8 == 0 && decide (fieldBits fs ≤ 8 * bytes)

/-- An ALU source keeps within the PHV. -/
def aluSrcOk : AluSrc → Bool
  | .phv f => fieldOk f
  | .const _ => true
  | .data lo w => decide (lo + w ≤ 128)

/-- Instructions keep within R75: 32 ALUs, each once, each writing one container or one 16-bit or 8-bit part of it. -/
def insOk (is : List AluIns) : Bool :=
  distinct (is.map (·.alu)) && is.all (fun i => decide (i.alu < 32) && fieldOk i.dst && (i.dst.width == 8 || i.dst.width == 16 || i.dst.width == 32)
    && i.dst.lo % i.dst.width == 0 && aluSrcOk i.a && aluSrcOk i.b)

/-- A hash unit keeps within R78 and R79. -/
def hashOk (u : HashUse) : Bool :=
  fieldsOk 64 u.key && fieldOk u.out && decide (u.pairs.length ≤ 4) && (match u.seed with
    | some n => decide (n < 2 ^ 32)
    | none => true)
    && u.pairs.all (fun p => match u.key[p.1]?, u.key[p.2]? with
      | some a, some b => a.width == b.width && p.1 ≠ p.2
      | _, _ => false)
    && distinct (u.pairs.map (·.1) ++ u.pairs.map (·.2))

/-- A policer or counter use keeps within the PHV. -/
def indexOk (u : IndexUse) : Bool := fieldOk u.index && decide (u.code < 256) && (match u.gate with
  | some g => fieldOk g
  | none => true)

/-- How many stages an LPM table's steps take (R109). -/
def lpmSpan (im : Image) (id : Nat) : Nat := match im.lpm.find? (fun d => d.id == id) with
  | some d => if d.v6 then 6 else 3
  | none => 1

/-- A stage keeps within Table 3.11, and its lookups and searches name tables that the image binds to it. -/
def stageOk (im : Image) (egress : Bool) (k : Nat) (st : StageProg) : Bool :=
  decide (st.exact.length ≤ (if egress then 1 else 2)) && (st.lpm.isEmpty || !egress) && decide (st.hash.length ≤ 2) && decide (st.counters.length ≤ 2)
    && st.exact.all (fun u => im.exact.any (fun d => d.id == u.table && d.stage == k && d.egress == egress && decide (fieldBits u.key ≤ 8 * d.keyLen))
      && fieldsOk 16 u.key && insOk u.hit && insOk u.miss)
    && st.lpm.all (fun u => im.lpm.any (fun d => d.id == u.table) && u.key.all fieldOk && decide (k + lpmSpan im u.table ≤ 14) && insOk u.hit && insOk u.miss)
    && (match st.tcam with
      | some u => im.policy.any (fun d => d.id == u.table && d.stage == k && d.egress == egress
          && u.key.all (fun x => decide (x.2 + x.1.width ≤ 80 * 2 ^ d.profile))) && u.key.all (fun x => fieldOk x.1)
          && (match u.gsel with
            | some g => fieldOk g && g.width == 3
            | none => true)
          && u.actions.all (fun a => decide (a.1 < 256) && insOk a.2) && insOk u.miss
      | none => true)
    && st.hash.all hashOk && st.counters.all indexOk && (match st.policer with
      | some u => indexOk u
      | none => true)

/-- The LPM steps of a program at a stage: at most one per packet (Table 3.11). -/
def lpmStepsAt (im : Image) (k : Nat) : Nat :=
  ((im.prog.ingress.zipIdx).map (fun x => (x.1.lpm.filter (fun u => decide (x.2 ≤ k) && decide (k < x.2 + lpmSpan im u.table))).length)).foldl (· + ·) 0

/-- Extractions keep within Table 3.3 and write the program's containers. -/
def extractsOk (xs : List ExtractUse) (os : List OptionUse) : Bool :=
  xs.all (fun x => ownField x.dst && (offered x.valid).contains (x.bit, x.dst.width)) && decide (os.length ≤ 4)
    && os.all (fun x => ownField x.dst && x.dst.width == 64 && decide (x.cls < 2 ^ 16) && decide (x.typ < 256))

/-- The program of an image keeps within what a pipeline has (R60, R63, R64, R74, R78, R79, R82, R98, R210). -/
def programOk (im : Image) : Bool :=
  let p := im.prog
  decide (p.ingress.length ≤ 14) && decide (p.egress.length ≤ 8)
    && (p.ingress.zipIdx).all (fun x => stageOk im false x.2 x.1) && (p.egress.zipIdx).all (fun x => stageOk im true x.2 x.1)
    && (List.range 14).all (fun k => decide (lpmStepsAt im k ≤ 1))
    && extractsOk p.inExtract p.inOptions && extractsOk p.egExtract p.egOptions
    && p.bridged.length == 4 && p.bridged.all (fun k => decide (16 ≤ k) && decide (k < 128))
    && p.learn.all (fun u => im.exact.any (fun d => d.id == u.table && d.learnable) && u.key.all fieldOk && u.data.all fieldOk)
    && p.emit.all (fun e => decide (e.valid < 64) && fieldsOk 512 e.fields) && decide (p.emit.foldl (fun a e => a + fieldBits e.fields) 0 ≤ 8 * 512)
    && fieldsOk 40 p.inKey && fieldsOk 40 p.egKey && (match p.cpuMeta with
      | some k => decide (k < 128)
      | none => true)

/-- The slices of the image's policy tables fit the TCAM of each direction, and the blocks of its tables the 64 of a cluster (R74). -/
def resourcesOk (im : Image) : Bool :=
  let slices (eg : Bool) : Nat := (im.policy.filter (fun d => d.egress == eg)).foldl (fun a d => a + d.slices) 0
  decide (slices false ≤ 16) && decide (slices true ≤ 4)
    && decide (im.exact.foldl (fun a d => a + d.blocks) 0 + im.lpm.foldl (fun a d => a + d.blocks) 0 ≤ 64)

/-- The loader's checks of a pipeline image: R71, R84, R85, R114, the resources of R74, and its program. -/
def pipeImageOk (im : Image) : Bool :=
  resourcesOk im && programOk im
    && im.exact.all exactDefOk && im.lpm.all lpmDefOk && im.policy.all policyDefOk
    && decide (im.exact.length ≤ 36) && decide (im.lpm.length ≤ 8) && decide (im.policy.length ≤ 32) && distinct (im.exact.map (·.id)) && distinct (im.lpm.map (·.id)) && distinct (im.policy.map (·.id))
    && decide ((im.exact.filter (·.learnable)).length ≤ 4)
    && distinct (im.policy.map (fun d => 2 * d.stage + d.egress.toNat))
    && distinct (im.nodes.map (·.1)) && im.nodes.all (nodeOk im.nodes) && im.entries.length == 8 && im.entries.all (entryOk im.nodes)

/-- Install a pipeline image: the registers that show it, and empty tables under their initial seeds (R112). -/
def installImage (im : Image) (s : State) : State :=
  let s1 := { s with tbl := { s.tbl with
      image := some im
      ex := im.exact.map (fun d => (d.id, { ({} : ExTab) with seedA := d.seed, age := { ({} : AgeCfg) with nextAt := s.clk.mono + 1000000000 } }))
      lpm := im.lpm.map (fun d => (d.id, {})) } }
    |> setReg .PIPE_IMG_ID 0 0 (BitVec.ofNat 32 im.id) |> setF F.PIPE_IMG_INFO_EASEL_MAJOR 0 0 im.major |> setF F.PIPE_IMG_INFO_EASEL_MINOR 0 0 im.minor
  let s2 := im.exact.foldl (fun z d => setF F.TBL_STAT0_KIND d.id 0 (if d.entryBytes = 16 then 1 else 2) z) s1
  let s3 := im.lpm.foldl (fun z d => setF F.TBL_STAT0_KIND d.id 0 3 z) s2
  let s4 := im.policy.foldl (fun z d => setF F.TCAM_TBL_STAT0_PROFILE d.id 0 d.profile z |> setF F.TCAM_TBL_STAT0_DIR d.id 0 (b2n d.egress)
    |> setF F.TCAM_TBL_STAT1_MIN_FREE_ROWS d.id 0 (d.slices * 1024 / 2 ^ (d.profile - 1))) s3
  (List.range 8).foldl (fun z k => setReg .SKETCH_ENTRY k 0 (BitVec.ofNat 32 ((im.entries[k]?).getD 0)) z) s4

end Sys2Proof.Machine
end

