-- ==== Sys2Proof/Machine/Engines.lean ====
section
/-! DEFINITION. The Atelier engines (Chapter 13): micro-words, traps, roles, periodic tasks, failure and return, the Gesso image and hitless update. -/

namespace Sys2Proof.Machine

/-! ### The micro-word (Table 13.2) -/

/-- SEQ. -/
def mwSeq (w : Nat) : Nat := bits w 124 4
/-- COND. -/
def mwCond (w : Nat) : Nat := bits w 120 4
/-- TARGET. -/
def mwTarget (w : Nat) : Nat := bits w 107 13
/-- ALU_OP. -/
def mwAlu (w : Nat) : Nat := bits w 100 7
/-- DST. -/
def mwDst (w : Nat) : Nat := bits w 95 5
/-- SRCA. -/
def mwSrcA (w : Nat) : Nat := bits w 90 5
/-- SRCB. -/
def mwSrcB (w : Nat) : Nat := bits w 85 5
/-- IMM_SEL. -/
def mwImmSel (w : Nat) : Bool := bit w 84
/-- MEM_OP. -/
def mwMem (w : Nat) : Nat := bits w 80 4
/-- MEM_OFF. -/
def mwOff (w : Nat) : Nat := bits w 64 16
/-- IMM. -/
def mwImm (w : Nat) : Nat := bits w 0 64

/-- Whether a micro-word holds no reserved encoding (R294). -/
def mwOk (w : Nat) : Bool := decide (mwSeq w ≤ 8) && decide (mwAlu w ≤ 15) && decide (mwMem w ≤ 7)

/-- A general register; X0 reads as zero (R293). -/
def xreg (x : Engine) (n : Nat) : Nat := if n = 0 then 0 else tgetD x.x n 0

/-- Write a general register; X0 ignores writes (R293). -/
def setX (n v : Nat) (x : Engine) : Engine := if n = 0 then x else { x with x := tset x.x n (v % 2 ^ 64) }

/-- Source A of a word. -/
def srcA (x : Engine) (w : Nat) : Nat := xreg x (mwSrcA w)

/-- Source B of a word: IMM where IMM_SEL is 1. -/
def srcB (x : Engine) (w : Nat) : Nat := if mwImmSel w then mwImm w else xreg x (mwSrcB w)

/-- An ALU result with its carry or borrow and signed overflow. -/
structure AluOut where
  res : Nat
  c : Bool
  v : Bool
deriving DecidableEq, Repr

/-- a + b with carry and signed overflow. -/
def aluAdd (a b : Nat) : AluOut :=
  let r := (a + b) % 2 ^ 64
  ⟨r, decide (2 ^ 64 ≤ a + b), (bit a 63 == bit b 63) && (bit r 63 != bit a 63)⟩

/-- a − b with borrow and signed overflow. -/
def aluSub (a b : Nat) : AluOut :=
  let r := (a + 2 ^ 64 - b) % 2 ^ 64
  ⟨r, decide (a < b), (bit a 63 != bit b 63) && (bit r 63 != bit a 63)⟩

/-- The population count of a 64-bit value. -/
def popCount (a : Nat) : Nat := countIx 64 (bit a)

/-- The ALU (Table 13.4).  `f` gives the values the spec leaves open: a shift by 64 or more (place 1301), the bits of a deposit outside the field (1302), and the flags C and V of an operation that has no carry and no overflow (1303, 1304). -/
def alu (f : Nat → Nat) (op a b imm : Nat) : AluOut :=
  let plain (r : Nat) : AluOut := ⟨r % 2 ^ 64, bit (f 1303) 0, bit (f 1304) 0⟩
  let shift (r : Nat) : AluOut := plain (if b < 64 then r else f 1301)
  match op with
  | 0x00 => plain a
  | 0x01 => aluAdd a b
  | 0x02 => aluSub a b
  | 0x03 => plain (Nat.land a b)
  | 0x04 => plain (Nat.lor a b)
  | 0x05 => plain (Nat.xor a b)
  | 0x06 => shift (a * 2 ^ (b % 64))
  | 0x07 => shift (a / 2 ^ (b % 64))
  | 0x08 => shift (unsignedOf 64 (signed 64 a / (2 ^ (b % 64) : Nat)))
  | 0x09 => plain (min a b)
  | 0x0A => plain (max a b)
  | 0x0B => plain (a * b)
  | 0x0C => plain (crcByteLsb 0x82F63B78 (a % 2 ^ 32) (BitVec.ofNat 8 b))
  | 0x0D => plain (popCount a)
  | 0x0E => aluSub a b
  | _ =>
    let width := min (b % 256) 64
    let pos := bits imm 8 6
    plain (putBits (f 1302 % 2 ^ 64) pos width (a % 2 ^ width))

/-- Whether an ALU operation writes its result to DST: all but Compare (Table 13.4). -/
def aluWrites (op : Nat) : Bool := op ≠ 0x0E

/-- The flags after a word's ALU operation (Table 13.1): Z, N, C, V, and U0 to U3 by Compare with DST = 0. -/
def aluFlags (flags : Nat) (o : AluOut) (op dst imm : Nat) : Nat :=
  let f := putBits flags 0 4 (b2n (o.res = 0) + 2 * b2n (bit o.res 63) + 4 * b2n o.c + 8 * b2n o.v)
  if op = 0x0E ∧ dst = 0 then putBits f 4 4 imm else f

/-- The address of a scratch or engine-bus access: A + MEM_OFF. -/
def memAddr (x : Engine) (w : Nat) : Nat := (srcA x w + mwOff w) % 2 ^ 64

/-- The fault of a word, its lowest vector of Table 13.6, none where it completes (R295, R296). -/
def microFault (x : Engine) (w : Nat) (env : MicroEnv) : Option Nat :=
  let m := mwMem w
  let beyond := (m = 1 ∨ m = 2) ∧ 65536 < memAddr x w + 8
  let stack := (mwSeq w = 0 ∧ x.upc = 8191) ∨ (mwSeq w = 4 ∧ x.sp = 8) ∨ (mwSeq w = 5 ∧ x.sp = 0) ∨ (mwSeq w = 6 ∧ !bit x.flags 12)
  if m = 1 ∧ !decide beyond ∧ env.scratchUe then some 1
  else if decide beyond ∨ ((m = 3 ∨ m = 4) ∧ env.busRefused) ∨ (m = 6 ∧ 64 ≤ mwOff w) then some 2
  else if decide stack then some 3
  else none

/-- The next micro-PC of a word that causes no fault (Table 13.3); micro-PC + 1 has 13 bits. -/
def nextUpc (x : Engine) (w : Nat) : Nat :=
  let inc := (x.upc + 1) % 8192
  match mwSeq w with
  | 1 => mwTarget w
  | 2 => if bit x.flags (mwCond w) then mwTarget w else inc
  | 3 => if bit x.flags (mwCond w) then inc else mwTarget w
  | 4 => mwTarget w
  | 5 => (x.stack[x.sp - 1]?).getD 0
  | 6 => x.frame.next
  | 8 => x.upc
  | _ => inc

/-- Take a trap: the frame of Table 13.7, IN_TRAP = 1, IE = 0, micro-PC at the vector; the pending flag of an interrupt taken is cleared (log 12). -/
def trapTo (x : Engine) (vector next ended : Nat) : Engine :=
  let fr : TrapFrame := ⟨xreg x 28, xreg x 29, xreg x 30, xreg x 31, vector, x.sp, next, ended, x.flags⟩
  let cleared := if 5 ≤ vector then putBit x.flags (vector + 3) false else x.flags
  { x with frame := fr, flags := putBit (putBit cleared 12 true) 11 false, upc := vector,
           drain := if vector = 4 then false else x.drain }

/-- The interrupt to take at the end of a word: the lowest pending vector, while IE = 1 and IN_TRAP = 0 (R296). -/
def pendingIrq (x : Engine) : Option Nat :=
  if x.drain then some 4 else if bit x.flags 8 then some 5 else if bit x.flags 9 then some 6
  else if bit x.flags 10 then some 7 else none

/-- Registers restored by URET (R297): micro-PC, flags with their IN_TRAP and IE, SP, X28 to X31; DB, TMR and EVT keep showing what is pending (log 12). -/
def uretTo (x : Engine) : Engine :=
  let fl := putBits x.frame.flags 8 3 (bits x.flags 8 3)
  setX 28 x.frame.x28 (setX 29 x.frame.x29 (setX 30 x.frame.x30 (setX 31 x.frame.x31
    { x with flags := fl, sp := x.frame.sp, upc := x.frame.next })))

/-! ### Engine registers and failure -/

/-- Set ENG_STAT.STATE. -/
def setEngState (e st : Nat) (s : State) : State := setF F.ENG_STAT_STATE e 0 st s

/-- ENG_STAT.ROLE: the role served now. -/
def engRole (s : State) (e : Nat) : Nat := getF s F.ENG_STAT_ROLE e 0

/-- An engine that works: running, asleep, draining, or loading for an update. -/
def working (s : State) (e : Nat) : Bool :=
  let st := engState s e
  st == 1 || st == 2 || st == 3 || (st == 4 && (engine s e).testing == none)

/-- The lowest-numbered working engine of a role, other than one. -/
def sibling (s : State) (role but : Nat) : Option Nat :=
  firstIx 64 fun e => working s e && engRole s e == role && e ≠ but

/-- The lowest-numbered free spare. -/
def freeSpare (s : State) : Option Nat :=
  firstIx 64 fun e => engState s e == 6 && (engine s e).standFor == none

/-- A command in flight on a failed engine (R29): reissued on a sibling with IDEMPOTENT, otherwise ENGINE_FAULT naming the engine, and a commit whose strobe is not yet issued is not issued any more (R132); the operation that a background command started continues on a sibling, unanswered (R97, R300). -/
def failCommand (e role : Nat) (o : OutCmd) (s : State) : State :=
  let sib := (sibling s role e).getD e
  if o.idem then
    raise0 Ev.CMD_REISSUED (bump .CMD_REISSUED_CNT 0 0 1 (modOut o.serial (fun o => { o with engine := sib }) s))
  else
    let s1 := if (s.tbl.commitCmd.map (·.serial)) = some o.serial then { s with tbl := { s.tbl with commitCmd := none } } else s
    raise0 Ev.CMD_ENG_FAULT_RET
      (failWith ⟨s.clk.mono, o.serial, o.kind, o.sub, o.tag, o.ackReq, o.idem, o.prog⟩ o.opcode 0x31 e s1)

/-- What follows an engine's failure for its role (R301): a free spare is to take it after 20 µs; a failed supervisor without one is replaced by the lowest working COMMAND engine; a role left empty takes the device to the safe state. -/
def coverRole (e role : Nat) (s : State) : State :=
  match freeSpare s with
  | some p => setEngine p { engine s p with standFor := some e, migrateAt := some (s.clk.mono + 20000) } s
  | none =>
    if role = 6 then s
    else if (sibling s role e).isSome then s
    else if role = 0 then
      match sibling s 1 e with
      | some c => if (sibling s 1 c).isSome then setF F.ENG_STAT_ROLE c 0 0 s else safeBy 3 s
      | none => safeBy 3 s
    else safeBy 3 s

/-- A background operation whose command has failed goes on without it (R97). -/
def orphanBg (serials : List Nat) (s : State) : State :=
  let drop (b : BgOp) : BgOp := { b with cmd := b.cmd.filter (fun h => !serials.contains h.serial) }
  { s with tbl := { s.tbl with ex := s.tbl.ex.map (fun p => (p.1, { p.2 with bg := p.2.bg.map drop })),
                               lpm := s.tbl.lpm.map (fun p => (p.1, { p.2 with bg := p.2.bg.map drop })) } }

/-- An engine fails (R300): FAILED, CAUSE and FAIL_UPC, its scratch lost, ENG_FAILED with its number, its commands completed or reissued, its role covered, a hitless update to roll back (R308). -/
def failEngine (e cause : Nat) (s : State) : State :=
  if engState s e = 5 then s
  else
    let role := engRole s e
    let x := engine s e
    let s1 := setEngState e 5 s |> setF F.ENG_FAIL_CAUSE e 0 cause |> setF F.ENG_FAIL_FAIL_UPC e 0 x.upc
      |> bumpSat F.ENG_POOL_FAILED_COUNT 0 0 1
      |> setEngine e { x with scratch := [], work := [], waiting := false, slice := false, drain := false, standFor := none, migrateAt := none }
    let s2 := raise Ev.ENG_FAILED e 0 s1
    let hit := s2.cmd.outstanding.filter (fun o => o.dispatched && o.engine == e)
    let s3 := orphanBg ((hit.filter (fun o => !o.idem)).map (·.serial)) (hit.foldl (fun z o => failCommand e role o z) s2)
    let s4 := match s3.fw.update with
      | some u =>
        if u.rollback = none then
          let allDone := decide (u.halves.length ≤ u.done)
          let z := { s3 with fw := { s3.fw with update := some { u with rollback := some e, stopped := allDone } } }
          if allDone then setF F.FW_STAT_FW_STATE 0 0 3 z else z
        else s3
      | none => s3
    coverRole e role s4

/-- End a WAIT on a pending interrupt (R296), then take the interrupt where IE and IN_TRAP allow. -/
def endWait (e : Nat) (s : State) : State :=
  let x := engine s e
  if x.waiting && (pendingIrq x).isSome then
    let x1 := { x with waiting := false, upc := (x.upc + 1) % 8192, ackAt := s.clk.mono }
    match (if bit x1.flags 11 && !bit x1.flags 12 then pendingIrq x1 else none) with
    | some v => setEngine e (trapTo x1 v x1.upc x.upc) s |> bump .ENG_TRAPS e 0 1 |> setF F.ENG_STAT_LAST_VECTOR e 0 v
    | none => setEngine e x1 s
  else s

/-- Set a pending flag of an engine (bit 8 DB, 9 TMR, 10 EVT); an engine in WAIT and awake goes on, a sleeping one wakes by UNIT_WAKE. -/
def signal (e flagBit : Nat) (s : State) : State :=
  let s1 := setEngine e { engine s e with flags := putBit (engine s e).flags flagBit true } s
  if engState s1 e = 2 then s1 else endWait e s1

/-- The memory effect of a word that causes no fault (Table 13.5): the engine after it, and the device. -/
def microMem (e : Nat) (w : Nat) (x0 : Engine) (s : State) : State :=
  let a := memAddr x0 w
  let b := srcB x0 w
  let x := engine s e
  match mwMem w with
  | 1 => setEngine e (setX (mwDst w) (Scratch.readN x0.scratch a 8) x) s
  | 2 => setEngine e { x with scratch := Scratch.writeN x.scratch a b 8 } s
  | 3 => setEngine e (setX (mwDst w) (freeAt 1305 s) x) s
  | 4 => emit (.bus e a b) s
  | 5 => match x.work with
    | [] => setEngine e (setX (mwDst w) (freeAt 1306 s) x) s
    | v :: rest => setEngine e (setX (mwDst w) v { x with work := rest }) s
  | 6 =>
    let q := mwOff w
    signal q 8 (setEngine q { engine s q with work := (engine s q).work ++ [b] } s)
  | 7 => setEngine e { x with ackAt := s.clk.mono } s
  | _ => s

/-- One micro-word of an engine, whole (R294 to R297): ECC of the fetch, faults, its ALU, memory and next-address effects, then the interrupt pending at its end. -/
def microWord (e : Nat) (w : Nat) (env : MicroEnv) (s : State) : State :=
  let x := engine s e
  if env.cs = 2 then failEngine e 2 s
  else
    let s := if env.cs = 1 then raise Ev.ENG_CS_CORRECTED 0 0 s else s
    match microFault x w env with
    | some v =>
      if bit x.flags 12 then failEngine e 1 s
      else
        let next := if v = 3 then freeAt 1307 s % 8192 else nextUpc x w
        setEngine e (trapTo x v next x.upc) (drawn s) |> bump .ENG_TRAPS e 0 1 |> setF F.ENG_STAT_LAST_VECTOR e 0 v
    | none =>
      let o := alu (fun p => freeAt p s) (mwAlu w) (srcA x w) (srcB x w) (mwImm w)
      let loads := mwMem w = 1 ∨ mwMem w = 3 ∨ mwMem w = 5
      let x1 := { x with flags := aluFlags x.flags o (mwAlu w) (mwDst w) (mwImm w) }
      let x2 := if aluWrites (mwAlu w) && !decide loads then setX (mwDst w) o.res x1 else x1
      let s1 := microMem e w x (setEngine e x2 s)
      let y := engine s1 e
      let y1 : Engine := match mwSeq w with
        | 4 => { y with upc := nextUpc x w, stack := listSet y.stack x.sp ((x.upc + 1) % 8192), sp := x.sp + 1 }
        | 5 => { y with upc := nextUpc x w, sp := x.sp - 1 }
        | 6 => uretTo y
        | 7 => { y with waiting := true, slice := false }
        | 8 => { y with slice := false }
        | _ => { y with upc := nextUpc x w }
      let s2 := drawn (setEngine e y1 s1)
      if mwSeq w = 7 then endWait e s2
      else if mwSeq w = 8 then setEngState e 6 s2
      else match (if bit y1.flags 11 && !bit y1.flags 12 then pendingIrq y1 else none) with
        | some v => setEngine e (trapTo y1 v y1.upc x.upc) s2 |> bump .ENG_TRAPS e 0 1 |> setF F.ENG_STAT_LAST_VECTOR e 0 v
        | none => s2

/-- The word at an engine's micro-PC; a control-store word not written is zero (log 8). -/
def fetchWord (s : State) (e : Nat) : Nat := tgetD (engine s e).store (engine s e).upc 0

/-- A row of Tables 13.3 to 13.5 for an engine: where the engine runs, is not in WAIT and the word at its micro-PC has the row's operation, that word runs whole. -/
def microRow (t e : Nat) (env : MicroEnv) (is : Nat → Bool) (s : State) : Res :=
  need (decide (e < 64)) "engine" e <| live t (fun s =>
    if (engState s e = 1 ∨ engState s e = 3) ∧ !(engine s e).waiting ∧ is (fetchWord s e) then microWord e (fetchWord s e) env s else s) s

/-- SEQ NEXT (Table 13.3). -/
def execUNext (t eng : Nat) (env : MicroEnv) (s : State) : Res := microRow t eng env (fun w => mwSeq w == 0) s
/-- SEQ BR. -/
def execUBr (t eng : Nat) (env : MicroEnv) (s : State) : Res := microRow t eng env (fun w => mwSeq w == 1) s
/-- SEQ BRT. -/
def execUBrt (t eng : Nat) (env : MicroEnv) (s : State) : Res := microRow t eng env (fun w => mwSeq w == 2) s
/-- SEQ BRF. -/
def execUBrf (t eng : Nat) (env : MicroEnv) (s : State) : Res := microRow t eng env (fun w => mwSeq w == 3) s
/-- SEQ CALL. -/
def execUCall (t eng : Nat) (env : MicroEnv) (s : State) : Res := microRow t eng env (fun w => mwSeq w == 4) s
/-- SEQ RET. -/
def execURet (t eng : Nat) (env : MicroEnv) (s : State) : Res := microRow t eng env (fun w => mwSeq w == 5) s
/-- SEQ URET (R297). -/
def execUUret (t eng : Nat) (env : MicroEnv) (s : State) : Res := microRow t eng env (fun w => mwSeq w == 6) s
/-- SEQ WAIT. -/
def execUWait (t eng : Nat) (env : MicroEnv) (s : State) : Res := microRow t eng env (fun w => mwSeq w == 7) s
/-- SEQ HALT. -/
def execUHalt (t eng : Nat) (env : MicroEnv) (s : State) : Res := microRow t eng env (fun w => mwSeq w == 8) s
/-- ALU_OP 0x00, Pass A (Table 13.4). -/
def execUPassA (t eng : Nat) (env : MicroEnv) (s : State) : Res := microRow t eng env (fun w => mwAlu w == 0x00) s
/-- ALU_OP 0x01, Add. -/
def execUAdd (t eng : Nat) (env : MicroEnv) (s : State) : Res := microRow t eng env (fun w => mwAlu w == 0x01) s
/-- ALU_OP 0x02, Subtract. -/
def execUSubtract (t eng : Nat) (env : MicroEnv) (s : State) : Res := microRow t eng env (fun w => mwAlu w == 0x02) s
/-- ALU_OP 0x03, And. -/
def execUAnd (t eng : Nat) (env : MicroEnv) (s : State) : Res := microRow t eng env (fun w => mwAlu w == 0x03) s
/-- ALU_OP 0x04, Or. -/
def execUOr (t eng : Nat) (env : MicroEnv) (s : State) : Res := microRow t eng env (fun w => mwAlu w == 0x04) s
/-- ALU_OP 0x05, Xor. -/
def execUXor (t eng : Nat) (env : MicroEnv) (s : State) : Res := microRow t eng env (fun w => mwAlu w == 0x05) s
/-- ALU_OP 0x06, Shift left. -/
def execUShiftLeft (t eng : Nat) (env : MicroEnv) (s : State) : Res := microRow t eng env (fun w => mwAlu w == 0x06) s
/-- ALU_OP 0x07, Shift right. -/
def execUShiftRight (t eng : Nat) (env : MicroEnv) (s : State) : Res := microRow t eng env (fun w => mwAlu w == 0x07) s
/-- ALU_OP 0x08, Arithmetic shift right. -/
def execUArithmeticShiftRight (t eng : Nat) (env : MicroEnv) (s : State) : Res := microRow t eng env (fun w => mwAlu w == 0x08) s
/-- ALU_OP 0x09, Minimum. -/
def execUMinimum (t eng : Nat) (env : MicroEnv) (s : State) : Res := microRow t eng env (fun w => mwAlu w == 0x09) s
/-- ALU_OP 0x0A, Maximum. -/
def execUMaximum (t eng : Nat) (env : MicroEnv) (s : State) : Res := microRow t eng env (fun w => mwAlu w == 0x0A) s
/-- ALU_OP 0x0B, Multiply. -/
def execUMultiply (t eng : Nat) (env : MicroEnv) (s : State) : Res := microRow t eng env (fun w => mwAlu w == 0x0B) s
/-- ALU_OP 0x0C, CRC-32C step. -/
def execUCrc32cStep (t eng : Nat) (env : MicroEnv) (s : State) : Res := microRow t eng env (fun w => mwAlu w == 0x0C) s
/-- ALU_OP 0x0D, Population count. -/
def execUPopulationCount (t eng : Nat) (env : MicroEnv) (s : State) : Res := microRow t eng env (fun w => mwAlu w == 0x0D) s
/-- ALU_OP 0x0E, Compare. -/
def execUCompare (t eng : Nat) (env : MicroEnv) (s : State) : Res := microRow t eng env (fun w => mwAlu w == 0x0E) s
/-- ALU_OP 0x0F, Deposit. -/
def execUDeposit (t eng : Nat) (env : MicroEnv) (s : State) : Res := microRow t eng env (fun w => mwAlu w == 0x0F) s
/-- MEM_OP 1, load scratch (Table 13.5). -/
def execULoadScratch (t eng : Nat) (env : MicroEnv) (s : State) : Res := microRow t eng env (fun w => mwMem w == 1) s
/-- MEM_OP 2, store scratch. -/
def execUStoreScratch (t eng : Nat) (env : MicroEnv) (s : State) : Res := microRow t eng env (fun w => mwMem w == 2) s
/-- MEM_OP 3, load from the engine bus. -/
def execULoadEngineBus (t eng : Nat) (env : MicroEnv) (s : State) : Res := microRow t eng env (fun w => mwMem w == 3) s
/-- MEM_OP 4, store to the engine bus. -/
def execUStoreEngineBus (t eng : Nat) (env : MicroEnv) (s : State) : Res := microRow t eng env (fun w => mwMem w == 4) s
/-- MEM_OP 5, pop the work queue. -/
def execUPopWorkQueue (t eng : Nat) (env : MicroEnv) (s : State) : Res := microRow t eng env (fun w => mwMem w == 5) s
/-- MEM_OP 6, push to a work queue. -/
def execUPushWorkQueue (t eng : Nat) (env : MicroEnv) (s : State) : Res := microRow t eng env (fun w => mwMem w == 6) s
/-- MEM_OP 7, watchdog acknowledgement. -/
def execUWatchdogAck (t eng : Nat) (env : MicroEnv) (s : State) : Res := microRow t eng env (fun w => mwMem w == 7) s

/-! ### Watchdog, failure, periodic tasks -/

/-- ENG_WATCHDOG (R300): 1 ms without acknowledgement while running and not in WAIT. -/
def execEngWatchdog (t eng : Nat) (s : State) : Res :=
  need (decide (eng < 64)) "engine" eng <| live t (fun s =>
    if (engState s eng = 1 ∨ engState s eng = 3) ∧ !(engine s eng).waiting ∧ (engine s eng).ackAt + 1000000 ≤ s.clk.mono
    then failEngine eng 3 s else s) s

/-- ENG_FAILED (R300): a failure of one of the causes of ENG_FAIL.CAUSE strikes a working or spare engine. -/
def execEngFailed (t eng cause : Nat) (s : State) : Res :=
  need (decide (eng < 64)) "engine" eng <| need (decide (1 ≤ cause) && decide (cause ≤ 5)) "engine failure cause" cause <|
    live t (fun s => if working s eng || engState s eng = 6 then failEngine eng cause s else s) s

/-- Lengths in ns of the periods of a role's tasks (Table 13.9), those of the table role by the tables that age. -/
def rolePeriods (s : State) (role : Nat) : List Nat :=
  if role = 4 then [4000] else if role = 5 then [10000] else if role = 3 then [1000 * getF s F.TEL_CFG_EXP_PERIOD_US 0 0]
  else if role = 2 then s.tbl.ex.filterMap fun e => if e.2.age.en then some (1000000 * e.2.age.tickMs) else none
  else []

/-- Periods of a failed engine's tasks that begin in the 20 µs after its failure (R301), with the boundaries at TOD multiples of their lengths. -/
def missedPeriods (s : State) (role failedAt : Nat) : Nat :=
  let tod := s.clk.tod - (s.clk.mono - failedAt)
  ((rolePeriods s role).map fun n => (tod + 20000) / max 1 n - tod / max 1 n).sum

/-- One slice is lost: ENG_OVERRUN of the engine, and of an aging slice AGE_OVERRUN (R299). -/
def sliceLost (eng role : Nat) (s : State) : State :=
  let s1 := if role = 2 then raise0 Ev.LEARN_AGE_OVERRUN (bump .AGE_OVERRUN 0 0 1 s) else s
  raise0 Ev.ENG_OVERRUN (bump .ENG_OVERRUN eng 0 1 s1)

/-- TASK_MIGRATED (R301, R302): a spare begins a failed engine's tasks at a period boundary at least 20 µs after the failure and takes its role, with the periods missed counted; after the engine's return the tasks move back and the spare is SPARE again. -/
def execTaskMigrated (t eng : Nat) (s : State) : Res :=
  need (decide (eng < 64)) "engine" eng <| live t (fun s =>
    match firstIx 64 (fun p => (engine s p).standFor == some eng) with
    | none => s
    | some p =>
      match (engine s p).migrateAt with
      | some at0 =>
        if at0 ≤ s.clk.mono then
          setEngine p { engine s p with migrateAt := none, ackAt := s.clk.mono } s
            |> setF F.ENG_STAT_ROLE p 0 (engRole s eng) |> setEngState p 1 |> raise Ev.ENG_TASK_MIGRATED p 0
            |> fun z => (List.range (missedPeriods s (engRole s eng) (at0 - 20000))).foldl (fun y _ => sliceLost eng (engRole s eng) y) z
        else s
      | none =>
        if working s eng then
          setEngine p { engine s p with standFor := none } s |> setF F.ENG_STAT_ROLE p 0 6 |> setEngState p 6
            |> raise Ev.ENG_TASK_MIGRATED p 0
        else s) s

/-- PERIODIC_SLICE (R299): the engine timer expires at a period boundary and the task's slice starts. -/
def execPeriodicSlice (t eng : Nat) (s : State) : Res :=
  need (decide (eng < 64)) "engine" eng <| live t (fun s =>
    if working s eng && !(engine s eng).slice then
      signal eng 9 (setEngine eng { engine s eng with slice := true } s)
    else s) s

/-- OVERRUN (R102, R299): a slice still running at its next period is cut off and counted (of an aging slice, the stale entries not yet acted on wait for the next sweep, R102); the next slice starts with nothing carried over. -/
def execOverrun (t eng : Nat) (s : State) : Res :=
  need (decide (eng < 64)) "engine" eng <| live t (fun s =>
    if working s eng && (engine s eng).slice then
      let s1 := if engRole s eng = 2 then { s with tbl := { s.tbl with ageDel := [] } } else s
      signal eng 9 (sliceLost eng (engRole s eng) s1)
    else s) s

/-! ### Images (R303 to R305) -/

/-- A manifest is valid (R298). -/
def manifestOk (roles : List Nat) : Bool :=
  let n (r : Nat) := (roles.filter (· == r)).length
  roles.length == 64 && roles.all (fun r => decide (r ≤ 6)) && roles[0]? == some 0 && n 0 == 1 &&
    decide (4 ≤ n 1) && decide (4 ≤ n 2) && decide (4 ≤ n 3) && decide (2 ≤ n 4) && decide (2 ≤ n 5)

/-- Microcode is valid: no reserved encoding, and the reserved vectors of each role hold HALT (R294, Table 13.6). -/
def microcodeOk (g : Gesso) : Bool :=
  g.store.all (fun x => mwOk x.2.2) &&
    (List.range 7).all fun r => (List.range 8).all fun k =>
      g.store.any fun x => x.1 == r && x.2.1 == 8 + k && mwSeq x.2.2 == 8

/-- The owner signature verifies under a slot that is enrolled and not revoked, where any slot is enrolled (R303). -/
def ownerOk (f : FuseState) (g : Gesso) : Bool :=
  if f.slots.any (fun x => x.1 == 1) then
    match g.owner with
    | none => false
    | some (slot, sig) => match f.slots[slot]? with
      | some (1, hash) => (Config.ecdsaCandidates g.digest sig).contains hash
      | _ => false
  else true

/-- A Gesso image is valid (R303). -/
def gessoValid (f : FuseState) (g : Gesso) : Bool :=
  g.formOk && Config.rootVerifies g.digest g.sig && ownerOk f g && microcodeOk g && manifestOk g.roles && pipeImageOk g.pipe

/-- The control store of a role in an image. -/
def storeFor (g : Gesso) (role : Nat) : Tab Nat Nat := (g.store.filter (fun x => x.1 == role)).map (·.2)

/-- Load and start an engine from an image under a role (R304, Table 13.6 START): RUN, or SPARE for the spare role. -/
def startEngine (g : Gesso) (e role : Nat) (s : State) : State :=
  setEngine e { store := storeFor g role, ackAt := s.clk.mono } s
    |> setF F.ENG_STAT_ROLE e 0 role |> setEngState e (if role = 6 then 6 else 1)

/-- Load every engine by the manifest. -/
def startEngines (g : Gesso) (s : State) : State :=
  (List.range 64).foldl (fun z e => startEngine g e ((g.roles[e]?).getD 6) z) s

/-- Load an image as at boot (R304): it becomes the running one, with its pipeline image; the engines start at START. -/
def loadGesso (g : Gesso) (s : State) : State :=
  installImage g.pipe (setReg .FW_RUN_VER 0 0 (BitVec.ofNat 32 g.version) { s with fw := { s.fw with running := some g } })

/-- No image is marked for the next warm reset. -/
def unmark (s : State) : State := setF F.FW_STAT_NEXT_RESET 0 0 0 { s with boot := { s.boot with nextImage := false } }

/-- FW_STAT.FW_STATE and FW_STAGED_VER from what is staged. -/
def showStaged (s : State) : State :=
  match s.fw.staged with
  | some g => setF F.FW_STAT_FW_STATE 0 0 1 s |> setReg .FW_STAGED_VER 0 0 (BitVec.ofNat 32 g.version)
  | none => setF F.FW_STAT_FW_STATE 0 0 0 s |> setReg .FW_STAGED_VER 0 0 0 |> unmark

/-- FW_INFO (0x0F01, R305).  The 64 bytes' layout is not given: the data are a free value (place 1310, log 2). -/
def execFwInfo (h : Hdr) (s : State) : Res :=
  runCmd 0x0F01 h noChk noCls (fun s => finish h 0x0F01 { data := leBytes 64 (freeAt 1310 s) } (drawn s)) s

/-- FW_STAGE (0x0F02, R305): an image from host memory (the operand is what is read there) or from a flash copy is checked and staged; a mark of the image that it replaces goes with that image (log 84). -/
def execFwStage (h : Hdr) (src len addr : Nat) (image : Gesso) (s : State) : Res :=
  runCmd 0x0F02 h (fun _ => firstBad [resv (decide (1 < src)) 0 src, bad (decide (8388608 < len)) 4]) noCls (fun s =>
    if s.fw.update.isSome then failWith h 0x0F02 0x24 0 s
    else
      let g := if src = 0 then some image else if addr = 0 then s.fw.flash0 else if addr = 8388608 then s.fw.flash1 else none
      let good := match g with
        | some g => gessoValid s.fuse g
        | none => false
      let s1 := showStaged (unmark { s with fw := { s.fw with staged := if good then g else none } })
      if good then ok h 0x0F02 s1 else failWith h 0x0F02 0x40 0 s1) s

/-- The engines of a role in a manifest that have not failed. -/
def roleGroup (s : State) (g : Gesso) (r : Nat) : List Nat := (List.range 64).filter fun e => g.roles[e]? == some r && engState s e ≠ 5

/-- The halves of a hitless update (R306): role groups of the staged manifest in order, each in two halves, lower-numbered engines first; failed engines are left out, and a group of one is one half. -/
def updateHalves (s : State) (g : Gesso) : List (List Nat) :=
  ([6, 5, 4, 2, 3, 1, 0].flatMap fun r =>
    let es := roleGroup s g r
    [es.take (cdiv es.length 2), es.drop (cdiv es.length 2)]).filter (fun l => !l.isEmpty)

/-- The engine that can stand in for a group: a free spare, or else the lowest-numbered working COMMAND engine (R306). -/
def standInFor (s : State) (es : List Nat) : Option Nat :=
  match firstIx 64 (fun p => engState s p == 6 && (engine s p).standFor == none && !es.contains p) with
  | some p => some p
  | none => firstIx 64 fun p => working s p && engRole s p == 1 && !es.contains p

/-- Whether every group of one engine has a stand-in (R306). -/
def standInsOk (s : State) (g : Gesso) : Bool :=
  [6, 5, 4, 2, 3, 1, 0].all fun r => (roleGroup s g r).length ≠ 1 || (standInFor s (roleGroup s g r)).isSome

/-- Raise DRAIN on the engines of a half (R306 step 1); new dispatch avoids them. -/
def drainHalf (es : List Nat) (s : State) : State :=
  es.foldl (fun z e => endWait e (setEngState e 3 (setEngine e { engine z e with drain := true } z))) s

/-- The background operations of a half go on from where they stand on another engine of its role (R306 step 1). -/
def moveWork (es : List Nat) (s : State) : State :=
  { s with cmd := { s.cmd with outstanding := s.cmd.outstanding.map fun o =>
      if o.dispatched && !o.holds && es.contains o.engine then
        { o with engine := (firstIx 64 fun p => working s p && engRole s p == engRole s o.engine && !es.contains p).getD o.engine }
      else o } }

/-- A half begins (R306 step 1): for a group of one engine a stand-in serves the group's role, and the half drains. -/
def beginHalf (g : Gesso) (es : List Nat) (s : State) : State :=
  let role := match es with
    | e :: _ => (g.roles[e]?).getD 6
    | [] => 6
  let alone := es.length == 1 && roleGroup s g role == es
  let s1 := match (if alone then standInFor s es else none), s.fw.update with
    | some p, some u =>
      let z := { s with fw := { s.fw with update := some { u with standIn := some (p, engRole s p) } } }
      setEngState p 1 (setF F.ENG_STAT_ROLE p 0 role z)
    | _, _ => s
  drainHalf es (moveWork es s1)

/-- The stand-in of a group of one engine goes back to its own role when the group's engine has restarted (R306). -/
def endStandIn (s : State) : State :=
  match s.fw.update with
  | some u => match u.standIn with
    | some (p, r) =>
      let z := { s with fw := { s.fw with update := some { u with standIn := none } } }
      if engState s p = 5 then z else setEngState p (if r = 6 then 6 else 1) (setF F.ENG_STAT_ROLE p 0 r z)
    | none => s
  | none => s

/-- The load of a staged image as at boot in recovery (R304): the boot goes on from SERDES_CAL. -/
def recoveryLoad (g : Gesso) (s : State) : State :=
  showStaged { loadGesso g s with fw := { (loadGesso g s).fw with staged := none } }
    |> setF F.FW_STAT_RECOVERY 0 0 0 |> setF F.RST_STAT_BOOT_STAGE 0 0 4 |> setF F.RST_STAT_PROGRESS 0 0 36

/-- FW_ACTIVATE MODE 1: the staged image is the one loaded at the next warm reset (R305). -/
def markNext (h : Hdr) (s : State) : State :=
  match s.fw.staged with
  | none => failWith h 0x0F03 0x21 0 s
  | some g =>
    if bootStage s = 7 then ok h 0x0F03 (recoveryLoad g s)
    else ok h 0x0F03 (setF F.FW_STAT_NEXT_RESET 0 0 1 { s with boot := { s.boot with nextImage := true } })

/-- FW_ACTIVATE MODE 0: a hitless update begins (R306), or the refusals of R305 and R306. -/
def activate (h : Hdr) (s : State) : State :=
  match s.fw.staged with
  | none => failWith h 0x0F03 0x21 0 s
  | some g =>
    if bootStage s = 7 then ok h 0x0F03 (recoveryLoad g s)
    else if s.fw.update.isSome then failWith h 0x0F03 0x24 0 s
    else
      let cur := (s.fw.running.map (fun r => (r.pipe.id, r.version))).getD (0, 0)
      if g.pipe.id ≠ cur.1 ∨ cur.2 < g.minHitless then failWith h 0x0F03 0x41 0 s
      else if !standInsOk s g then failWith h 0x0F03 0x24 0 s
      else
        let hs := updateHalves s g
        let s1 := { s with fw := { s.fw with update := some { halves := hs, done := 0, cmd := h, rollback := none } } }
        beginHalf g (hs.head?.getD []) (setF F.FW_STAT_PERMILLE 0 0 0 (setF F.FW_STAT_FW_STATE 0 0 2 s1))

/-- FW_ACTIVATE (0x0F03) with its MODE: 0 hitless, 1 at the next reset, others reserved. -/
def execFwActivate (h : Hdr) (mode : Nat) (s : State) : Res :=
  runCmd 0x0F03 h (fun _ => firstBad [resv (decide (1 < mode)) 0 mode]) noCls
    (fun s => if mode = 0 then activate h s else markNext h s) s

/-- FW_ACTIVATE with MODE 1 (R305). -/
def execFwActivateNextReset (h : Hdr) (s : State) : Res := runCmd 0x0F03 h noChk noCls (markNext h) s

/-- FW_FLASH_WRITE (0x0F04, R305): the staged image is written to a flash copy and read back. -/
def execFwFlashWrite (h : Hdr) (copy : Nat) (s : State) : Res :=
  runCmd 0x0F04 h (fun _ => firstBad [bad (decide (1 < copy)) 0]) noCls (fun s =>
    match s.fw.staged with
    | none => failWith h 0x0F04 0x21 0 s
    | some g => ok h 0x0F04 { s with fw := if copy = 0 then { s.fw with flash0 := some g } else { s.fw with flash1 := some g } }) s

/-! ### Hitless update (R306 to R308) -/

/-- The image a half is loaded from. -/
def reloadHalf (g : Gesso) (es : List Nat) (s : State) : State :=
  es.foldl (fun z e => startEngine g e ((g.roles[e]?).getD 6) z) s

/-- HITLESS_HALF_DONE (R306 to R308): the half in progress, drained and without commands in flight, is loaded from the staged image and starts at START; PERMILLE advances and the next half begins, unless an engine has failed: then the rollback begins. -/
def execHitlessHalfDone (t : Nat) (s : State) : Res :=
  live t (fun s =>
    match s.fw.update, s.fw.staged with
    | some u, some g =>
      match (if u.stopped then none else u.halves[u.done]?) with
      | none => s
      | some es =>
        if s.cmd.outstanding.any (fun o => o.dispatched && o.holds && es.contains o.engine) then s
        else
          let good := es.filter (fun e => engState s e ≠ 5)
          let s1 := reloadHalf g good s
          let pm := 1000 * (u.done + 1) / u.halves.length
          let s2 := endStandIn { s1 with fw := { s1.fw with update := some { u with done := u.done + 1, stopped := u.rollback.isSome } } }
            |> setF F.FW_STAT_PERMILLE 0 0 pm |> modOut u.cmd.serial (fun o => { o with permille := pm })
          match u.rollback, u.halves[u.done + 1]? with
          | none, some nxt => beginHalf g nxt s2
          | none, none => s2
          | some _, _ => setF F.FW_STAT_FW_STATE 0 0 3 s2
    | _, _ => s) s

/-- FW_DONE (R307): every half is loaded; the staged image becomes the running one and the command completes. -/
def execFwDone (t : Nat) (s : State) : Res :=
  live t (fun s =>
    match s.fw.update, s.fw.staged with
    | some u, some g =>
      if u.rollback = none ∧ u.halves.length ≤ u.done then
        let s1 := { s with fw := { s.fw with running := some g, staged := none, update := none } }
        finishOpen u.cmd 0x0F03 {} (raise0 Ev.ENG_FW_DONE (showStaged (setReg .FW_RUN_VER 0 0 (BitVec.ofNat 32 g.version) s1)))
      else s
    | _, _ => s) s

/-- FW_ROLLBACK (R308): after an engine failed and the half in progress has ended, every half already loaded is reloaded with the running image in reverse order, and the command completes with ENGINE_FAULT naming the engine; the staged image stays staged. -/
def execFwRollback (t eng : Nat) (s : State) : Res :=
  need (decide (eng < 64)) "engine" eng <| live t (fun s =>
    match s.fw.update, s.fw.running with
    | some u, some g =>
      if u.rollback = some eng ∧ u.stopped = true then
        let s1 := ((u.halves.take u.done).reverse).foldl (fun z es => reloadHalf g (es.filter (fun e => engState z e ≠ 5)) z) s
        let s2 := showStaged { s1 with fw := { s1.fw with update := none } }
        finishOpen u.cmd 0x0F03 { status := 0x31, detail := eng } (raise0 Ev.ENG_FW_ROLLBACK s2)
      else s
    | _, _ => s) s

/-! ### Return of an engine (R302) -/

/-- ENG_RETURN (0x0F05): the failed engine's control store is reloaded and its self-test runs; the reply follows at ENG_SELF_TEST_DONE. -/
def execEngReturn (h : Hdr) (eng : Nat) (s : State) : Res :=
  runCmd 0x0F05 h (fun s => firstBad [bad (decide (63 < eng) || engState s eng ≠ 5) 0]) noCls (fun s =>
    let store := match s.fw.running with
      | some g => storeFor g ((g.roles[eng]?).getD 6)
      | none => []
    setEngine eng { engine s eng with store := store, testing := some (h, s.clk.mono) } s |> setEngState eng 4
      |> fun z => setF F.ENG_POOL_FAILED_COUNT 0 0 (getF z F.ENG_POOL_FAILED_COUNT 0 0 - 1) z) s

/-- The COMMAND engine that acted for the supervisor goes back to its role when AE0 is in service again (R301, R302; log 84). -/
def endActing (eng role : Nat) (s : State) : State :=
  if role ≠ 0 then s
  else (List.range 64).foldl (fun z p =>
    if p ≠ eng ∧ engRole z p = 0 ∧ (engine z p).standFor = none ∧ engState z p ≠ 5 then setF F.ENG_STAT_ROLE p 0 1 z else z) s

/-- ENG_SELF_TEST_DONE (R302): 50 µs after its start the self-test ends; the engine takes its manifest role again at START, or stays FAILED with cause SELF_TEST; the command returns OK in both cases. -/
def execEngSelfTestDone (t eng : Nat) (passed : Bool) (s : State) : Res :=
  need (decide (eng < 64)) "engine" eng <| live t (fun s =>
    match (engine s eng).testing with
    | none => s
    | some (h, from0) =>
      if s.clk.mono < from0 + 50000 then s
      else if passed then
        let role := match s.fw.running with
          | some g => (g.roles[eng]?).getD 6
          | none => 6
        let s1 := setEngine eng { store := (engine s eng).store, ackAt := s.clk.mono } s
          |> setF F.ENG_STAT_ROLE eng 0 role |> setEngState eng (if role = 6 then 6 else 1)
          |> setF F.ENG_FAIL_CAUSE eng 0 0
        ok h 0x0F05 (raise Ev.ENG_RETURNED eng 0 (endActing eng role s1))
      else
        ok h 0x0F05 (setEngine eng { engine s eng with testing := none } s |> setEngState eng 5 |> setF F.ENG_FAIL_CAUSE eng 0 4
          |> bumpSat F.ENG_POOL_FAILED_COUNT 0 0 1)) s

end Sys2Proof.Machine
end

