-- ==== Sys2Proof/Machine/Epochs.lean ====
section
/-! DEFINITION. Epochs: their states, which epoch sees which entry (R126 to R128), and the in-flight counts (R127). -/

namespace Sys2Proof.Machine

/-- CURRENT. -/
def curEpoch (s : State) : Nat := getF s F.EPOCH_STAT_CURRENT 0 0

/-- OLDEST. -/
def oldEpoch (s : State) : Nat := getF s F.EPOCH_STAT_OLDEST 0 0

/-- PENDING: the staged version's epoch, otherwise CURRENT + 1. -/
def pendEpoch (s : State) : Nat := getF s F.EPOCH_STAT_PENDING 0 0

/-- Whether a version is staged. -/
def isStaged (s : State) : Bool := flag s F.EPOCH_STAT_STAGED 0 0

/-- The state of an epoch number (Table 5.3). -/
def epState (s : State) (n : Nat) : Nat :=
  if n < 8 then bits (reg s .EPOCH_STATE0 0 0).toNat (4 * n) 4 else bits (reg s .EPOCH_STATE1 0 0).toNat (4 * (n - 8)) 4

/-- Set an epoch's state, and with it its bit of LIVE: CURRENT, DRAINING, EXPIRED and RECLAIMING are live (R126). -/
def setEpState (n st : Nat) (s : State) : State :=
  let s1 := if n < 8 then setReg .EPOCH_STATE0 0 0 (BitVec.ofNat 32 (putBits (reg s .EPOCH_STATE0 0 0).toNat (4 * n) 4 st)) s
    else setReg .EPOCH_STATE1 0 0 (BitVec.ofNat 32 (putBits (reg s .EPOCH_STATE1 0 0).toNat (4 * (n - 8)) 4 st)) s
  setF F.EPOCH_STAT_LIVE 0 0 (putBit (getF s F.EPOCH_STAT_LIVE 0 0) n (decide (2 ≤ st))) s1

/-- Whether an epoch number is live. -/
def epLive (s : State) (n : Nat) : Bool := bit (getF s F.EPOCH_STAT_LIVE 0 0) n

/-- pos of an epoch (R128). -/
def epPos (s : State) (n : Nat) : Nat := (n + 16 - oldEpoch s) % 16

/-- Whether a packet of live epoch `e` sees a versioned entry (R128). -/
def sees (s : State) (e : Nat) (openEnd : Bool) (vfrom vuntil : Nat) : Bool :=
  (epState s vfrom == 0 || (epLive s vfrom && decide (epPos s vfrom ≤ epPos s e))) &&
    (openEnd || epState s vuntil == 1 || (epLive s vuntil && decide (epPos s e < epPos s vuntil)))

/-- Whether a staged version inserted an entry (R92). -/
def stagedEntry (s : State) (vfrom : Nat) : Bool := isStaged s && vfrom == pendEpoch s

/-- Count a packet in or out of its epoch (R127). -/
def inflight (e : Nat) (up : Bool) (s : State) : State :=
  let c := getF s F.EPOCH_INFLIGHT_COUNT e 0
  setF F.EPOCH_INFLIGHT_COUNT e 0 (if up then c + 1 else c - 1) s

end Sys2Proof.Machine
end

