-- ==== Sys2Proof/Machine/Tables.lean ====
section
/-! DEFINITION. Exact-match and LPM tables, learning and aging (Chapter 4): the logical tables behind the eight replicas, placement with move paths and the overflow store, rehash, learning, aging, search, walk and flush. -/

namespace Sys2Proof.Machine

/-! ### Definitions and contents -/

/-- The exact-match table of an ID in the image in force (R84). -/
def exDef (s : State) (id : Nat) : Option ExactDef :=
  match s.tbl.image with
  | some im => im.exact.find? (fun d => d.id == id)
  | none => none

/-- The LPM table of an ID. -/
def lpmDef (s : State) (id : Nat) : Option LpmDef :=
  match s.tbl.image with
  | some im => im.lpm.find? (fun d => d.id == id)
  | none => none

/-- An exact-match table's contents. -/
def exTab (s : State) (id : Nat) : ExTab := tgetD s.tbl.ex id {}

/-- An LPM table's contents. -/
def lpmTab (s : State) (id : Nat) : LpmTab := tgetD s.tbl.lpm id {}

/-- Buckets of one half (R85). -/
def halfBuckets (d : ExactDef) : Nat := d.blocks / 2 * 524288 / (4 * d.entryBytes)

/-- All slots of a table: both halves and the overflow store. -/
def allSlots (d : ExactDef) : Nat := 8 * halfBuckets d + 8192

/-- A slot's place in the order half 0, half 1, overflow (R105). -/
def slotIx (d : ExactDef) (e : ExEnt) : Nat := e.region * (4 * halfBuckets d) + e.pos

/-- HASH_STATE. -/
def hashState (s : State) (id : Nat) : Nat := getF s F.TBL_STAT0_HASH_STATE id 0

/-- SEED_CUR: the seed register in use; from the arm of a rehash on, the one that holds the new seed. -/
def seedCur (s : State) (id : Nat) : Nat := getF s F.TBL_STAT3_SEED_CUR id 0

/-- GEN advances (R107). -/
def bumpGen (id : Nat) (s : State) : State := setF F.TBL_STAT0_GEN id 0 (getF s F.TBL_STAT0_GEN id 0 + 1) s

/-- MOVE_COUNT advances (R107). -/
def countMoves (id n : Nat) (s : State) : State := setF F.TBL_STAT2_MOVE_COUNT id 0 (getF s F.TBL_STAT2_MOVE_COUNT id 0 + n) s

/-- The aging tick now in force for a table, modulo 2^16. -/
def ageNow (t : ExTab) : Nat := t.age.ticks % 65536

/-- HIT_TS of a newly written entry: the current tick in every replica of an ageable table, zero otherwise (R90, R99, R103). -/
def freshHits (d : ExactDef) (t : ExTab) : List Nat := List.replicate 8 (if d.ageable then ageNow t else 0)

/-! ### Placement (R86, R91) -/

/-- The candidate bucket of a key in a half under a seed (R86). -/
def candidate (d : ExactDef) (seed half key : Nat) : Nat :=
  crcMsb 32 (if half = 0 then 0x04C11DB7 else 0x1EDC6F41) seed (beBytes d.keyLen key) * halfBuckets d / 2 ^ 32

/-- A seed register's value. -/
def seedOf (t : ExTab) (sel : Nat) : Nat := if sel = 0 then t.seedA else t.seedB

/-- The candidates under one seed register, as (half, bucket, seed register). -/
def candsOf (d : ExactDef) (t : ExTab) (sel key : Nat) : List (Nat × Nat × Nat) :=
  [(0, candidate d (seedOf t sel) 0 key, sel), (1, candidate d (seedOf t sel) 1 key, sel)]

/-- The first free slot of a bucket. -/
def freeSlot (l : List ExEnt) (region bucket : Nat) : Option Nat :=
  ((List.range 4).map (4 * bucket + ·)).find? fun p => !l.any (fun e => e.region == region && e.pos == p)

/-- Used slots of a bucket. -/
def usedSlots (l : List ExEnt) (region bucket : Nat) : Nat :=
  (l.filter (fun e => e.region == region && e.pos / 4 == bucket)).length

/-- One step of a move path: the entry and the bucket it moves to. -/
abbrev MoveStep := ExEnt × Nat × Nat

/-- One level of the breadth-first search: the first path that ends in a free slot, or the nodes of the next level. -/
def pathLevel (d : ExactDef) (t : ExTab) (cur : Nat) :
    List ((Nat × Nat × Nat) × Nat × Nat × List MoveStep) → List ((Nat × Nat × Nat) × Nat × Nat × List MoveStep) →
    Option ((Nat × Nat × Nat) × List MoveStep) ⊕ List ((Nat × Nat × Nat) × Nat × Nat × List MoveStep)
  | [], next => .inr next
  | (start, region, bucket, path) :: rest, next =>
    let steps := (List.range 4).filterMap fun k =>
      match t.ents.find? (fun e => e.region == region && e.pos == 4 * bucket + k) with
      | none => none
      | some e =>
        if e.seedSel.toNat ≠ cur || path.any (fun m => m.1 == e) then none
        else some (path ++ [(e, 1 - region, candidate d (seedOf t cur) (1 - region) e.key)])
    match steps.find? (fun p => match p.getLast? with
      | some (_, r, b) => (freeSlot t.ents r b).isSome
      | none => false) with
    | some p => .inl (some (start, p))
    | none => pathLevel d t cur rest (next ++ steps.filterMap fun p => match p.getLast? with
        | some (_, r, b) => some (start, r, b, p)
        | none => none)

/-- The first shortest move path of at most `n` moves, entries of the full candidate buckets taken in candidate and slot order (R91). -/
def movePath (d : ExactDef) (t : ExTab) (cur : Nat) : Nat → List ((Nat × Nat × Nat) × Nat × Nat × List MoveStep) →
    Option ((Nat × Nat × Nat) × List MoveStep)
  | 0, _ => none
  | n + 1, nodes =>
    match pathLevel d t cur nodes [] with
    | .inl r => r
    | .inr next => movePath d t cur n next

/-- Move an entry to a slot (pseudocode move): it lies under the current seed, or under SEED_A's encoding in the overflow store. -/
def moveTo (cur : Nat) (e : ExEnt) (region pos : Nat) (l : List ExEnt) : List ExEnt :=
  l.map fun x => if x = e then { x with region := region, pos := pos, seedSel := decide (region < 2 ∧ cur = 1) } else x

/-- Apply the moves of a path, last first. -/
def applyPath (cur : Nat) (path : List MoveStep) (l : List ExEnt) : List ExEnt :=
  path.reverse.foldl (fun z m => match freeSlot z m.2.1 m.2.2 with
    | some p => moveTo cur m.1 m.2.1 p z
    | none => z) l

/-- Where a key is placed: the contents after the moves made for it, the slot, its SEED_SEL, and how many moves. -/
structure Placed where
  ents : List ExEnt
  region : Nat
  pos : Nat
  sel : Bool
  moves : Nat
deriving DecidableEq, Repr

/-- The least free index of the overflow store. -/
def freeOverflow (l : List ExEnt) : Option Nat :=
  let used := (l.filter (fun e => e.region == 2)).map (·.pos)
  if 8192 ≤ used.length then none else firstIx (used.length + 1) (fun i => !used.contains i)

/-- A free slot in a candidate bucket: fewest used slots first, ties in candidate order, the candidates of the new seed before those of the old (Table 4.3). -/
def placeFree (t : ExTab) (cands : List (Nat × Nat × Nat)) (newSel : Nat) : Option Placed :=
  let order := sortBy (fun c => (if c.2.2 = newSel then 0 else 8) + usedSlots t.ents c.1 c.2.1) cands
  order.findSome? fun c => match freeSlot t.ents c.1 c.2.1 with
    | some p => some ⟨t.ents, c.1, p, c.2.2 == 1, 0⟩
    | none => none

/-- The insert procedure's place: a free candidate slot, then a move path of at most 4 moves, then the overflow store (R91). -/
def placeKey (d : ExactDef) (t : ExTab) (cands : List (Nat × Nat × Nat)) (cur : Nat) : Option Placed :=
  match placeFree t cands cur with
  | some p => some p
  | none =>
    match movePath d t cur 4 (cands.map fun c => (c, c.1, c.2.1, [])) with
    | some (c, path) =>
      let l := applyPath cur path t.ents
      match path.head? with
      | some m => some ⟨l, m.1.region, m.1.pos, c.2.2 == 1, path.length⟩
      | none => none
    | none => match freeOverflow t.ents with
      | some i => some ⟨t.ents, 2, i, false, 0⟩
      | none => none

/-- The candidates that inserts and learning place under (Table 4.3): the current seed, and in MIGRATE then the old one. -/
def placeCands (s : State) (d : ExactDef) (t : ExTab) (key : Nat) : List (Nat × Nat × Nat) :=
  let cur := seedCur s d.id
  candsOf d t cur key ++ (if hashState s d.id = 1 then candsOf d t (1 - cur) key else [])

/-! ### Writing a table -/

/-- Residual entries: those still placed under the old seed (R94). -/
def residuals (s : State) (id : Nat) (t : ExTab) : Nat :=
  (t.ents.filter (fun e => decide (e.region < 2) && e.seedSel.toNat ≠ seedCur s id)).length

/-- Store a table's contents with its status registers; a RESIDUAL table whose count reaches 0 becomes STABLE in that window (R95). -/
def setExTab (id : Nat) (t : ExTab) (s : State) : State :=
  let s1 := { s with tbl := { s.tbl with ex := tset s.tbl.ex id t } }
    |> setF F.TBL_STAT1_ENTRIES id 0 t.ents.length
    |> setF F.TBL_STAT2_OVF_USED id 0 (t.ents.filter (fun e => e.region == 2)).length
  if hashState s id = 2 then
    let r := residuals s id t
    let s2 := setF F.TBL_STAT3_RESIDUAL id 0 r s1
    if r = 0 then raise0 Ev.LEARN_BG_DONE (bumpGen id (setF F.TBL_STAT0_HASH_STATE id 0 0 s2)) else s2
  else s1

/-- The engines make `n` entry writes in update windows (R89): a slot that changes is one write, so an insert with moves takes one more than its moves. -/
def useWindow (n : Nat) (s : State) : State := { s with tbl := { s.tbl with winUsed := s.tbl.winUsed + n } }

/-- Write a new entry where the insert procedure finds a place; none where the table is full. -/
def exInsert (d : ExactDef) (e : ExEnt) (s : State) : Option State :=
  let t := exTab s d.id
  match placeKey d t (placeCands s d t e.key) (seedCur s d.id) with
  | none => none
  | some p =>
    let new := { e with region := p.region, pos := p.pos, seedSel := p.sel }
    some (useWindow (p.moves + 1) (countMoves d.id p.moves (setExTab d.id { t with ents := p.ents ++ [new] } s)))

/-- drain_overflow: the lowest-indexed overflow entry one of whose candidates under the current seed is a freed bucket moves there. -/
def drainOverflow (d : ExactDef) (region bucket : Nat) (s : State) : State :=
  let t := exTab s d.id
  let cur := seedCur s d.id
  let homes := sortBy (fun e => e.pos) (t.ents.filter (fun e => e.region == 2 && candidate d (seedOf t cur) region e.key == bucket))
  match homes.head?, freeSlot t.ents region bucket with
  | some e, some p =>
    useWindow 2 (bump .OVF_DRAIN 0 0 1 (countMoves d.id 1 (setExTab d.id { t with ents := moveTo cur e region p t.ents } s)))
  | _, _ => s

/-- Remove an entry in one window, without a drain. -/
def exRemove (d : ExactDef) (e : ExEnt) (s : State) : State :=
  let t := exTab s d.id
  useWindow 1 (setExTab d.id { t with ents := t.ents.filter (fun x => x ≠ e) } s)

/-- Delete an entry of a dynamic table, with the drain of its bucket. -/
def exDelete (d : ExactDef) (e : ExEnt) (s : State) : State :=
  let s1 := exRemove d e s
  if e.region < 2 then drainOverflow d e.region (e.pos / 4) s1 else s1

/-- Change an entry where it lies, outside the count of engine writes: by the learn assist, or a replica's own HIT_TS (R90). -/
def exModify (d : ExactDef) (e e' : ExEnt) (s : State) : State :=
  let t := exTab s d.id
  setExTab d.id { t with ents := t.ents.map (fun x => if x = e then e' else x) } s

/-- The entry that insert and delete act on (pseudocode current): in a versioned table the one the pending epoch will see. -/
def exCurrent (d : ExactDef) (t : ExTab) (key : Nat) : Option ExEnt :=
  t.ents.find? (fun e => e.key == key && (!d.versioned || e.openEnd))

/-- A packet's lookup (R88): the entry of a key that its epoch sees. -/
def exLookup (s : State) (d : ExactDef) (epoch key : Nat) : Option ExEnt :=
  (exTab s d.id).ents.find? (fun e => e.key == key && (!d.versioned || sees s epoch e.openEnd e.vfrom e.vuntil))

/-- The replica that served a lookup records the hit in an ageable table (R90). -/
def exHit (d : ExactDef) (e : ExEnt) (cluster : Nat) (s : State) : State :=
  if d.ageable then
    let t := exTab s d.id
    { s with tbl := { s.tbl with ex := tset s.tbl.ex d.id { t with ents := t.ents.map (fun x => if x = e then { x with hit := listSet x.hit cluster (ageNow t) } else x) } } }
  else s

/-! ### LPM tables (R109, R110) -/

/-- Address bits of an LPM table. -/
def lpmBits (d : LpmDef) : Nat := if d.v6 then 128 else 32

/-- KEY_LEN of an LPM table: the 16-bit routing instance, then the address. -/
def lpmKeyLen (d : LpmDef) : Nat := 2 + lpmBits d / 8

/-- An address cut to a prefix length. -/
def cutAddr (d : LpmDef) (addr plen : Nat) : Nat := addr / 2 ^ (lpmBits d - plen) * 2 ^ (lpmBits d - plen)

/-- Store an LPM table's contents with ENTRIES. -/
def setLpmTab (id : Nat) (t : LpmTab) (s : State) : State :=
  setF F.TBL_STAT1_ENTRIES id 0 t.ents.length { s with tbl := { s.tbl with lpm := tset s.tbl.lpm id t } }

/-- A packet's longest-prefix lookup: the entry, none for the default data. -/
def lpmLookup (s : State) (d : LpmDef) (epoch tri addr : Nat) : Option LpmEnt :=
  let hits := (lpmTab s d.id).ents.filter fun e =>
    e.tri == tri && cutAddr d addr e.plen == e.addr && sees s epoch e.openEnd e.vfrom e.vuntil
  leastBy (fun e => 128 - e.plen) hits

/-- Whether an LPM table has room: its rated count holds without condition; above it the spec leaves open whether an insert succeeds, a free value (place 1401). -/
def lpmRoom (s : State) (d : LpmDef) (t : LpmTab) (plen : Nat) : Bool :=
  let long := d.v6 && decide (64 < plen)
  let n := (t.ents.filter (fun e => (d.v6 && decide (64 < e.plen)) == long)).length
  decide (n < (if long then d.ratedLong else d.rated)) || freeAt 1401 s % 2 == 0

/-- The least unused leaf slot index. -/
def lpmSlot (t : LpmTab) : Nat := (firstIx (t.ents.length + 1) (fun i => !t.ents.any (fun e => e.slot == i))).getD 0

/-! ### TBL_INSERT and TBL_DELETE -/

/-- Whether a table ID is defined, and whether the table is versioned. -/
def tblKnown (s : State) (id : Nat) : Bool := (exDef s id).isSome || (lpmDef s id).isSome

/-- The lock class of a table command: TABLES for a dynamic table, POLICY otherwise (Table 12.5). -/
def tblClass (s : State) (id : Nat) : Option Nat :=
  match exDef s id with
  | some d => some (if d.versioned then 1 else 0)
  | none => some 1

/-- Step 11 for a key of a table, and its data where `withData`. -/
def keyChecks (s : State) (p : TblKey) (withData : Bool) : Chk :=
  match exDef s p.table, lpmDef s p.table with
  | some d, _ => firstBad [bad (p.keyLen ≠ d.keyLen) 2, bad (withData && p.dataLen ≠ d.dataLen) 3, bad (p.prefixLen ≠ 0) 4]
  | none, some d => firstBad [bad (p.keyLen ≠ lpmKeyLen d) 2, bad (withData && p.dataLen ≠ d.dataLen) 3, bad (decide (lpmBits d < p.prefixLen)) 4]
  | none, none => firstBad [bad true 0]

/-- The VALID_UNTIL of an entry with OPEN_END = 1, which the spec says is ignored and leaves open: a free value (place 1402). -/
def openUntil (s : State) : Nat := freeAt 1402 s % 16

/-- TABLE_FULL_REHASH, with the residual count. -/
def tableFull (h : Hdr) (op id : Nat) (s : State) : State := failWith h op 0x20 (getF s F.TBL_STAT3_RESIDUAL id 0) s

/-- Note for POL_ABORT that the staged version ended an entry. -/
def addUndo (u : Undo) (s : State) : State := { s with tbl := { s.tbl with undo := u :: s.tbl.undo } }

/-- TBL_INSERT into an exact-match table (pseudocode insert, R92). -/
def insertExact (h : Hdr) (d : ExactDef) (p : TblKey) (s : State) : State :=
  let t := exTab s d.id
  let new : ExEnt :=
    { region := 0, pos := 0, static := p.static, origin := 0, openEnd := true, seedSel := false,
      vfrom := if d.versioned then pendEpoch s else 0, vuntil := if d.versioned then openUntil s else 0,
      key := p.key, data := p.data, hit := freshHits d t }
  let s0 := if d.versioned then drawn s else s
  match exCurrent d t p.key with
  | none => match exInsert d new s0 with
    | some s1 => ok h 0x0101 s1
    | none => tableFull h 0x0101 d.id s
  | some e =>
    if !p.replace then failWith h 0x0101 0x22 0 s
    else if !d.versioned || stagedEntry s e.vfrom then
      ok h 0x0101 (useWindow 1 (exModify d e { e with data := p.data, static := p.static, origin := 0, hit := freshHits d t } s))
    else match exInsert d new s0 with
      | none => tableFull h 0x0101 d.id s
      | some s1 =>
        -- the superseded entry may have moved for the new one: it is found by its key and VALID_FROM
        let ended (x : ExEnt) : ExEnt := if x.key == e.key && x.vfrom == e.vfrom && x.openEnd then { x with vuntil := pendEpoch s, openEnd := false } else x
        let t1 := exTab s1 d.id
        ok h 0x0101 (useWindow 1 (addUndo (.exact d.id e.key e.vuntil) (setExTab d.id { t1 with ents := t1.ents.map ended } s1)))

/-- TBL_INSERT into an LPM table (R110); address bits beyond the prefix are taken as zero. -/
def insertLpm (h : Hdr) (d : LpmDef) (p : TblKey) (s : State) : State :=
  let t := lpmTab s d.id
  let tri := p.key / 2 ^ lpmBits d
  let addr := cutAddr d (p.key % 2 ^ lpmBits d) p.prefixLen
  let same (e : LpmEnt) : Bool := e.tri == tri && e.addr == addr && e.plen == p.prefixLen && e.openEnd
  let new : LpmEnt := { slot := lpmSlot t, static := p.static, tri := tri, addr := addr, plen := p.prefixLen, data := p.data, openEnd := true,
                        vfrom := pendEpoch s, vuntil := openUntil s }
  let s0 := drawn s
  match t.ents.find? same with
  | none => if lpmRoom s d t p.prefixLen then ok h 0x0101 (setLpmTab d.id { t with ents := t.ents ++ [new] } s0) else tableFull h 0x0101 d.id s0
  | some e =>
    if !p.replace then failWith h 0x0101 0x22 0 s
    else if stagedEntry s e.vfrom then
      ok h 0x0101 (setLpmTab d.id { t with ents := t.ents.map (fun x => if x = e then { x with data := p.data, static := p.static } else x) } s)
    else if lpmRoom s d t p.prefixLen then
      let old := t.ents.map (fun x => if x = e then { x with vuntil := pendEpoch s, openEnd := false } else x)
      ok h 0x0101 (addUndo (.lpm d.id tri addr p.prefixLen e.vuntil) (setLpmTab d.id { t with ents := old ++ [new] } s0))
    else tableFull h 0x0101 d.id s0

/-- TBL_INSERT (0x0101, R91, R92, R110). -/
def execTblInsert (h : Hdr) (p : TblKey) (s : State) : Res :=
  runCmd 0x0101 h (fun s => keyChecks s p true) (fun s => tblClass s p.table) (fun s =>
    match exDef s p.table, lpmDef s p.table with
    | some d, _ => if d.versioned && !isStaged s then failWith h 0x0101 0x15 0 s else insertExact h d p s
    | none, some d => if isStaged s then insertLpm h d p s else failWith h 0x0101 0x15 0 s
    | none, none => badParam h 0x0101 32 s) s

/-- TBL_DELETE in an exact-match table (pseudocode delete). -/
def deleteExact (h : Hdr) (d : ExactDef) (p : TblKey) (s : State) : State :=
  match exCurrent d (exTab s d.id) p.key with
  | none => failWith h 0x0102 0x21 0 s
  | some e =>
    if !d.versioned then ok h 0x0102 (exDelete d e s)
    else if stagedEntry s e.vfrom then ok h 0x0102 (exRemove d e s)
    else ok h 0x0102 (useWindow 1 (addUndo (.exact d.id e.key e.vuntil) (exModify d e { e with vuntil := pendEpoch s, openEnd := false } s)))

/-- TBL_DELETE in an LPM table. -/
def deleteLpm (h : Hdr) (d : LpmDef) (p : TblKey) (s : State) : State :=
  let t := lpmTab s d.id
  let tri := p.key / 2 ^ lpmBits d
  let addr := cutAddr d (p.key % 2 ^ lpmBits d) p.prefixLen
  match t.ents.find? (fun e => e.tri == tri && e.addr == addr && e.plen == p.prefixLen && e.openEnd) with
  | none => failWith h 0x0102 0x21 0 s
  | some e =>
    if stagedEntry s e.vfrom then ok h 0x0102 (setLpmTab d.id { t with ents := t.ents.filter (fun x => x ≠ e) } s)
    else
      let l := t.ents.map (fun x => if x = e then { x with vuntil := pendEpoch s, openEnd := false } else x)
      ok h 0x0102 (addUndo (.lpm d.id tri addr p.prefixLen e.vuntil) (setLpmTab d.id { t with ents := l } s))

/-- TBL_DELETE (0x0102, R91, R92, R110). -/
def execTblDelete (h : Hdr) (p : TblKey) (s : State) : Res :=
  runCmd 0x0102 h (fun s => keyChecks s p false) (fun s => tblClass s p.table) (fun s =>
    match exDef s p.table, lpmDef s p.table with
    | some d, _ => if d.versioned && !isStaged s then failWith h 0x0102 0x15 0 s else deleteExact h d p s
    | none, some d => if isStaged s then deleteLpm h d p s else failWith h 0x0102 0x15 0 s
    | none, none => badParam h 0x0102 32 s) s

/-! ### Search and walk (R104 to R107) -/

/-- Age of an entry in one replica (R101). -/
def ageOf (t : ExTab) (hit : Nat) : Nat := (ageNow t + 65536 - hit) % 65536

/-- Whether an entry is stale in a replica. -/
def staleIn (t : ExTab) (hit : Nat) : Bool := decide (t.age.ageTicks ≤ ageOf t hit)

/-- Whether an entry is stale in all eight replicas. -/
def staleAll (t : ExTab) (e : ExEnt) : Bool := e.hit.all (staleIn t)

/-- CTRL of an entry (Table 4.2). -/
def ctrlOf (static : Bool) (origin : Nat) (versioned openEnd seedSel : Bool) (vfrom vuntil : Nat) : Nat :=
  32768 + b2n static * 16384 + origin % 4 * 4096 + b2n versioned * 2048 + b2n openEnd * 1024 + b2n seedSel * 512
    + (if versioned then vfrom % 16 * 16 + vuntil % 16 else 0)

/-- The entry record of Table 4.5 for an exact-match entry. -/
def exRecord (d : ExactDef) (t : ExTab) (e : ExEnt) : List Byte :=
  let ages := e.hit.map (ageOf t)
  let age := if d.ageable then ages.foldl min 0xFFFF else 0xFFFF
  let mask := if d.ageable then ((List.range 8).filter (fun k => staleIn t ((e.hit[k]?).getD 0))).foldl (fun m k => m + 2 ^ k) 0 else 0
  let kd := leBytes d.keyLen e.key ++ leBytes d.dataLen e.data
  leBytes 2 (ctrlOf e.static e.origin d.versioned e.openEnd e.seedSel e.vfrom e.vuntil) ++ leBytes 2 age
    ++ leBytes 1 mask ++ leBytes 1 e.region ++ leBytes 1 d.keyLen ++ leBytes 1 d.dataLen ++ (kd ++ zeros 32).take 32

/-- The entry record for a prefix. -/
def lpmRecord (d : LpmDef) (e : LpmEnt) : List Byte :=
  let kd := leBytes (lpmKeyLen d) (e.tri * 2 ^ lpmBits d + e.addr) ++ leBytes d.dataLen e.data
  leBytes 2 (ctrlOf e.static 0 true e.openEnd false e.vfrom e.vuntil) ++ leBytes 2 0xFFFF ++ leBytes 1 0 ++ leBytes 1 3
    ++ leBytes 1 (lpmKeyLen d) ++ leBytes 1 d.dataLen ++ (kd ++ zeros 32).take 32

/-- The records of TBL_SEARCH (R104): the entry the epoch in force sees, then the staged one. -/
def searchRecords (s : State) (p : TblKey) : List (List Byte) :=
  match exDef s p.table, lpmDef s p.table with
  | some d, _ =>
    let t := exTab s d.id
    let l := t.ents.filter (fun e => e.key == p.key)
    let now := l.filter (fun e => !d.versioned || sees s (curEpoch s) e.openEnd e.vfrom e.vuntil)
    let st := l.filter (fun e => d.versioned && stagedEntry s e.vfrom && e.openEnd)
    (now.take 1 ++ st.take 1).map (exRecord d t)
  | none, some d =>
    let tri := p.key / 2 ^ lpmBits d
    let addr := cutAddr d (p.key % 2 ^ lpmBits d) p.prefixLen
    let l := (lpmTab s d.id).ents.filter (fun e => e.tri == tri && e.addr == addr && e.plen == p.prefixLen)
    let now := l.filter (fun e => sees s (curEpoch s) e.openEnd e.vfrom e.vuntil)
    let st := l.filter (fun e => stagedEntry s e.vfrom && e.openEnd)
    (now.take 1 ++ st.take 1).map (lpmRecord d)
  | none, none => []

/-- TBL_SEARCH (0x0103, R104). -/
def execTblSearch (h : Hdr) (p : TblKey) (s : State) : Res :=
  runCmd 0x0103 h (fun s => keyChecks s p false) noCls (fun s =>
    match searchRecords s p with
    | [] => failWith h 0x0103 0x21 0 s
    | l => finish h 0x0103 { data := l.flatMap id } s) s

/-- The slots a walk covers: an LPM table is walked by leaf slot index. -/
def walkEnd (s : State) (id : Nat) : Nat :=
  match exDef s id with
  | some d => allSlots d
  | none => match leastBy (fun e => 2 ^ 40 - e.slot) (lpmTab s id).ents with
    | some e => e.slot + 1
    | none => 0

/-- The leaf slots of an LPM table: as many as its rated prefixes, or more where more are in use; the spec gives their number for no table (log 75). -/
def lpmSlots (s : State) (id : Nat) : Nat := match lpmDef s id with
  | some d => max (d.rated + d.ratedLong) (walkEnd s id)
  | none => 0

/-- The place in the walk that a cursor's REGION and POSITION name (Table 4.6), none beyond the table. -/
def walkPos (s : State) (id region pos : Nat) : Option Nat :=
  match exDef s id with
  | some d =>
    let half := 4 * halfBuckets d
    if region < 2 then (if pos < half then some (region * half + pos) else none)
    else if region = 2 then (if pos < 8192 then some (2 * half + pos) else none)
    else some (allSlots d)
  | none => if region = 3 then some (walkEnd s id) else if region = 0 ∧ pos < lpmSlots s id then some pos else none

/-- REGION and POSITION of a place in the walk. -/
def walkCursor (s : State) (id ix : Nat) : Nat × Nat :=
  if walkEnd s id ≤ ix then (3, 0)
  else match exDef s id with
    | some d =>
      let half := 4 * halfBuckets d
      if ix < half then (0, ix) else if ix < 2 * half then (1, ix - half) else (2, ix - 2 * half)
    | none => (0, ix)

/-- A cursor (Table 4.6). -/
def cursorOf (s : State) (id ix : Nat) : Nat :=
  let rp := walkCursor s id ix
  getF s F.TBL_STAT0_GEN id 0 * 2 ^ 48 + id % 64 * 2 ^ 42 + rp.1 * 2 ^ 40 + rp.2

/-- A key as the 16 bytes of a filter compare it, least significant byte first (R10, R105).  Of an 18-byte LPM IPv6 key they are the address; the routing instance above it is not compared (DESIGN CHOICE, log 75: the spec gives the filter 16 bytes and such a key 18). -/
def filterKey (key : Nat) : Nat := key % 2 ^ 128

/-- The records of a walk with their places: entries from `start` on that pass the filters of TBL_NEXT (R105). -/
def walkHits (s : State) (p : TblNext) (start stop : Nat) : List (Nat × List Byte) :=
  let keyOk (key : Nat) : Bool := Nat.land (Nat.xor (filterKey key) p.key) p.keyMask == 0
  match exDef s p.table with
  | some d =>
    let t := exTab s d.id
    let dest (e : ExEnt) : Nat := match d.destLo with
      | some lo => bits e.data lo 12
      | none => 0
    let l := t.ents.filter fun e => decide (start ≤ slotIx d e) && decide (slotIx d e < stop) && keyOk e.key
      && bit p.originMask e.origin && (!p.destFilter || Nat.land (Nat.xor (dest e) p.dest) p.destMask == 0)
      && (!p.staleOnly || (d.ageable && staleAll t e))
    (sortBy (slotIx d) l).map fun e => (slotIx d e, exRecord d t e)
  | none => match lpmDef s p.table with
    | some d =>
      let l := (lpmTab s d.id).ents.filter fun e => decide (start ≤ e.slot) && decide (e.slot < stop)
        && keyOk (e.tri * 2 ^ lpmBits d + e.addr) && bit p.originMask 0 && !p.staleOnly
      (sortBy (fun e => e.slot) l).map fun e => (e.slot, lpmRecord d e)
    | none => []

/-- One call of a walk from a place: up to MAX records over at most 65,536 slots, and the next place. -/
def walkStep (s : State) (p : TblNext) (start max : Nat) : List (List Byte) × Nat :=
  let stop := min (walkEnd s p.table) (start + 65536)
  let hits := (walkHits s p start stop).take max
  (hits.map (·.2), if max = 0 then start else if hits.length < max then stop else match hits.getLast? with
    | some x => x.1 + 1
    | none => stop)

/-- Steps 10 and 11 of TBL_NEXT but for its cursor. -/
def nextChecks (s : State) (p : TblNext) : Chk :=
  let noDest := match exDef s p.table with
    | some d => d.destLo == none
    | none => true
  firstBad [bad (!tblKnown s p.table) 0, bad (p.max = 0 || decide (64 < p.max)) 1, bad (p.destFilter && noDest) 2]

/-- TBL_NEXT (0x0104, R105, R106, R279). -/
def execTblNext (h : Hdr) (p : TblNext) (s : State) : Res :=
  runCmd 0x0104 h (fun s =>
      match nextChecks s p with
      | some c => some c
      | none => firstBad [bad (p.cursor ≠ 0 && (bits p.cursor 42 6 ≠ p.table || (walkPos s p.table (bits p.cursor 40 2) (bits p.cursor 0 40)).isNone)) 8])
    noCls (fun s =>
      let gen := getF s F.TBL_STAT0_GEN p.table 0
      if p.cursor ≠ 0 ∧ bits p.cursor 48 16 ≠ gen then failWith h 0x0104 0x23 gen s
      else
        let start := if p.cursor = 0 then 0 else (walkPos s p.table (bits p.cursor 40 2) (bits p.cursor 0 40)).getD 0
        let r := walkStep s p start (fitMax s h 0 40 p.max)
        finish h 0x0104 { data := r.1.flatMap id, cursor := cursorOf s p.table r.2 } s) s

/-! ### Background operations (R94 to R97, R108) -/

/-- The background operation of a table. -/
def bgOf (s : State) (id : Nat) : Option BgOp :=
  match exDef s id with
  | some _ => (exTab s id).bg
  | none => (lpmTab s id).bg

/-- PERMILLE of a background operation (R96, R108, R110): 1,000 times the positions visited over all of them, rounded down. -/
def bgPermille (b : BgOp) : Nat := 1000 * min b.visited b.total / max 1 b.total

/-- The place in the walk at which a background operation stands: a rehash visits buckets, then overflow entries; a flush and a repack visit slots (R94, R96, R108). -/
def bgSlot (s : State) (id : Nat) (b : BgOp) : Nat :=
  match exDef s id with
  | some d => if b.flush then b.visited else if b.visited < 2 * halfBuckets d then 4 * b.visited else 8 * halfBuckets d + (b.visited - 2 * halfBuckets d)
  | none => b.visited

/-- Set it, with BG_OP and PERMILLE (R96, R113). -/
def setBg (id : Nat) (b : Option BgOp) (s : State) : State :=
  let s1 := match exDef s id with
    | some _ => { s with tbl := { s.tbl with ex := tset s.tbl.ex id { exTab s id with bg := b } } }
    | none => { s with tbl := { s.tbl with lpm := tset s.tbl.lpm id { lpmTab s id with bg := b } } }
  setF F.TBL_STAT0_BG_OP id 0 (match b with
    | some o => if o.flush then 2 else 1
    | none => 0) (setF F.TBL_STAT0_PERMILLE id 0 (match b with
      | some o => bgPermille o
      | none => 0) s1)

/-- The progress and cursor of a background operation as its command's replies report them (R96, R278). -/
def reportBg (id : Nat) (s : State) : State :=
  match bgOf s id with
  | some b => match b.cmd with
    | some h => modOut h.serial (fun c => { c with permille := bgPermille b, cursor := cursorOf s id (bgSlot s id b) }) s
    | none => s
  | none => s

/-- Background operations running in the device. -/
def bgCount (s : State) : Nat := countIx 64 (fun id => (bgOf s id).isSome)

/-- A command that runs in the background has started: its reply waits; it holds its objects no longer. -/
def background (h : Hdr) (s : State) : State := modOut h.serial (fun o => { o with holds := false }) s

/-- TBL_REHASH (0x0106, R94, R95, R97, R110). -/
def execTblRehash (h : Hdr) (table seed : Nat) (s : State) : Res :=
  runCmd 0x0106 h (fun s => firstBad [bad (!tblKnown s table) 0, bad ((lpmDef s table).isSome && seed ≠ 0) 4]) (fun s => tblClass s table) (fun s =>
    if (bgOf s table).isSome || hashState s table ≠ 0 || decide (16 ≤ bgCount s) then failWith h 0x0106 0x24 0 s
    else match exDef s table with
      | some d =>
        let cur := seedCur s table
        let t := exTab s table
        let t1 := if cur = 0 then { t with seedB := seed } else { t with seedA := seed }
        let s1 := { s with tbl := { s.tbl with ex := tset s.tbl.ex table t1 } } |> setF F.TBL_STAT3_SEED_CUR table 0 (1 - cur)
          |> setF F.TBL_STAT0_HASH_STATE table 0 1
        background h (reportBg table (setBg table (some { flush := false, visited := 0, total := 2 * halfBuckets d + 8192, params := none, deleted := 0, cmd := some h }) s1))
      | none =>
        background h (reportBg table (setBg table (some { flush := false, visited := 0, total := walkEnd s table, params := none, deleted := 0, cmd := some h }) s))) s

/-- Reinsert one entry under the current seed by the insert procedure; it stays where it is where nothing is free (R94). -/
def reinsert (d : ExactDef) (e : ExEnt) (s : State) : State :=
  let t := exTab s d.id
  let cur := seedCur s d.id
  if t.ents.contains e then
    match placeKey d t (candsOf d t cur e.key) cur with
    | some p => useWindow (p.moves + 2) (countMoves d.id (p.moves + 1) (setExTab d.id { t with ents := moveTo cur e p.region p.pos p.ents } s))
    | none => s
  else s

/-- The entries still under the old seed, in bucket order, half 0 then half 1. -/
def oldSeedEnts (s : State) (d : ExactDef) : List ExEnt :=
  sortBy (slotIx d) ((exTab s d.id).ents.filter (fun e => decide (e.region < 2) && e.seedSel.toNat ≠ seedCur s d.id))

/-- One visit of the overflow phase: into a free candidate slot of the new seed where one exists (R94). -/
def overflowHome (d : ExactDef) (e : ExEnt) (s : State) : State :=
  let t := exTab s d.id
  let cur := seedCur s d.id
  match placeFree t (candsOf d t cur e.key) cur with
  | some p => useWindow 2 (bump .OVF_DRAIN 0 0 1 (countMoves d.id 1 (setExTab d.id { t with ents := moveTo cur e p.region p.pos t.ents } s)))
  | none => s

/-- Whether a flush deletes an entry (R108, Table 4.7). -/
def flushMatch (d : ExactDef) (p : TblFlush) (e : ExEnt) : Bool :=
  match d.destLo with
  | none => false
  | some lo =>
    let dest := bits e.data lo 12
    let m := if p.kind = 2 then dest / 1024 == 2 && bit p.value (dest % 4) else dest / 1024 == p.kind && dest % 1024 == p.value
    m && (p.inclStatic || !e.static) &&
      (!p.keyFilter || Nat.land (Nat.xor (filterKey e.key) p.key) p.keyMask == 0)

/-! ### The walk of a background operation -/

/-- The position at which a walk visits an entry (R94, R108): its slot for a flush; its bucket, or its place behind all buckets in the overflow store, for a rehash. -/
def visitPos (d : ExactDef) (flush : Bool) (e : ExEnt) : Nat :=
  if flush then slotIx d e else if e.region < 2 then e.region * halfBuckets d + e.pos / 4 else 2 * halfBuckets d + e.pos

/-- The entries that a walk acts on at positions [from, stop), in slot order: a flush's matches, or a rehash's entries under the old seed and in the overflow store. -/
def bgTodo (s : State) (d : ExactDef) (b : BgOp) (first stop : Nat) : List ExEnt :=
  sortBy (slotIx d) ((exTab s d.id).ents.filter fun e =>
    decide (first ≤ visitPos d b.flush e) && decide (visitPos d b.flush e < stop) &&
      (match b.params with
        | some p => flushMatch d p e
        | none => decide (e.region = 2) || e.seedSel.toNat ≠ seedCur s d.id))

/-- What a walk does at one entry; one that a drain has moved is found again by its key. -/
def bgTurn (d : ExactDef) (b : BgOp) (e : ExEnt) (s : State) : State :=
  if b.flush then
    match (exTab s d.id).ents.find? (fun x => x.key == e.key) with
    | some x => exDelete d x s
    | none => s
  else if e.region < 2 then reinsert d e s else overflowHome d e s

/-- Go through a list of entries while the windows' room lasts (none: without bound): the state, how many were done, and the entry at which the room ended. -/
def bgWalk (d : ExactDef) (b : BgOp) (cap : Option Nat) : List ExEnt → Nat → State → State × Nat × Option ExEnt
  | [], n, s => (s, n, none)
  | e :: es, n, s =>
    let z := bgTurn d b e s
    match cap with
    | some c => if c < z.tbl.winUsed then (s, n, some e) else bgWalk d b cap es (n + 1) z
    | none => bgWalk d b cap es (n + 1) z

/-- One stretch of a walk, to a position at most, within the buckets or within the overflow store. -/
def bgStretch (d : ExactDef) (cap : Option Nat) (stop : Nat) (x : BgOp × State) : BgOp × State :=
  let b := x.1
  if stop ≤ b.visited then x
  else
    let r := bgWalk d b cap (bgTodo x.2 d b b.visited stop) 0 x.2
    ({ b with visited := (r.2.2.map (visitPos d b.flush)).getD stop, deleted := if b.flush then b.deleted + r.2.1 else b.deleted }, r.1)

/-- A background operation goes on to a position (R94 to R97, R108, R110): every bucket, then every overflow entry. -/
def bgAdvance (id stop : Nat) (cap : Option Nat) (s : State) : State :=
  match bgOf s id with
  | none => s
  | some b =>
    match exDef s id with
    | none => reportBg id (setBg id (some { b with visited := max b.visited (min stop b.total) }) s)
    | some d =>
      let two := if b.flush then b.total else 2 * halfBuckets d
      let x := bgStretch d cap (min stop two) (b, s)
      let y := if two ≤ x.1.visited then bgStretch d cap (min stop b.total) x else x
      reportBg id (setBg id (some y.1) y.2)

/-- The rest of a walk, whose writes lie in windows before its end. -/
def bgFinish (id : Nat) (b : BgOp) (s : State) : State :=
  let z := bgAdvance id b.total none s
  { z with tbl := { z.tbl with winUsed := s.tbl.winUsed } }

/-- The final reply of a background command, where it is still to be answered (R97). -/
def bgReply (op : Nat) (b : BgOp) (a : Answer) (s : State) : State :=
  match b.cmd with
  | some h => finishOpen h op a s
  | none => s

/-- Start the flush that waits for a table, if any (R337): kind PEER with the mask of the twin ports, sparing static entries. -/
def startPeerFlush (id : Nat) (s : State) : State :=
  if s.twin.flushTables.contains id && (bgOf s id).isNone && hashState s id ≠ 1 then
    match exDef s id with
    | some d =>
      let p : TblFlush := { table := id, kind := 2, inclStatic := false, keyFilter := false, value := if s.twin.bonded then 3 else 1, key := 0, keyMask := 0 }
      setBg id (some { flush := true, visited := 0, total := allSlots d, params := some p, deleted := 0, cmd := none })
        { s with twin := { s.twin with flushTables := s.twin.flushTables.filter (· ≠ id) } }
    | none => { s with twin := { s.twin with flushTables := s.twin.flushTables.filter (· ≠ id) } }
  else s

/-- REHASH_DONE (R94): the walk, the overflow phase and the finish of a rehash, or the end of a repack (R110). -/
def execRehashDone (t table : Nat) (s : State) : Res :=
  need (decide (table < 64)) "table" table <| live t (fun s =>
    match bgOf s table with
    | none => s
    | some b =>
      if b.flush then s
      else match exDef s table with
        | none => bgReply 0x0106 b {} (raise0 Ev.LEARN_BG_DONE (bumpGen table (setBg table none s)))
        | some _ =>
          let s2 := bgFinish table b s
          let r := residuals s2 table (exTab s2 table)
          let s3 := setBg table none s2 |> setF F.TBL_STAT3_RESIDUAL table 0 r |> setF F.TBL_STAT0_HASH_STATE table 0 (if r = 0 then 0 else 2)
            |> bumpGen table
          let s4 := { s3 with tbl := { s3.tbl with ex := tset s3.tbl.ex table { exTab s3 table with retryAt := s3.clk.mono + 100000000 } } }
          let s5 := raise0 Ev.LEARN_BG_DONE (if r = 0 then s4 else raise0 Ev.LEARN_RESIDUAL_END s4)
          startPeerFlush table (bgReply 0x0106 b (if r = 0 then {} else { status := 0x20, detail := r }) s5)) s

/-- RESIDUAL_RETRY (R95): every 100 ms in RESIDUAL each residual entry is tried again. -/
def execResidualRetry (t table : Nat) (s : State) : Res :=
  need (decide (table < 64)) "table" table <| live t (fun s =>
    match exDef s table with
    | none => s
    | some d =>
      if hashState s table = 2 ∧ (exTab s table).retryAt ≤ s.clk.mono then
        let s1 := (oldSeedEnts s d).foldl (fun z e => reinsert d e z) s
        { s1 with tbl := { s1.tbl with ex := tset s1.tbl.ex table { exTab s1 table with retryAt := s1.clk.mono + 100000000 } } }
      else s) s

/-- TBL_FLUSH_PORT's steps 10 and 11 (R108). -/
def flushChecks (s : State) (p : TblFlush) : Chk :=
  let wrong := match exDef s p.table with
    | some d => d.versioned || d.destLo == none
    | none => true
  let range := match p.kind with
    | 0 => decide (767 < p.value)
    | 1 => decide (1023 < p.value)
    | _ => p.value = 0 || decide (15 < p.value)
  firstBad [resv (decide (2 < p.kind)) 1 p.kind, bad wrong 0, bad range 4]

/-- TBL_FLUSH_PORT (0x0105, R95, R97, R108). -/
def execTblFlushPort (h : Hdr) (p : TblFlush) (s : State) : Res :=
  runCmd 0x0105 h (fun s => flushChecks s p) (fun s => tblClass s p.table) (fun s =>
    match exDef s p.table with
    | none => badParam h 0x0105 32 s
    | some d =>
      if (bgOf s p.table).isSome || hashState s p.table = 1 || decide (16 ≤ bgCount s) then failWith h 0x0105 0x24 0 s
      else background h (reportBg p.table (setBg p.table (some { flush := true, visited := 0, total := allSlots d, params := some p, deleted := 0, cmd := some h }) s))) s

/-- FLUSH_DONE (R108): the walk goes on from where it stands to the end and deletes every match it finds; an entry learned behind it survives.  GEN advances and BG_DONE is raised. -/
def execFlushDone (t table : Nat) (s : State) : Res :=
  need (decide (table < 64)) "table" table <| live t (fun s =>
    match exDef s table, bgOf s table with
    | some _, some b => match b.params with
      | none => s
      | some _ =>
        let s1 := bgFinish table b s
        let n := ((bgOf s1 table).map BgOp.deleted).getD 0
        let s2 := raise0 Ev.LEARN_BG_DONE (bumpGen table (setBg table none s1))
        startPeerFlush table (bgReply 0x0105 b { detail := n } s2)
    | _, _ => s) s

/-! ### Learning (R98 to R100) -/

/-- The learn FIFO with FIFO_LEVEL. -/
def setLearnFifo (l : List Learn) (s : State) : State :=
  setF F.LEARN_STAT_FIFO_LEVEL 0 0 l.length { s with tbl := { s.tbl with learnFifo := l } }

/-- Whether a table may be learned into (R85). -/
def learnableTable (s : State) (id : Nat) : Bool := match exDef s id with
  | some d => d.learnable
  | none => false

/-- A learn event at action resolve (R98), for a learnable table.  An event whose key is pending while the FIFO is full meets both of R98's cases: the pending test is made first, so that it counts in LEARN_DUP alone (DESIGN CHOICE, log 75). -/
def learnEvent (v : Learn) (s : State) : State :=
  if !learnableTable s v.table then s
  else if (s.tbl.learnFifo ++ s.tbl.learnEng).any (fun x => x.table == v.table && x.key == v.key) then bump .LEARN_DUP 0 0 1 s
  else if 65536 ≤ s.tbl.learnFifo.length then raise0 Ev.LEARN_FIFO_OVF (bump .LEARN_FIFO_OVF 0 0 1 s)
  else setLearnFifo (s.tbl.learnFifo ++ [v]) s

/-- A new learned entry. -/
def learnedEnt (d : ExactDef) (t : ExTab) (v : Learn) : ExEnt :=
  { region := 0, pos := 0, static := false, origin := 1, openEnd := true, seedSel := false, vfrom := 0, vuntil := 0,
    key := v.key, data := v.data, hit := freshHits d t }

/-- What a learn event does where its key is present (R99, cases 1 to 3). -/
def learnPresent (d : ExactDef) (t : ExTab) (e : ExEnt) (v : Learn) (s : State) : State :=
  if e.static then bump .LEARN_STATIC 0 0 1 s
  else if e.data = v.data then bump .LEARN_DUP 0 0 1 s
  else bump .LEARN_MOVE 0 0 1 (exModify d e { e with data := v.data, hit := freshHits d t } s)

/-- The learn assist's turn with one event (R99). -/
def learnAssist (v : Learn) (s : State) : State :=
  match exDef s v.table with
  | none => s
  | some d =>
    let t := exTab s d.id
    match t.ents.find? (fun e => e.key == v.key) with
    | some e => learnPresent d t e v s
    | none => match placeFree t (placeCands s d t v.key) (seedCur s d.id) with
      | some p => bump .LEARN_APPLIED 0 0 1 (setExTab d.id { t with ents := t.ents ++ [{ learnedEnt d t v with region := p.region, pos := p.pos, seedSel := p.sel }] } s)
      | none =>
        if 4096 ≤ s.tbl.learnEng.length then raise0 Ev.LEARN_ENG_OVF (bump .LEARN_ENG_OVF 0 0 1 s)
        else { s with tbl := { s.tbl with learnEng := s.tbl.learnEng ++ [v] } }

/-- The engines' turn with one event: the insert procedure (R99, case 5).  A key that is present by then is treated by cases 1 to 3 (DESIGN CHOICE, log 75: R99 names the insert procedure alone). -/
def learnEngine (v : Learn) (s : State) : State :=
  match exDef s v.table with
  | none => s
  | some d =>
    let t := exTab s d.id
    match t.ents.find? (fun e => e.key == v.key) with
    | some e => learnPresent d t e v s
    | none => match exInsert d (learnedEnt d t v) s with
      | some s1 => bump .LEARN_APPLIED 0 0 1 s1
      | none => raise0 Ev.LEARN_TABLE_FULL (bump .LEARN_TABLE_FULL 0 0 1 s)

/-- The entry writes that the assist makes for an event (R89): one where it rewrites or places, none otherwise. -/
def assistWrites (v : Learn) (s : State) : Nat :=
  match exDef s v.table with
  | none => 0
  | some d =>
    let t := exTab s d.id
    match t.ents.find? (fun e => e.key == v.key) with
    | some e => b2n (!e.static && e.data ≠ v.data)
    | none => b2n (placeFree t (placeCands s d t v.key) (seedCur s d.id)).isSome

/-- The engines take waiting learn events in order while the window has room. -/
def engineTurn (cap : Nat) : List Learn → State → State
  | [], s => s
  | v :: vs, s =>
    let z := learnEngine v { s with tbl := { s.tbl with learnEng := s.tbl.learnEng.drop 1 } }
    if cap < z.tbl.winUsed then s else engineTurn cap vs z

/-- A conditional delete of aging (R101): applied where every replica's HIT_TS is as the engine read it, otherwise cancelled and counted; an entry already gone is left. -/
def ageDelete (x : Nat × ExEnt) (s : State) : State :=
  match exDef s x.1 with
  | none => s
  | some d => match (exTab s x.1).ents.find? (fun e => e.key == x.2.key) with
    | none => s
    | some e => if e.hit = x.2.hit && !e.static then bump .AGED_OUT 0 0 1 (exDelete d e s) else bump .AGE_RACE 0 0 1 s

/-- The conditional deletes in order while the window has room. -/
def ageTurn (cap : Nat) : List (Nat × ExEnt) → State → State
  | [], s => s
  | x :: xs, s =>
    let z := ageDelete x { s with tbl := { s.tbl with ageDel := s.tbl.ageDel.drop 1 } }
    if cap < z.tbl.winUsed then s else ageTurn cap xs z

/-- The background operations go on in a window, each by a number of positions that the spec does not state: a free value (place 1406). -/
def bgTurns (cap : Nat) (s : State) : State :=
  ((List.range 64).filter (fun id => (bgOf s id).isSome)).foldl (fun z id =>
    let stop := ((bgOf z id).map BgOp.visited).getD 0 + freeAt 1406 z
    bgAdvance id stop (some cap) (drawn z)) s

/-- The rewrite of R129 goes on in a window: the command that stages reports more of it; how much one window does the spec does not state, a free value (place 1407). -/
def stageTurn (s : State) : State :=
  match s.tbl.stageCmd.orElse (fun _ => s.tbl.commitCmd) with
  | some h =>
    if s.tbl.rewriteDone then s
    else drawn (modOut h.serial (fun c => { c with permille := c.permille + freeAt 1407 s % (1000 - min 999 c.permille) }) s)
  | none => s

/-- UPDATE_WINDOW (R89, R94, R99, R101, R108): the window of this 40 ns of TOD, at most once.  Up to 4 learn events go through the assist, its writes before the engines'; the engines' writes that commands have made take the rest of 16 first, and what is left serves the engines' learn queue, the conditional deletes of aging and the background operations.  The writes of commands that a window has no room for count in the next (log 76). -/
def execUpdateWindow (t : Nat) (s : State) : Res :=
  live t (fun s =>
    if s.tbl.winAt = some (s.clk.tod / 40) then s
    else
      let four := s.tbl.learnFifo.take 4
      let s1 := setLearnFifo (s.tbl.learnFifo.drop 4) s
      let r := four.foldl (fun (x : Nat × State) v => (x.1 + assistWrites v x.2, learnAssist v x.2)) (0, s1)
      let room := 16 - r.1
      let owed := s.tbl.winUsed
      let left := room - owed
      let z := { r.2 with tbl := { r.2.tbl with winAt := some (s.clk.tod / 40), winUsed := 0 } }
      let z1 := stageTurn <| bgTurns left (ageTurn left s.tbl.ageDel (engineTurn left s.tbl.learnEng z))
      { z1 with tbl := { z1.tbl with winUsed := owed - room } }) s

/-! ### Aging (R101 to R103) -/

/-- TBL_AGE_CFG (0x0107, R103): TICK_MS waits for the next sweep, the other three for the next tick. -/
def execTblAgeCfg (h : Hdr) (table : Nat) (en : Bool) (tickMs ageTicks sweepTicks : Nat) (s : State) : Res :=
  runCmd 0x0107 h (fun s =>
    let no := match exDef s table with
      | some d => !d.ageable
      | none => true
    firstBad [bad no 0, bad (tickMs = 0 || decide (1000 < tickMs)) 2, bad (ageTicks = 0 || decide (32767 < ageTicks)) 4,
      bad (sweepTicks = 0 || decide (256 < sweepTicks)) 6]) (fun s => tblClass s table) (fun s =>
    let t := exTab s table
    let a := { t.age with newSet := some (ageTicks, sweepTicks, en), newTick := if tickMs = t.age.tickMs then none else some tickMs }
    ok h 0x0107 { s with tbl := { s.tbl with ex := tset s.tbl.ex table { t with age := a } } }) s

/-- One visit to an entry (R101, R103): ages that have run out are rewritten, and an entry stale in all replicas is to be deleted, if its HIT_TS are still those in the next window that has room. -/
def ageVisit (d : ExactDef) (e : ExEnt) (s : State) : State :=
  let t := exTab s d.id
  let now := ageNow t
  if t.age.refresh then exModify d e { e with hit := List.replicate 8 now } s
  else if e.static then s
  else
    let e1 := { e with hit := e.hit.map fun x => if 32768 ≤ ageOf t x then (now + 32768) % 65536 else x }
    let s1 := exModify d e e1 s
    if t.age.en && staleAll t e then { s1 with tbl := { s1.tbl with ageDel := s1.tbl.ageDel ++ [(d.id, e1)] } } else s1

/-- AGING_TICK (R101, R103): AGE_TICKS, SWEEP_TICKS and AGE_EN that wait take effect, the tick count advances and the next slice of the table is visited.  A changed TICK_MS takes effect at the start of a sweep, during which nothing ages out. -/
def execAgingTick (t table : Nat) (s : State) : Res :=
  need (decide (table < 64)) "table" table <| live t (fun s =>
    match exDef s table with
    | none => s
    | some d =>
      let x := exTab s table
      if d.ageable && decide (x.age.nextAt ≤ s.clk.mono) then
        let a0 := match x.age.newSet with
          | some (at', st, en) => { x.age with ageTicks := at', sweepTicks := st, en := en, newSet := none }
          | none => x.age
        let start := a0.slice = 0 || decide (a0.sweepTicks ≤ a0.slice)
        let a1 := if start then
            { a0 with slice := 0, tickMs := a0.newTick.getD a0.tickMs, refresh := a0.newTick.isSome, newTick := none }
          else a0
        let a2 := { a1 with ticks := a1.ticks + 1, nextAt := (if a1.nextAt = 0 then s.clk.mono else a1.nextAt) + a1.tickMs * 1000000 }
        let s1 := { s with tbl := { s.tbl with ex := tset s.tbl.ex table { x with age := a2 } } }
        let lo := allSlots d * a2.slice / a2.sweepTicks
        let hi := allSlots d * (a2.slice + 1) / a2.sweepTicks
        let seen := sortBy (slotIx d) (x.ents.filter (fun e => decide (lo ≤ slotIx d e) && decide (slotIx d e < hi)))
        let s2 := seen.foldl (fun z e => if (exTab z table).ents.contains e then ageVisit d e z else z) s1
        let y := exTab s2 table
        { s2 with tbl := { s2.tbl with ex := tset s2.tbl.ex table { y with age := { y.age with slice := y.age.slice + 1 } } } }
      else s) s

end Sys2Proof.Machine
end

