-- ==== Sys2Proof/Machine/Policy.lean ====
section
/-! DEFINITION. Policy search and versioned commits (Chapter 5): policy tables, their rows in every pipeline, search with verify after match, and the staging, commit, abort and reclamation of versions. -/

namespace Sys2Proof.Machine

/-! ### Policy tables (R114 to R120) -/

/-- The policy table of an ID in the image in force (R114). -/
def polDef (s : State) (id : Nat) : Option PolicyDef :=
  match s.tbl.image with
  | some im => im.policy.find? (fun d => d.id == id)
  | none => none

/-- Key bits of a profile (Table 5.1). -/
def polBits (d : PolicyDef) : Nat := 160 * 2 ^ (d.profile - 1)

/-- Rows of a policy table in one pipeline (Table 5.1). -/
def polRows (d : PolicyDef) : Nat := d.slices * 1024 / 2 ^ (d.profile - 1)

/-- Rows of a table free in a pipeline. -/
def freeRows (s : State) (d : PolicyDef) (pipe : Nat) : Nat :=
  polRows d - (s.tbl.tcam.filter (fun e => e.table == d.id && e.pipes.contains pipe)).length

/-- TCAM_TBL_STAT of a table. -/
def tcamStat (d : PolicyDef) (s : State) : State :=
  let least := (List.range 32).foldl (fun m p => min m (freeRows s d p)) (polRows d)
  setF F.TCAM_TBL_STAT0_ENTRIES d.id 0 (s.tbl.tcam.filter (fun e => e.table == d.id)).length
    (setF F.TCAM_TBL_STAT1_MIN_FREE_ROWS d.id 0 least s)

/-- Store the entries of all policy tables, with their status registers. -/
def setTcam (l : List TcamEnt) (s : State) : State :=
  let s1 := { s with tbl := { s.tbl with tcam := l } }
  match s.tbl.image with
  | some im => im.policy.foldl (fun z d => tcamStat d z) s1
  | none => s1

/-- The pipelines an entry's scope puts it in: all 32, or the one that serves the port (R120). -/
def scopePipes (s : State) (d : PolicyDef) (scope : Nat) : List Nat :=
  if scope = 0xFFFF then List.range 32 else [if d.egress then egressPipe s scope else ingressPipe s scope]

/-- The entry of a handle. -/
def tcamEnt (s : State) (handle : Nat) : Option TcamEnt := s.tbl.tcam.find? (fun e => e.handle == handle)

/-- HANDLE of a new entry: the table's ID, and a nonzero number that no existing entry has; which one is the device's choice (R119), here the first from a free value on (place 1403). -/
def newHandle (s : State) (table : Nat) : Nat :=
  let start := freeAt 1403 s
  let low (k : Nat) : Nat := (start + k) % 16777216
  let n := s.tbl.tcam.length + 2
  table * 16777216 + low ((firstIx n (fun k => low k ≠ 0 && (tcamEnt s (table * 16777216 + low k)).isNone)).getD 0)

/-- TCAM_INSERT's step 11 (R118, R120, R290).  A range slot that RANGE_EN names and the table's image does not is refused at RANGE_EN (DESIGN CHOICE, log 77: the spec names no answer). -/
def tcamChecks (s : State) (p : TcamParams) : Chk :=
  match polDef s p.table with
  | none => firstBad [bad true 0]
  | some d =>
    let wide := d.profile = 3
    let rangeBad (k : Nat) : Bool :=
      let r := (p.ranges[k]?).getD (0, 0)
      if wide then bit p.rangeEn k && decide (r.2 < r.1) else r.1 ≠ 0 || r.2 ≠ 0
    firstBad ([bad (decide (773 ≤ p.scope) && p.scope ≠ 0xFFFF) 2,
        bad (if wide then (List.range 4).any (fun k => bit p.rangeEn k && decide (d.rangePos.length ≤ k)) else p.rangeEn ≠ 0) 7]
      ++ (List.range 4).map (fun k => bad (rangeBad k) (24 + 4 * k)) ++ [bad (decide (2 ^ polBits d ≤ p.key)) 40, bad (decide (2 ^ polBits d ≤ p.mask)) 120])

/-- TCAM_INSERT (0x0204, R118 to R120, R130). -/
def execTcamInsert (h : Hdr) (p : TcamParams) (s : State) : Res :=
  runCmd 0x0204 h (fun s => tcamChecks s p) (fun _ => some 1) (fun s =>
    match polDef s p.table with
    | none => badParam h 0x0204 32 s
    | some d =>
      if !isStaged s then failWith h 0x0204 0x15 0 s
      else
        let pipes := scopePipes s d p.scope
        match pipes.find? (fun q => freeRows s d q == 0) with
        | some q => failWith h 0x0204 0x26 q s
        | none =>
          let handle := newHandle s p.table
          let e : TcamEnt := { handle := handle, table := p.table, serial := h.serial, prio := p.priority, scope := p.scope,
                               actionId := p.actionId, data := p.data, rangeEn := p.rangeEn, ranges := p.ranges, key := p.key,
                               mask := p.mask, openEnd := true, vfrom := pendEpoch s, vuntil := openUntil s, pipes := pipes, badIn := [] }
          finish h 0x0204 { data := leBytes 4 handle } (setTcam (s.tbl.tcam ++ [e]) (drawn s))) s

/-- TCAM_DELETE (0x0205, R119, R130). -/
def execTcamDelete (h : Hdr) (handle : Nat) (s : State) : Res :=
  runCmd 0x0205 h noChk (fun _ => some 1) (fun s =>
    if !isStaged s then failWith h 0x0205 0x15 0 s
    else match tcamEnt s handle with
      | none => failWith h 0x0205 0x21 0 s
      | some e =>
        if !e.openEnd then failWith h 0x0205 0x21 0 s
        else if stagedEntry s e.vfrom then ok h 0x0205 (setTcam (s.tbl.tcam.filter (fun x => x.handle ≠ handle)) s)
        else ok h 0x0205 (addUndo (.tcam handle e.vuntil)
          (setTcam (s.tbl.tcam.map (fun x => if x.handle = handle then { x with vuntil := pendEpoch s, openEnd := false } else x)) s))) s

/-- The 216-byte record of TCAM_READ (Table 12.9). -/
def tcamRecord (e : TcamEnt) : List Byte :=
  leBytes 1 e.table ++ leBytes 1 e.actionId ++ leBytes 2 e.scope ++ leBytes 3 e.prio ++ leBytes 1 e.rangeEn ++ leBytes 16 e.data
    ++ (List.range 4).flatMap (fun k => leBytes 2 ((e.ranges[k]?).getD (0, 0)).1 ++ leBytes 2 ((e.ranges[k]?).getD (0, 0)).2)
    ++ leBytes 80 e.key ++ leBytes 80 e.mask ++ leBytes 4 e.handle ++ leBytes 1 (e.vfrom % 16 + e.vuntil % 16 * 16)
    ++ leBytes 1 (b2n e.openEnd) ++ zeros 2 ++ leBytes 8 e.serial

/-- TCAM_READ (0x0206, R119). -/
def execTcamRead (h : Hdr) (handle : Nat) (s : State) : Res :=
  runCmd 0x0206 h noChk noCls (fun s =>
    match tcamEnt s handle with
    | some e => finish h 0x0206 { data := tcamRecord e } s
    | none => failWith h 0x0206 0x21 0 s) s

/-- TCAM_NEXT (0x0207): a table's entries in handle order from a first handle, up to MAX. -/
def execTcamNext (h : Hdr) (table max first : Nat) (s : State) : Res :=
  runCmd 0x0207 h (fun s => firstBad [bad (polDef s table).isNone 0, bad (max = 0 || decide (64 < max)) 1]) noCls (fun s =>
    let l := sortBy (fun e => e.handle) (s.tbl.tcam.filter (fun e => e.table == table && decide (first ≤ e.handle)))
    let n := fitMax s h 0 216 max
    let next := match l[n]? with
      | some e => e.handle
      | none => 0
    finish h 0x0207 { data := (l.take n).flatMap tcamRecord, cursor := next } s) s

/-! ### Search (R115 to R118, R123) -/

/-- Whether a row matches a key: value under mask and global mask, native ranges, and scope (R115, R117, R118, R120).  A range slot's position is that of its lowest key bit. -/
def rowMatches (d : PolicyDef) (gmask key port : Nat) (e : TcamEnt) : Bool :=
  let fieldMask (k : Nat) : Nat := match d.rangePos[k]? with
    | some pos => (2 ^ 16 - 1) * 2 ^ pos
    | none => 0
  let on := (List.range 4).filter (fun k => bit e.rangeEn k)
  let care := on.foldl (fun m k => Nat.land m (2 ^ 640 - 1 - fieldMask k)) (Nat.land e.mask (if d.profile = 3 then 2 ^ 640 - 1 else gmask))
  Nat.land (Nat.xor key e.key) care == 0 &&
    on.all (fun k => match d.rangePos[k]? with
      | some pos =>
        let v := bits key pos 16
        let r := (e.ranges[k]?).getD (0, 0)
        decide (r.1 ≤ v) && decide (v ≤ r.2)
      | none => true) &&
    (e.scope == 0xFFFF || e.scope == port)

/-- Precedence (R119): the larger PRIORITY, then the lower SERIAL. -/
def precedes (a b : TcamEnt) : Bool := decide (b.prio < a.prio) || (a.prio == b.prio && decide (a.serial < b.serial))

/-- Insert in precedence order. -/
def insertPrec (e : TcamEnt) : List TcamEnt → List TcamEnt
  | [] => [e]
  | x :: xs => if precedes e x then e :: x :: xs else x :: insertPrec e xs

/-- The outcome of a search: the entry found, the rows hit falsely on the way, and whether verify ended the search (R123). -/
structure SearchRes where
  hit : Option TcamEnt
  falseHits : List Nat
  gaveUp : Bool
deriving DecidableEq, Repr

/-- A search in one pipeline (R115, R116, R123).  Where the array of a row disagrees with its shadow, in value or in visibility, the spec does not say what the array answers: a free value (place 1404).  The shadow decides whether a hit stands, and an uncorrectable action memory word makes the hit false.  The first search may be repeated four times; a false hit in the fourth repetition ends it. -/
def tcamSearch (s : State) (d : PolicyDef) (pipe epoch gmask key port : Nat) : SearchRes :=
  let here := s.tbl.tcam.filter (fun e => e.table == d.id && e.pipes.contains pipe)
  let real (e : TcamEnt) : Bool := sees s epoch e.openEnd e.vfrom e.vuntil && rowMatches d gmask key port e
  let array (e : TcamEnt) : Bool := if e.badIn.contains pipe then Config.freeValue 1404 (s.free * 16777216 + e.handle % 16777216) % 2 == 1 else real e
  let order := (here.filter array).foldr insertPrec []
  let stands (e : TcamEnt) : Bool := real e && !e.badAct.contains pipe
  let falses := (order.takeWhile (fun e => !stands e)).map (·.handle)
  if 5 ≤ falses.length then ⟨none, falses.take 5, true⟩ else ⟨order.find? stands, falses, false⟩

/-- The row of an entry in a pipeline is rewritten from its shadow, and its action memory word with it. -/
def rewriteRow (pipe handle : Nat) (s : State) : State :=
  { s with tbl := { s.tbl with tcam := s.tbl.tcam.map fun e =>
      if e.handle = handle then { e with badIn := e.badIn.filter (· ≠ pipe), badAct := e.badAct.filter (· ≠ pipe) } else e } }

/-- The scrubber's visit to an entry's row in a pipeline (R124): one that disagrees with its shadow is rewritten and counted. -/
def scrubRow (pipe : Nat) (e : TcamEnt) (s : State) : State :=
  if e.badIn.contains pipe then raise Ev.TCAM_SCRUB_FIX pipe 0 (bump .SCRUB_FIX_CNT 0 0 1 (rewriteRow pipe e.handle s)) else s

/-- The effects of a search's false hits (R123): each row rewritten from its shadow, counted and raised; a search that gave up raises VERIFY_DROP and scrubs the stage's rows in the pipeline. -/
def searchEffects (d : PolicyDef) (pipe : Nat) (r : SearchRes) (s : State) : State :=
  let s1 := r.falseHits.foldl (fun z h => raise Ev.TCAM_FALSE_HIT pipe 0 (bump .FALSE_HIT_CNT 0 0 1 (rewriteRow pipe h z))) (drawn s)
  let s2 := bump .PIPE_TCAM_RETRY pipe (b2n d.egress) (min 4 r.falseHits.length) s1
  if r.gaveUp then (s2.tbl.tcam.filter (fun e => e.table == d.id)).foldl (fun z e => scrubRow pipe e z) (raise Ev.TCAM_VERIFY_DROP pipe 0 s2) else s2

/-- SCRUB_VISIT (R124): the scrubber reads a row of a pipeline; one that disagrees is rewritten.  Handle 0 ends a sweep of the device. -/
def execScrubVisit (t pipe handle : Nat) (s : State) : Res :=
  need (decide (pipe < 32)) "pipeline" pipe <| live t (fun s =>
    if handle = 0 then bump .SCRUB_SWEEPS 0 0 1 s
    else match tcamEnt s handle with
      | none => s
      | some e => scrubRow pipe e s) s

/-- The clocks that a search may wait for a slot at the throttle level (Table 5.2): none at 100 %, at most one of the withheld clocks between two offered at 75 % and 50 %, at most three at 25 %. -/
def maxWait (s : State) : Nat := match getF s F.TCAM_STAT_THROTTLE 0 0 with
  | 0 => 0
  | 1 => 1
  | 2 => 1
  | _ => 3

/-- A search waits for the next clock that offers slots (R125), each clock counted in PIPE_TCAM_WAIT.  Where in the 4-clock pattern a packet reaches its stage the rows' instants do not say: a free value (place 1405) up to the longest wait. -/
def waitSlot (pipe : Nat) (egress : Bool) (s : State) : State :=
  if maxWait s = 0 then s else drawn (bump .PIPE_TCAM_WAIT pipe (b2n egress) (freeAt 1405 s % (maxWait s + 1)) s)

/-! ### Staging and committing (R129 to R132) -/

/-- Change the versioned entries of every table: a new VALID_FROM, VALID_UNTIL and OPEN_END, or none to delete the entry. -/
def mapVersioned (f : Bool → Nat → Nat → Option (Bool × Nat × Nat)) (s : State) : State :=
  match s.tbl.image with
  | none => s
  | some im =>
    let s1 := (im.exact.filter (·.versioned)).foldl (fun z d =>
      let t := exTab z d.id
      setExTab d.id { t with ents := t.ents.filterMap fun e => (f e.openEnd e.vfrom e.vuntil).map fun r => { e with openEnd := r.1, vfrom := r.2.1, vuntil := r.2.2 } } z) s
    let s2 := im.lpm.foldl (fun z d =>
      let t := lpmTab z d.id
      setLpmTab d.id { t with ents := t.ents.filterMap fun e => (f e.openEnd e.vfrom e.vuntil).map fun r => { e with openEnd := r.1, vfrom := r.2.1, vuntil := r.2.2 } } z) s1
    setTcam (s2.tbl.tcam.filterMap fun e => (f e.openEnd e.vfrom e.vuntil).map fun r => { e with openEnd := r.1, vfrom := r.2.1, vuntil := r.2.2 }) s2

/-- Begin to stage a version (R130): STAGED and PENDING show it; the rewrite of R129 follows. -/
def beginStage (s : State) : State :=
  let p := (curEpoch s + 1) % 16
  setF F.EPOCH_STAT_STAGED 0 0 1 (setF F.EPOCH_STAT_PENDING 0 0 p { s with tbl := { s.tbl with rewriteDone := false, undo := [] } })

/-- A refusal with EPOCH_BUSY. -/
def epochBusy (h : Hdr) (op : Nat) (s : State) : State := failWith h op 0x25 (oldEpoch s) (raise0 Ev.EPOCH_BUSY_REFUSED s)

/-- POL_STAGE (0x0201, R130). -/
def execPolStage (h : Hdr) (s : State) : Res :=
  runCmd 0x0201 h noChk (fun _ => some 1) (fun s =>
    if isStaged s then failWith h 0x0201 0x24 0 s
    else if epState s ((curEpoch s + 1) % 16) ≠ 0 then epochBusy h 0x0201 s
    else beginStage { s with tbl := { s.tbl with stageCmd := some h } }) s

/-- EPOCH_REWRITE_DONE (R129, R130): the VALID_FROM of every entry that still carries the number is rewritten to OLDEST, and the number becomes PENDING. -/
def execEpochRewriteDone (t : Nat) (s : State) : Res :=
  live t (fun s =>
    if isStaged s && !s.tbl.rewriteDone then
      let p := pendEpoch s
      let old := oldEpoch s
      let s1 := setEpState p 1 (mapVersioned (fun o vf vu => some (o, if vf = p then old else vf, vu)) s)
      let s2 := { s1 with tbl := { s1.tbl with rewriteDone := true, stageCmd := none } }
      match s.tbl.stageCmd with
      | some h => finishOpen h 0x0201 { data := leBytes 4 p } s2
      | none => s2
    else s) s

/-- POL_COMMIT (0x0202, R131): it waits for the strobe; with nothing staged it stages a version first. -/
def execPolCommit (h : Hdr) (s : State) : Res :=
  runCmd 0x0202 h noChk (fun _ => some 1) (fun s =>
    let s1 := { s with tbl := { s.tbl with commitCmd := some h } }
    if isStaged s then s1
    else if epState s ((curEpoch s + 1) % 16) ≠ 0 then epochBusy h 0x0202 s
    else beginStage s1) s

/-- The parser configuration and hash seed that the registers hold, which take effect with an epoch (R67). -/
def parseCfgNow (s : State) : ParseCfg :=
  { c0 := (reg s .PARSE_CFG0 0 0).toNat, c1 := (reg s .PARSE_CFG1 0 0).toNat, c2 := (reg s .PARSE_CFG2 0 0).toNat,
    act := (reg s .PARSE_ERR_ACT 0 0).toNat, seed := (reg s .GLB_HASH_SEED 0 0).toNat }

/-- COMMIT_STROBE (R24, R131): the PENDING epoch becomes CURRENT in every ingress pipeline, the former CURRENT DRAINING; parser and seed writes that wait take effect with it. -/
def execCommitStrobe (t : Nat) (s : State) : Res :=
  live t (fun s =>
    match s.tbl.commitCmd with
    | none => s
    | some h =>
      if isStaged s && s.tbl.rewriteDone then
        let old := curEpoch s
        let p := pendEpoch s
        let s1 := setEpState p 2 (setEpState old 3 s) |> setF F.EPOCH_STAT_CURRENT 0 0 p |> setF F.EPOCH_STAT_PENDING 0 0 ((p + 1) % 16)
          |> setF F.EPOCH_STAT_STAGED 0 0 0 |> setF F.PIPE_CFG_STAT_PARSE_PEND 0 0 0 |> setF F.PIPE_CFG_STAT_SEED_PEND 0 0 0
        let s2 := { s1 with tbl := { s1.tbl with drainSince := tset s1.tbl.drainSince old s1.clk.mono, commitCmd := none, undo := [],
                                                 cfgOf := tset s1.tbl.cfgOf p (parseCfgNow s1) } }
        finish h 0x0202 { data := leBytes 8 p ++ leBytes 8 s2.clk.tod } (raise0 Ev.EPOCH_COMMITTED s2)
      else s) s

/-- Restore what the staged version ended (R132). -/
def undoOne (u : Undo) (pend : Nat) (s : State) : State :=
  match u with
  | .exact id key old =>
    let t := exTab s id
    setExTab id { t with ents := t.ents.map fun e => if e.key == key && !e.openEnd && e.vuntil == pend then { e with openEnd := true, vuntil := old } else e } s
  | .lpm id tri addr plen old =>
    let t := lpmTab s id
    setLpmTab id { t with ents := t.ents.map fun e =>
      if e.tri == tri && e.addr == addr && e.plen == plen && !e.openEnd && e.vuntil == pend then { e with openEnd := true, vuntil := old } else e } s
  | .tcam handle old =>
    setTcam (s.tbl.tcam.map fun e => if e.handle == handle && !e.openEnd && e.vuntil == pend then { e with openEnd := true, vuntil := old } else e) s

/-- POL_ABORT (0x0203, R132). -/
def execPolAbort (h : Hdr) (s : State) : Res :=
  runCmd 0x0203 h noChk (fun _ => some 1) (fun s =>
    if !isStaged s then failWith h 0x0203 0x21 0 s
    else
      let p := pendEpoch s
      let s1 := mapVersioned (fun o vf vu => if vf = p then none else some (o, vf, vu)) s
      let s2 := s1.tbl.undo.foldl (fun z u => undoOne u p z) s1
      ok h 0x0203 (setEpState p 0 (setF F.EPOCH_STAT_STAGED 0 0 0 { s2 with tbl := { s2.tbl with undo := [], rewriteDone := true } }))) s

/-! ### Reclamation (R133) -/

/-- EPOCH_RECLAIM (R25, R133): OLDEST, superseded and with no packet in flight, becomes RECLAIMING. -/
def execEpochReclaim (t : Nat) (s : State) : Res :=
  live t (fun s =>
    let n := oldEpoch s
    if (epState s n == 3 || epState s n == 4) && getF s F.EPOCH_INFLIGHT_COUNT n 0 == 0 then setEpState n 5 s else s) s

/-- EPOCH_RECLAIM_DONE (R133): entries that ended with the next epoch are gone, the number is FREE, OLDEST advances, and the epoch's parser configuration is released. -/
def execEpochReclaimDone (t : Nat) (s : State) : Res :=
  live t (fun s =>
    let n := oldEpoch s
    if epState s n = 5 then
      let next := (n + 1) % 16
      let s1 := mapVersioned (fun o vf vu => if !o && vu == next then none else some (o, vf, vu)) s
      let s2 := setF F.EPOCH_STAT_OLDEST 0 0 next (setEpState n 0 s1)
      raise0 Ev.EPOCH_RECLAIMED { s2 with tbl := { s2.tbl with cfgOf := terase s2.tbl.cfgOf n, drainSince := terase s2.tbl.drainSince n } }
    else s) s

end Sys2Proof.Machine
end

