-- ==== Sys2Proof/Machine/Parser.lean ====
section
/-! DEFINITION. The fixed parser and the Sketch graph (Chapter 3): headers recognised in frame order, the reasons of Table 3.4, entry points and node evaluation. -/

namespace Sys2Proof.Machine

/-- A parse in progress: what is recognised so far, the next byte, whether it has ended, and the place (trigger, value) at which a Sketch entry may follow (R69). -/
structure Parse where
  h : Hdrs := {}
  pos : Nat := 0
  stop : Bool := false
  place : Option (Nat × Nat) := none
deriving DecidableEq, Repr

/-- Set a HDR_VALID bit for a header that starts at a byte. -/
def validate (k start : Nat) (p : Parse) : Parse := { p with h := { p.h with valid := k :: p.h.valid, starts := tset p.h.starts k start } }

/-- End the parse at a failure (R66). -/
def parseFail (reason : Nat) (p : Parse) : Parse := { p with h := { p.h with err := reason }, stop := true }

/-- End the parse without error. -/
def parseEnd (p : Parse) : Parse := { p with stop := true }

/-- End at a place where a Sketch entry point may follow. -/
def endAt (trigger value : Nat) (p : Parse) : Parse := { p with stop := true, place := some (trigger, value) }

/-- Take a header of `len` bytes: one that would reach past the frame is TRUNCATED and not consumed, one that would reach past byte 512 ends the parse with PARSE_LIMIT (R66, R72); otherwise `k` goes on. -/
def takeHdr (f : List Byte) (len : Nat) (p : Parse) (k : Parse → Parse) : Parse :=
  if f.length < p.pos + len then parseFail 1 p
  else if 512 < p.pos + len then { p with h := { p.h with limit := true }, stop := true }
  else k p

/-- Consume a header that fails a check: its fixed length, or the length its own fields give where that is greater and ends within the frame and 512 bytes (R66). -/
def failAt (f : List Byte) (reason fixed own : Nat) (p : Parse) : Parse :=
  let len := if fixed < own ∧ p.pos + own ≤ f.length ∧ p.pos + own ≤ 512 then own else fixed
  parseFail reason { p with pos := p.pos + len }

/-- The chain header of a frame from a Stretcher port in chain mode (R342). -/
def parseChain (f : List Byte) (p : Parse) : Parse :=
  takeHdr f 16 p fun p =>
    let q := validate 18 0 { p with h := { p.h with chain := true } }
    if chainHeaderOk f then { q with pos := 16 } else failAt f 13 16 16 q

/-- Ethernet. -/
def parseEth (f : List Byte) (p : Parse) : Parse :=
  if p.stop then p
  else takeHdr f 14 p fun p =>
    let o := p.pos
    validate 0 o { p with pos := o + 14, h := { p.h with ethOff := o, dmac := beAt f o 6, smac := beAt f (o + 6) 6, etype := beAt f (o + 12) 2 } }

/-- Whether an EtherType is a VLAN tag's. -/
def isTag (e : Nat) : Bool := e == 0x8100 || e == 0x88A8

/-- VLAN tags, at most two (Table 3.4, VLAN_EXCESS).  The spec does not say which reason a third tag takes that also reaches past the end of the frame: here VLAN_EXCESS (DESIGN CHOICE, log 71), since the tag beyond the count is not taken at all. -/
def parseVlan (f : List Byte) : Nat → Parse → Parse
  | 0, p => if !p.stop && isTag p.h.etype then parseFail 2 p else p
  | n + 1, p =>
    if p.stop || !isTag p.h.etype then p
    else parseVlan f n (takeHdr f 4 p fun p =>
      validate (1 + p.h.vlans.length) p.pos { p with pos := p.pos + 4, h := { p.h with vlans := p.h.vlans ++ [beAt f p.pos 2], etype := beAt f (p.pos + 2) 2 } })

/-- MPLS labels, at most four; the label with S = 1 is a tunnel boundary (R65, R66). -/
def parseMpls (f : List Byte) : Nat → Parse → Parse
  | 0, p => if p.stop then p else parseFail 3 p
  | n + 1, p =>
    if p.stop then p
    else parseMpls f n (takeHdr f 4 p fun p =>
      let l := beAt f p.pos 4
      let q := validate (3 + p.h.mpls.length) p.pos { p with pos := p.pos + 4, h := { p.h with mpls := p.h.mpls ++ [l] } }
      if bit l 8 then endAt 2 0 q else q)

/-- Whether the fields of an IOAM trace option at a place agree with its length in bytes behind the eight of its header (RFC 9197): node length in [15:11] of the second halfword, remaining length in [6:0]. -/
def ioamOk (f : List Byte) (o room : Nat) : Bool :=
  let w := beAt f (o + 2) 2
  decide (4 * bits w 11 5 ≤ room) && decide (4 * bits w 0 7 ≤ room)

/-- Walk the options of a hop-by-hop header for an IOAM trace option: the place of its trace header, and whether it is consistent. -/
def findIoam (f : List Byte) (kind stop : Nat) : Nat → Nat → Option (Nat × Bool)
  | 0, _ => none
  | n + 1, o =>
    if stop ≤ o then none
    else if beAt f o 1 = 0 then findIoam f kind stop n (o + 1)
    else
      let len := beAt f (o + 1) 1
      if beAt f o 1 = kind then
        some (o + 4, decide (10 ≤ len) && decide (o + 2 + len ≤ stop) && ioamOk f (o + 4) (len - 10))
      else findIoam f kind stop n (o + 2 + len)

/-- Geneve options (Table 3.4, GENEVE_OPT; R64): whether one overruns, and the IOAM option's trace header with its consistency. -/
def geneveOpts (f : List Byte) (en : Bool) (cls typ stop : Nat) : Nat → Nat → Option (Nat × Bool) → Bool × Option (Nat × Bool)
  | 0, _, acc => (false, acc)
  | n + 1, o, acc =>
    if stop ≤ o then (false, acc)
    else
      let len := 4 * bits (beAt f (o + 3) 1) 0 5
      if stop < o + 4 + len then (true, acc)
      else
        let acc1 := if en && beAt f o 2 == cls && beAt f (o + 2) 1 == typ && acc.isNone then
          some (o + 4, decide (8 ≤ len) && ioamOk f (o + 4) (len - 8)) else acc
        geneveOpts f en cls typ stop n (o + 4 + len) acc1

/-- Geneve, with its options. -/
def parseGeneve (f : List Byte) (c : ParseCfg) (p : Parse) : Parse :=
  takeHdr f 8 p fun p =>
    let o := p.pos
    let opt := 4 * bits (beAt f o 1) 0 6
    let q := validate 15 o { p with h := { p.h with tunnel := 2, vni := beAt f (o + 4) 3, tunEnd := o + 8 } }
    if beAt f o 1 / 64 ≠ 0 then failAt f 10 8 8 q
    else
      let q1 := { q with pos := o + 8 }
      if opt = 0 then endAt 1 (beAt f (o + 2) 2) q1
      else takeHdr f opt q1 fun q1 =>
        let r := geneveOpts f (bit c.c1 31) (bits c.c1 8 16) (bits c.c1 0 8) (o + 8 + opt) 64 (o + 8) none
        let q2 := validate 16 (o + 8) { q1 with pos := o + 8 + opt, h := { q1.h with tunEnd := o + 8 + opt } }
        if r.1 || decide (252 < opt) then parseFail 11 q2
        else match r.2 with
          | some (at', good) =>
            let q3 := validate 17 at' q2
            if good then endAt 1 (beAt f (o + 2) 2) q3 else parseFail 12 q3
          | none => endAt 1 (beAt f (o + 2) 2) q2

/-- VXLAN. -/
def parseVxlan (f : List Byte) (p : Parse) : Parse :=
  takeHdr f 8 p fun p =>
    let q := validate 14 p.pos { p with h := { p.h with tunnel := 1, vni := beAt f (p.pos + 4) 3, tunEnd := p.pos + 8 } }
    if bit (beAt f p.pos 1) 3 then endAt 0 0 { q with pos := p.pos + 8 }
    else failAt f 10 8 8 q

/-- UDP, with the tunnels behind it. -/
def parseUdp (f : List Byte) (c : ParseCfg) (p : Parse) : Parse :=
  takeHdr f 8 p fun p =>
    let o := p.pos
    let len := beAt f (o + 4) 2
    let q := validate 11 o { p with h := { p.h with l4Off := o, sport := beAt f o 2, dport := beAt f (o + 2) 2 } }
    if len < 8 ∨ f.length < o + len then failAt f 9 8 8 q
    else
      let q1 := { q with pos := o + 8 }
      if q1.h.dport = bits c.c0 16 16 then parseVxlan f q1
      else if q1.h.dport = bits c.c0 0 16 then parseGeneve f c q1
      else endAt 3 q1.h.dport q1

/-- TCP. -/
def parseTcp (f : List Byte) (p : Parse) : Parse :=
  takeHdr f 20 p fun p =>
    let o := p.pos
    let len := 4 * (beAt f (o + 12) 1 / 16)
    let q := validate 12 o { p with h := { p.h with l4Off := o, sport := beAt f o 2, dport := beAt f (o + 2) 2 } }
    if len < 20 then failAt f 9 20 len q
    else takeHdr f len p fun _ => parseEnd { q with pos := o + len }

/-- The header behind IP, by protocol. -/
def parseL4 (f : List Byte) (c : ParseCfg) (icmp proto : Nat) (p : Parse) : Parse :=
  let q := { p with h := { p.h with l4 := proto } }
  if proto = 17 then parseUdp f c q
  else if proto = 6 then parseTcp f q
  else if proto = icmp then takeHdr f 8 q fun q => parseEnd (validate 13 q.pos { q with pos := q.pos + 8, h := { q.h with l4Off := q.pos } })
  else endAt 4 proto q

/-- IPv4 (Table 3.4, IPV4_HDR, IPV4_CSUM, IPV4_LEN). -/
def parseIpv4 (f : List Byte) (c : ParseCfg) (p : Parse) : Parse :=
  takeHdr f 20 p fun p =>
    let o := p.pos
    let ihl := 4 * (beAt f o 1 % 16)
    let ip : IpHdr := { ver := 4, off := o, hlen := max 20 ihl, dscp := beAt f (o + 1) 1 / 4, ecn := beAt f (o + 1) 1 % 4, ttl := beAt f (o + 8) 1,
                        proto := beAt f (o + 9) 1, src := beAt f (o + 12) 4, dst := beAt f (o + 16) 4 }
    let q := validate 7 o { p with h := { p.h with ip := some ip } }
    if beAt f o 1 / 16 ≠ 4 ∨ ihl < 20 then failAt f 4 20 ihl q
    else takeHdr f ihl p fun _ =>
      if onesSum (slice f o ihl) 0 ≠ 65535 then failAt f 5 20 ihl q
      else if beAt f (o + 2) 2 < ihl ∨ f.length < o + beAt f (o + 2) 2 then failAt f 6 20 ihl q
      else
        let q1 := { q with pos := o + ihl }
        if bits (beAt f (o + 6) 2) 0 13 ≠ 0 then parseEnd { q1 with h := { q1.h with fragTail := true } }
        else parseL4 f c 1 ip.proto q1

/-- Whether a next header is an extension header that the parser knows. -/
def isExt (n : Nat) : Bool := n == 0 || n == 43 || n == 44 || n == 60

/-- IPv6 extension headers, at most two, then the header behind them (R64, R66).  A third one that also reaches past the end of the frame is IPV6_EXT_EXCESS (DESIGN CHOICE, log 71). -/
def parseExt (f : List Byte) (c : ParseCfg) (next : Nat) : Nat → Nat → Parse → Parse
  | 0, _, p => if p.stop then p else if isExt next then parseFail 8 p else parseL4 f c 58 next p
  | n + 1, k, p =>
    if p.stop then p
    else if !isExt next then parseL4 f c 58 next p
    else
      let o := p.pos
      if f.length < o + 2 then parseFail 1 p
      else
        let len := if next = 44 then 8 else 8 * (beAt f (o + 1) 1 + 1)
        takeHdr f len p fun p =>
          let q := validate (9 + k) o { p with pos := o + len, h := { p.h with extHdr := true, frags := if next = 44 then (9 + k) :: p.h.frags else p.h.frags } }
          let q1 := if next = 0 then
              match findIoam f (bits c.c2 0 8) (o + len) len (o + 2) with
              | some (at', good) =>
                let r := validate 17 at' { q with h := { q.h with ioam := some at' } }
                if good then r else parseFail 12 r
              | none => q
            else q
          if next = 44 ∧ bits (beAt f (o + 2) 2) 3 13 ≠ 0 then parseEnd { q1 with h := { q1.h with fragTail := true } }
          else parseExt f c (beAt f o 1) n (k + 1) q1

/-- IPv6 (Table 3.4, IPV6_LEN). -/
def parseIpv6 (f : List Byte) (c : ParseCfg) (p : Parse) : Parse :=
  takeHdr f 40 p fun p =>
    let o := p.pos
    let tc := bits (beAt f o 2) 4 8
    let ip : IpHdr := { ver := 6, off := o, hlen := 40, dscp := tc / 4, ecn := tc % 4, ttl := beAt f (o + 7) 1, proto := beAt f (o + 6) 1,
                        src := beAt f (o + 8) 16, dst := beAt f (o + 24) 16 }
    let q := validate 8 o { p with h := { p.h with ip := some ip } }
    if f.length < o + 40 + beAt f (o + 4) 2 then failAt f 7 40 40 q
    else parseExt f c ip.proto 2 0 { q with pos := o + 40 }

/-- What follows the last EtherType (R65). -/
def parseNet (f : List Byte) (c : ParseCfg) (p : Parse) : Parse :=
  if p.stop then p
  else match p.h.etype with
    | 0x8847 => parseMpls f 4 p
    | 0x8848 => parseMpls f 4 p
    | 0x0800 => parseIpv4 f c p
    | 0x86DD => parseIpv6 f c p
    | 0x88B5 => parseEnd { p with h := { p.h with ctrl := true } }
    | 0x88B6 => parseEnd { p with h := { p.h with ctrl := true } }
    | e => endAt 5 e p

/-- The fixed parser on a frame without its FCS (R64). -/
def parseFixed (f : List Byte) (c : ParseCfg) (chain : Bool) (p : Parse) : Parse :=
  parseNet f c (parseVlan f 2 (parseEth f (if chain then parseChain f p else p)))

/-! ### The Sketch graph (R69 to R73) -/

/-- The lowest-numbered enabled entry point that matches a place (R69): its start node. -/
def entryFor (im : Image) (trigger value : Nat) : Option Nat :=
  (im.entries.find? fun e => bit e 31 && bits e 28 3 == trigger &&
    (trigger == 0 || trigger == 2 || (if trigger = 4 then bits e 0 8 == value else bits e 0 16 == value))).map (bits · 16 8)

/-- A bit field of a frame: `w` bits from bit `b` of a byte, most significant first. -/
def frameBits (f : List Byte) (byte b w : Nat) : Nat :=
  let n := (b + w + 7) / 8
  beAt f byte n / 2 ^ (8 * n - b - w) % 2 ^ w

/-- The last byte, plus one, that a node reads from its base: selector, length field and ingress extractions. -/
def nodeReach (w : List Nat) : Nat :=
  let sel := bits (nodeWord w 0) 16 8 + (bits (nodeWord w 0) 13 3 + bits (nodeWord w 0) 24 5 + 1 + 7) / 8
  let adv := if bits (nodeWord w 1) 30 2 = 1 then bits (nodeWord w 1) 22 8 + (bits (nodeWord w 1) 19 3 + bits (nodeWord w 1) 15 4 + 1 + 7) / 8 else 0
  (List.range 8).foldl (fun m k =>
    let x := nodeWord w (3 + k)
    if bit x 31 then max m (bits x 0 8 + bits x 29 2 + 1) else m) (max sel adv)

/-- The advance of a node from its base (Table 3.8): fixed, or with a length field. -/
def nodeAdvance (f : List Byte) (w : List Nat) (base : Nat) : Nat :=
  let field := frameBits f (base + bits (nodeWord w 1) 22 8) (bits (nodeWord w 1) 19 3) (bits (nodeWord w 1) 15 4 + 1)
  bits (nodeWord w 2) 0 9 + (if bits (nodeWord w 1) 30 2 = 1 then field * 2 ^ bits (nodeWord w 1) 13 2 else 0)

/-- The eight extractions of a node that begin at one of its words, made from a frame into containers: right-aligned, first byte most significant (Table 3.8).  `past k` is what an extraction takes that reaches past the end of the frame. -/
def nodeExtract (f : List Byte) (w : List Nat) (first base : Nat) (past : Nat → Nat) (c : Tab Nat Nat) : Tab Nat Nat :=
  (List.range 8).foldl (fun c k =>
    let x := nodeWord w (first + k)
    let o := base + bits x 0 8
    let n := bits x 29 2 + 1
    if bit x 31 then tset c (bits x 16 7) (if o + n ≤ f.length then beAt f o n else past k % 256 ^ n) else c) c

/-- Enter a node and go on (R70 to R73), with how many more nodes may be entered.  A read past the end of the frame, or an advance past it (R66), ends with SKETCH_TRUNC before any extraction and with HDR_VALID as it was. -/
def runNodes (im : Image) (f : List Byte) : Nat → Nat → Parse → Parse
  | 0, _, p => { p with h := { p.h with limit := true } }
  | n + 1, node, p =>
    match im.nodes.find? (fun x => x.1 == node) with
    | none => p
    | some (_, w) =>
      let p := { p with h := { p.h with sketchN := p.h.sketchN + 1 } }
      let base := p.pos
      if f.length < base + nodeReach w then parseFail 15 p
      else if f.length < base + nodeAdvance f w base then parseFail 15 p
      else if 512 < base + nodeReach w then { p with h := { p.h with limit := true } }
      else
        let sel := frameBits f (base + bits (nodeWord w 0) 16 8) (bits (nodeWord w 0) 13 3) (bits (nodeWord w 0) 24 5 + 1)
        let p1 := { p with h := { p.h with conts := nodeExtract f w 3 base (fun _ => 0) p.h.conts, path := p.h.path ++ [(node, base)] } }
        let p2 := if bit (nodeWord w 2) 31 then validate (32 + bits (nodeWord w 2) 24 5) base p1 else p1
        let adv := nodeAdvance f w base
        if 512 < base + adv then { p2 with h := { p2.h with limit := true } }
        else
          let p3 := { p2 with pos := base + adv }
          let hit := (List.range 16).find? fun k => bit (nodeWord w (36 + k)) 31 && nodeWord w (20 + k) == sel
          let out := match hit with
            | some k => (bits (nodeWord w (36 + k)) 8 2, bits (nodeWord w (36 + k)) 0 8)
            | none => (bits (nodeWord w 0) 29 2, bits (nodeWord w 0) 0 8)
          if out.1 = 1 then runNodes im f n out.2 p3
          else if out.1 = 2 then p3
          else parseFail 14 p3

/-- The whole parse of a frame (R64 to R73), with HDR_BYTES. -/
def parseFrame (im : Image) (f : List Byte) (c : ParseCfg) (chain : Bool) : Hdrs :=
  let p := parseFixed f c chain {}
  let q := match p.place with
    | some (t, v) => match entryFor im t v with
      | some n => runNodes im f 24 n p
      | none => p
    | none => p
  { q.h with bytes := q.pos, fixedBytes := p.pos }

/-- The action of a parse error in PARSE_ERR_ACT: 0 forward, 1 drop, 2 trap (R66). -/
def errAction (c : ParseCfg) (reason : Nat) : Nat := if reason = 0 then 0 else bits c.act (2 * reason) 2

/-- The parser configuration of an epoch: what the last commit that opened it applied, or the reset values (R67). -/
def cfgOfEpoch (s : State) (e : Nat) : ParseCfg :=
  match tget s.tbl.cfgOf e with
  | some c => c
  | none => { c0 := 0x12B517C1, c1 := 0, c2 := 0x31, act := 0x54545554, seed := 0 }

/-- PARSE_CFG_WRITE (R67): a write of PARSE_CFG0 to 2, PARSE_ERR_ACT or GLB_HASH_SEED (registers 0 to 4) is held until a commit; values that Tables 3.5 refuses leave their field unchanged. -/
def writeParse (which : Nat) (v : Nat) (s : State) : State :=
  let set (n : RegName) (x : Nat) : State := setF F.PIPE_CFG_STAT_PARSE_PEND 0 0 1 (setReg n 0 0 (BitVec.ofNat 32 x) s)
  match which with
  | 0 => set .PARSE_CFG0 v
  | 1 => set .PARSE_CFG1 (Nat.land v 0x80FFFFFF + Nat.land (reg s .PARSE_CFG1 0 0).toNat 0x7F000000)
  | 2 =>
    let old := (reg s .PARSE_CFG2 0 0).toNat
    set .PARSE_CFG2 (putBits (putBits old 0 8 v) 8 6 (if 48 ≤ bits v 8 6 then bits old 8 6 else bits v 8 6))
  | 3 =>
    let old := (reg s .PARSE_ERR_ACT 0 0).toNat
    set .PARSE_ERR_ACT ((List.range 15).foldl (fun w k =>
      let a := bits v (2 * (k + 1)) 2
      if a = 3 then w else putBits w (2 * (k + 1)) 2 a) old)
  | _ => setF F.PIPE_CFG_STAT_SEED_PEND 0 0 1 (setReg .GLB_HASH_SEED 0 0 (BitVec.ofNat 32 v) s)

/-- PARSE_CFG_WRITE (R67). -/
def execParseCfgWrite (t which : Nat) (value : W32) (s : State) : Res :=
  need (decide (which < 5)) "parser register" which <| live t (writeParse which value.toNat) s

end Sys2Proof.Machine
end

