-- ==== Sys2Proof/Machine/Phv.lean ====
section
/-! DEFINITION. The packet header vector (R60 to R64): containers and fields, the intrinsic fields of Table 3.2 with their access in each direction, and the extractions of the fixed parser and of the Sketch graph. -/

namespace Sys2Proof.Machine

/-- The PHV: the value of each container, zero where none is listed (R60). -/
abbrev Phv := Tab Nat Nat

/-- A container's value. -/
def cont (v : Phv) (k : Nat) : Nat := tgetD v k 0

/-- How many containers a field spans. -/
def fieldSpan (f : PhvField) : Nat := cdiv (f.lo + f.width) 32

/-- `n` containers from `k` as one number, the lowest-numbered one most significant (R60). -/
def contRow (v : Phv) (k : Nat) : Nat → Nat
  | 0 => 0
  | n + 1 => cont v k * 2 ^ (32 * n) + contRow v (k + 1) n

/-- A field's value. -/
def phvGet (v : Phv) (f : PhvField) : Nat := bits (contRow v f.cont (fieldSpan f)) f.lo f.width

/-- The bits of a container that a program may write, by direction (Table 3.2: RW). -/
def rwBits (egress : Bool) (k : Nat) : Nat :=
  if 16 ≤ k then (if k < 128 then 0xFFFFFFFF else 0)
  else if k = 12 ∨ k = 13 then 0xFFFFFFFF
  else if egress then
    if k = 4 then 0x00FF0000 else if k = 7 then 0x3FFFFC00 else if k = 8 then 0x0000FFFF else 0
  else if k = 4 then 0xFFFF3FFF else if k = 5 then 0xFFFFFFFF else if k = 6 then 0x000100FF else 0

/-- DROP_REASON of a PHV. -/
def phvDrop (v : Phv) : Nat := bits (cont v 4) 16 8

/-- A program's write of a container: only its writable bits change (R61), and a DROP_REASON that is not zero stands (R62). -/
def putCont (egress : Bool) (k new : Nat) (v : Phv) : Phv :=
  let m := rwBits egress k
  let x := Nat.land (cont v k) (2 ^ 32 - 1 - m) + Nat.land new m
  tset v k (if k = 4 ∧ phvDrop v ≠ 0 then putBits x 16 8 (phvDrop v) else x)

/-- Write `n` containers from `k` with a number. -/
def putRow (egress : Bool) (k x : Nat) : Nat → Phv → Phv
  | 0, v => v
  | n + 1, v => putRow egress (k + 1) x n (putCont egress k (x / 2 ^ (32 * n) % 2 ^ 32) v)

/-- A program's write of a field. -/
def phvPut (egress : Bool) (f : PhvField) (x : Nat) (v : Phv) : Phv :=
  putRow egress f.cont (putBits (contRow v f.cont (fieldSpan f)) f.lo f.width x) (fieldSpan f) v

/-- Fields one behind the other, most significant first (R78, R115). -/
def phvCat (v : Phv) (fs : List PhvField) : Nat := fs.foldl (fun a f => a * 2 ^ f.width + phvGet v f) 0

/-- HDR_VALID as a number (Table 3.2, containers 12 and 13: container 12 is taken as the low word, as INGRESS_TS states for its own; log 70). -/
def validMask (valid : List Nat) : Nat := (List.range 64).foldl (fun m k => if valid.contains k then m + 2 ^ k else m) 0

/-- HDR_VALID of a PHV. -/
def phvValid (v : Phv) : Nat := cont v 13 * 2 ^ 32 + cont v 12

/-! ### Extraction (R64, Table 3.3) -/

/-- One fixed-parser extraction: made where the header instance is valid; the fragment fields of an extension header only in a fragment header, which the header before it names with 44. -/
def extractOne (f : List Byte) (h : Hdrs) (x : ExtractUse) (v : Phv) : Phv :=
  match tget h.starts x.valid with
  | none => v
  | some o =>
    if (x.valid = 9 ∨ x.valid = 10) ∧ 16 ≤ x.bit ∧ !h.frags.contains x.valid then v
    else phvPut false x.dst (frameBits f (o + x.bit / 8) (x.bit % 8) x.dst.width) v

/-- The data of a named Geneve option among options in bytes [o, stop), at most 8 bytes of it, an option with less data filled with zeros (log 70). -/
def optionData (f : List Byte) (cls typ stop : Nat) : Nat → Nat → Option Nat
  | 0, _ => none
  | n + 1, o =>
    if stop ≤ o then none
    else
      let len := 4 * bits (beAt f (o + 3) 1) 0 5
      if beAt f o 2 = cls ∧ beAt f (o + 2) 1 = typ then some (beNum (slice f (o + 4) (min len 8) ++ zeros (8 - len)))
      else optionData f cls typ stop n (o + 4 + len)

/-- One Geneve option's extraction (Table 3.3, HDR_VALID bit 16). -/
def extractOption (f : List Byte) (h : Hdrs) (x : OptionUse) (v : Phv) : Phv :=
  match tget h.starts 16 with
  | none => v
  | some o => match optionData f x.cls x.typ h.tunEnd 64 o with
    | some d => phvPut false x.dst d v
    | none => v

/-- All extractions of the fixed parser in a direction. -/
def extractFixed (f : List Byte) (h : Hdrs) (xs : List ExtractUse) (os : List OptionUse) (v : Phv) : Phv :=
  os.foldl (fun v x => extractOption f h x v) (xs.foldl (fun v x => extractOne f h x v) v)

/-- The egress extractions of the nodes on a path (R70, R81).  What one that reaches past the end of the frame takes is not stated: a free value (place 640). -/
def extractPath (im : Image) (f : List Byte) (draw : Nat) (path : List (Nat × Nat)) (v : Phv) : Phv :=
  path.foldl (fun v x => match im.nodes.find? (fun n => n.1 == x.1) with
    | some (_, w) => nodeExtract f w 11 x.2 (fun k => Config.freeValue 640 (16 * draw + k)) v
    | none => v) v

/-! ### The intrinsic fields (Table 3.2) -/

/-- Containers 0 to 3 and 8 as both directions read them: what the parser and the source left of a packet. -/
def phvCommon (p : Pkt) : Phv :=
  let h := p.hdr
  [(0, h.err % 256 * 2 ^ 24 + b2n h.limit * 2 ^ 23 + b2n (decide (h.err ≠ 0)) * 2 ^ 22 + b2n h.ctrl * 2 ^ 21 + p.epoch % 16 * 2 ^ 16 + p.admClass % 4 * 2 ^ 14 + p.src % 1024),
   (1, h.bytes % 1024 * 2 ^ 22 + h.sketchN % 32 * 2 ^ 17 + p.len % 2 ^ 14),
   (2, p.ts % 2 ^ 32), (3, p.ts / 2 ^ 32 % 2 ^ 32),
   (8, b2n p.sample * 2 ^ 21 + (match p.trace with
     | some k => 2 ^ 20 + k % 16 * 2 ^ 16
     | none => 0))]

/-- The PHV at the entry of ingress stage 0: the intrinsic fields, the Sketch graph's extractions and the fixed parser's. -/
def phvIngress (im : Image) (p : Pkt) : Phv :=
  extractFixed p.frame p.hdr im.prog.inExtract im.prog.inOptions
    (phvCommon p ++ [(12, validMask p.hdr.valid % 2 ^ 32), (13, validMask p.hdr.valid / 2 ^ 32)] ++ p.hdr.conts)

/-- The PHV at the entry of egress stage 0 (R63, R81): the intrinsic fields that egress receives with their values at action resolve, the bridged containers in 16 to 19, and the egress extractions over the stored frame.  `at'` is the time the copy entered egress extraction. -/
def phvEgress (im : Image) (p : Pkt) (k : Copy) (at' draw : Nat) : Phv :=
  let d := p.dec
  let base : Phv := phvCommon p ++
    [(4, d.drop % 256 * 2 ^ 16 + d.tac % 2 ^ 14), (5, d.mcast % 2 ^ 16 * 2 ^ 16 + d.destQueue % 2 ^ 16), (6, d.cpuQueue % 64 * 4 + d.destKind % 4),
     (7, k.port % 1024), (9, k.qdepth % 2 ^ 21), (10, at' % 2 ^ 32), (11, at' / 2 ^ 32 % 2 ^ 32), (12, d.valid % 2 ^ 32), (13, d.valid / 2 ^ 32)]
    ++ (List.range 4).map (fun i => (16 + i, (d.bridged[i]?).getD 0))
  extractPath im p.frame draw p.hdr.path (extractFixed p.frame p.hdr im.prog.egExtract im.prog.egOptions base)

end Sys2Proof.Machine
end

