-- ==== Sys2Proof/Machine/Policer.lean ====
section
/-! DEFINITION. Tokens of shapers and policers (R198), policer access (R204, R205) and the commands POL_SET and POL_GET (R206, R207).  Token counts are kept in 1/1024 byte. -/

namespace Sys2Proof.Machine

/-- Tokens after a refresh at an instant (R198): RATE in units of 64 kb/s adds RATE × 8,000 × Δ / 10^9 bytes, up to BURST × 256. -/
def refill (tokens : Int) (rate burst delta : Nat) : Int :=
  min (((burst * 256 * 1024 : Nat) : Int)) (tokens + ((rate * 8000 * 1024 * delta / 1000000000 : Nat) : Int))

/-- Charged length of a packet (R193, R204). -/
def chargedLen (len : Nat) (adj : Int) : Nat := max 64 ((len : Int) + adj).toNat

/-- Tokens that TOKEN_RESET leaves under a new BURST (Table 8.3): 1 full, otherwise zero. -/
def resetTokens (code burst : Nat) : Int := if code = 1 then ((burst * 256 * 1024 : Nat) : Int) else 0

/-- A policer of a direction, pipeline and index. -/
def policer (s : State) (dir pipe ix : Nat) : Policer := tgetD s.sched.policers (dir, pipe, ix) {}

/-- Set it. -/
def setPolicer (dir pipe ix : Nat) (p : Policer) (s : State) : State :=
  { s with sched := { s.sched with policers := tset s.sched.policers (dir, pipe, ix) p } }

/-- A policer refreshed at the monotonic count (R204); with EN = 0 its tokens do not change. -/
def refreshPolicer (now : Nat) (p : Policer) : Policer :=
  if p.en then { p with tokens := refill p.tokens p.rate p.burst (now - p.last), last := now } else { p with last := now }

/-- One access (R204): whether the packet conforms, and the policer after it. -/
def judge (now len : Nat) (p : Policer) : Bool × Policer :=
  let q := refreshPolicer now p
  let c := chargedLen len q.lenAdj
  if !q.en then (true, { q with conf := q.conf + 1 })
  else if ((c * 1024 : Nat) : Int) ≤ q.tokens then (true, { q with tokens := q.tokens - ((c * 1024 : Nat) : Int), conf := q.conf + 1 })
  else (false, { q with refused := q.refused + 1, refBytes := q.refBytes + c })

/-- A packet's access to a policer: whether it conforms. -/
def police (dir pipe ix len : Nat) (s : State) : Bool × State :=
  let r := judge s.clk.mono len (policer s dir pipe ix)
  (r.1, setPolicer dir pipe ix r.2 s)

/-- Whether a RATE lies in range (1 to 25,000,000). -/
def rateOk (r : Nat) : Bool := decide (1 ≤ r) && decide (r ≤ 25000000)

/-- Whether a BURST lies in range (1 to 65,535). -/
def burstOk (b : Nat) : Bool := decide (1 ≤ b) && decide (b ≤ 65535)

/-- Whether a LEN_ADJ lies in range (−64 to 63). -/
def lenAdjOk (a : Int) : Bool := decide (-64 ≤ a) && decide (a ≤ 63)

/-- POL_SET (0x0210, R206). -/
def execPolSet (h : Hdr) (p : PolSet) (s : State) : Res :=
  runCmd 0x0210 h (fun _ => firstBad [resv (decide (1 < p.dir)) 0 p.dir,
      resv (p.tokenReset = 0 || decide (2 < p.tokenReset)) 5 p.tokenReset, bad (decide (31 < p.pipe)) 1, bad (decide (4095 < p.index)) 2, bad (!lenAdjOk p.lenAdj) 6, bad (!rateOk p.rate) 8, bad (!burstOk p.burst) 12])
    (fun _ => some 3) (fun s =>
      let q := refreshPolicer s.clk.mono (policer s p.dir p.pipe p.index)
      ok h 0x0210 (setPolicer p.dir p.pipe p.index
        { q with en := p.en, rate := p.rate, burst := p.burst, lenAdj := p.lenAdj, tokens := resetTokens p.tokenReset p.burst } s)) s

/-- POL_GET (0x0211, R207): the setting, the tokens after a refresh in bytes, and the three counts. -/
def execPolGet (h : Hdr) (dir pipe index : Nat) (s : State) : Res :=
  runCmd 0x0211 h (fun _ => firstBad [resv (decide (1 < dir)) 0 dir, bad (decide (31 < pipe)) 1, bad (decide (4095 < index)) 2]) noCls (fun s =>
      let q := refreshPolicer s.clk.mono (policer s dir pipe index)
      let d := leBytes 1 dir ++ leBytes 1 pipe ++ leBytes 2 index ++ leBytes 1 (b2n q.en) ++ [0] ++ leBytes 1 (unsignedOf 8 q.lenAdj) ++ [0]
        ++ leBytes 4 q.rate ++ leBytes 2 q.burst ++ [0, 0] ++ leBytes 8 (unsignedOf 64 (q.tokens / 1024)) ++ leBytes 8 q.conf
        ++ leBytes 8 q.refused ++ leBytes 8 q.refBytes
      finish h 0x0211 { data := d } (setPolicer dir pipe index q s)) s

end Sys2Proof.Machine
end

