-- ==== Sys2Proof/Machine/Stages.lean ====
section
/-! DEFINITION. The match-action stages (R74 to R79, R115, R204, R236): what a stage of any program does for a packet, from the image's own stage configuration, and the ingress and egress passes that run it. -/

namespace Sys2Proof.Machine

/-! ### Searches and lookups of a stage -/

/-- The global mask that a GMASK_SEL names; one that the image does not define is GMASK0, and a table without masks compares every bit (R117). -/
def gmaskOf (d : PolicyDef) (gsel : Nat) : Nat := (d.gmasks[gsel]?).getD ((d.gmasks[0]?).getD (2 ^ 640 - 1))

/-- A policy search for a packet (R115, R117, R123, R125): the entry, whether verify gave up, and the state after the search's effects.  A table the image does not have answers its default. -/
def searchTable (id pipe epoch gsel key port : Nat) (s : State) : Option TcamEnt × Bool × State :=
  match polDef s id with
  | none => (none, false, s)
  | some d =>
    let s0 := waitSlot pipe d.egress s
    let r := tcamSearch s0 d pipe epoch (gmaskOf d gsel) key port
    (r.hit, r.gaveUp, if s.tbl.tcam.any (fun e => e.badIn.contains pipe) || !r.falseHits.isEmpty then searchEffects d pipe r s0 else s0)

/-- The next lookup of a cluster no longer misses: its replica's word has been rewritten (Table 17.3, code 0x02). -/
def clearMiss (cluster : Nat) (s : State) : State := { s with flt := { s.flt with missNext := s.flt.missNext.filter (· ≠ cluster) } }

/-- An exact-match lookup in the replica of a pipeline's cluster (R88, R90). -/
def lookupExact (id epoch key pipe : Nat) (s : State) : Option ExEnt × State :=
  if s.flt.missNext.contains (pipe / 4) then (none, clearMiss (pipe / 4) s)
  else match exDef s id with
  | none => (none, s)
  | some d => match exLookup s d epoch key with
    | some e => (some e, exHit d e (pipe / 4) s)
    | none => (none, s)

/-- An LPM lookup's data: that of the longest prefix, or the table's default (R109). -/
def lookupLpm (id epoch tri addr pipe : Nat) (s : State) : Option Nat × State :=
  match lpmDef s id with
  | none => (none, s)
  | some d =>
    if s.flt.missNext.contains (pipe / 4) then (some d.default, clearMiss (pipe / 4) s)
    else (some (match lpmLookup s d epoch tri addr with
      | some e => e.data
      | none => d.default), s)

/-! ### ALUs (R75) -/

/-- A source's value, from the PHV as it enters the stage, a constant, or the hit's action data. -/
def aluSource (v : Phv) (data : Nat) : AluSrc → Nat
  | .phv f => phvGet v f
  | .const n => n
  | .data lo w => bits data lo w

/-- The result of an operation of `w` bits on sources `a` and `b`, where the destination held `old`.  A sum and a difference wrap at the width; a shift by the width or more leaves zero; a deposit puts source A's low bits at a place of the old value; a conditional set writes source A where source B is not zero.  The spec names the operations alone (DESIGN CHOICE, log 70). -/
def aluResult (op : AluOp) (w a b old : Nat) : Nat :=
  match op with
  | .set => a
  | .add => (a + b) % 2 ^ w
  | .sub => (a % 2 ^ w + 2 ^ w - b % 2 ^ w) % 2 ^ w
  | .and => Nat.land a b
  | .or => Nat.lor a b
  | .xor => Nat.xor a b
  | .shiftLeft => if b < w then a * 2 ^ b % 2 ^ w else 0
  | .shiftRight => if b < w then a / 2 ^ b else 0
  | .min => Nat.min a b
  | .max => Nat.max a b
  | .deposit lo n => putBits old lo n a
  | .condSet => if b = 0 then old else a

/-- One ALU's write into the PHV of the next stage; every source and the old value are of the PHV `v` that enters this one. -/
def aluWrite (egress : Bool) (v : Phv) (x : AluIns × Nat) (next : Phv) : Phv :=
  phvPut egress x.1.dst (aluResult x.1.op x.1.dst.width (aluSource v x.2 x.1.a) (aluSource v x.2 x.1.b) (phvGet v x.1.dst)) next

/-- The instructions that the ALUs execute: of results in order of precedence, an ALU takes the first that names it (R75). -/
def aluChoice : List (List AluIns × Nat) → List (AluIns × Nat) → List (AluIns × Nat)
  | [], acc => acc
  | (ins, data) :: rest, acc => aluChoice rest (acc ++ (ins.filter (fun i => !acc.any (fun x => x.1.alu == i.alu))).map (·, data))

/-! ### Hash units (R78, R79) -/

/-- The values of a unit's key fields, each pair that symmetric mode names put in order. -/
def hashValues (v : Phv) (u : HashUse) : List Nat :=
  u.pairs.foldl (fun vs p =>
    let a := (vs[p.1]?).getD 0
    let b := (vs[p.2]?).getD 0
    listSet (listSet vs p.1 (min a b)) p.2 (max a b)) (u.key.map (phvGet v))

/-- A hash unit's key: its fields in order, each in network order (R78). -/
def hashBytes (v : Phv) (u : HashUse) : List Byte :=
  beBytes (fieldBits u.key / 8) ((u.key.zip (hashValues v u)).foldl (fun a x => a * 2 ^ x.1.width + x.2) 0)

/-- The polynomial of a hash unit (R78). -/
def hashPolyOf (crc32c : Bool) : Nat := if crc32c then 0x1EDC6F41 else 0x04C11DB7

/-- A hash unit's result, under its own seed or GLB_HASH_SEED (R78). -/
def hashResult (seed : Nat) (v : Phv) (u : HashUse) : Nat := crcMsb 32 (hashPolyOf u.crc32c) (u.seed.getD seed) (hashBytes v u)

/-! ### A stage -/

/-- What a pass of a packet through a direction's stages knows beside the PHV: the direction, the pipeline, the epoch, the frame's length, the port its scope is compared with, and the seed. -/
structure PassCtx where
  egress : Bool
  pipe : Nat
  epoch : Nat
  len : Nat
  port : Nat
  seed : Nat

/-- A packet between two stages of a pass: the state, the PHV, and the LPM lookups under way with the stage that ends each. -/
structure Pass where
  s : State
  v : Phv
  waits : List (Nat × List AluIns × Nat) := []

/-- Set DROP_REASON from the hardware's side: the first nonzero value stands (R62). -/
def phvSetDrop (code : Nat) (v : Phv) : Phv := if phvDrop v = 0 then tset v 4 (putBits (cont v 4) 16 8 code) else v

/-- Whether a use is made: its gate is nonzero, or it has none. -/
def gateOpen (v : Phv) (u : IndexUse) : Bool := match u.gate with
  | some g => phvGet v g ≠ 0
  | none => true

/-- An exact-match lookup of a stage: the instructions and data it answers. -/
def stageExact (c : PassCtx) (v : Phv) (u : LookupUse) (s : State) : (List AluIns × Nat) × State :=
  let x := lookupExact u.table c.epoch (phvCat v u.key) c.pipe s
  match x.1 with
  | some e => ((u.hit, e.data), x.2)
  | none => ((u.miss, 0), x.2)

/-- How many steps an LPM lookup takes (R109): three for IPv4, six for IPv6 (four where no longer prefix is sought, which the image cannot know beforehand; log 70). -/
def lpmSteps (s : State) (id : Nat) : Nat := match lpmDef s id with
  | some d => if d.v6 then 6 else 3
  | none => 1

/-- An LPM lookup begun at a stage: the first key field is the routing instance, the rest the address; its result comes with its last step. -/
def stageLpm (c : PassCtx) (k : Nat) (v : Phv) (u : LookupUse) (s : State) : (Nat × List AluIns × Nat) × State :=
  let x := lookupLpm u.table c.epoch (phvCat v (u.key.take 1)) (phvCat v (u.key.drop 1)) c.pipe s
  ((k + lpmSteps s u.table - 1, match x.1 with
    | some d => (u.hit, d)
    | none => (u.miss, 0)), x.2)

/-- A policy search of a stage (R115): each key field at its position, zero elsewhere; whether verify gave up. -/
def stageTcam (c : PassCtx) (v : Phv) (u : SearchUse) (s : State) : (List AluIns × Nat) × Bool × State :=
  let key := u.key.foldl (fun a x => a + phvGet v x.1 * 2 ^ x.2) 0
  let gsel := match u.gsel with
    | some g => phvGet v g
    | none => 0
  let x := searchTable u.table c.pipe c.epoch gsel key c.port s
  (match x.1 with
    | some e => ((tgetD u.actions e.actionId []), e.data)
    | none => (u.miss, 0), x.2.1, x.2.2)

/-- A stage counter's update: its packet count by 1, its byte count by PKT_LEN (R236). -/
def stageCount1 (c : PassCtx) (k : Nat) (v : Phv) (u : IndexUse) (s : State) : State :=
  if gateOpen v u then
    let unit := c.pipe * (if c.egress then 8 else 14) + k
    let slot := 2 * (phvGet v u.index % 8192)
    addCtr (5 + b2n c.egress) unit slot c.len (addCtr (5 + b2n c.egress) unit (slot + 1) 1 s)
  else s

/-- A stage's policer access: the drop reason that a refusal sets, 0 where the packet conforms (R204). -/
def stagePolice (c : PassCtx) (v : Phv) (u : IndexUse) (s : State) : Nat × State :=
  if gateOpen v u then
    let x := police (b2n c.egress) c.pipe (phvGet v u.index % 4096) c.len s
    (if x.1 then 0 else u.code, x.2)
  else (0, s)

/-- Run a use over each of a list, keeping the answers in order. -/
def eachUse {α β : Type} (f : α → State → β × State) : List α → State → List β × State
  | [], s => ([], s)
  | u :: us, s =>
    let x := f u s
    let y := eachUse f us x.2
    (x.1 :: y.1, y.2)

/-- One stage (R74 to R77): a dropped packet passes as a bubble; otherwise every lookup, search, hash, policer and counter index is formed from the PHV that enters, and the writes appear at the next stage.  The hash results are written first, then the ALUs in order of precedence, then a drop by the search's verify and by the policer; the spec states no order among these kinds (DESIGN CHOICE, log 70). -/
def runStage (c : PassCtx) (k : Nat) (st : StageProg) (r : Pass) : Pass :=
  if phvDrop r.v ≠ 0 then r
  else
    let v := r.v
    let ex := eachUse (stageExact c v) st.exact r.s
    let lp := eachUse (stageLpm c k v) st.lpm ex.2
    let tc := match st.tcam with
      | some u => stageTcam c v u lp.2
      | none => (([], 0), false, lp.2)
    let po := match st.policer with
      | some u => stagePolice c v u tc.2.2
      | none => (0, tc.2.2)
    let s := st.counters.foldl (fun z u => stageCount1 c k v u z) po.2
    let waits := r.waits ++ lp.1
    let done := (waits.filter (fun w => w.1 == k)).map (·.2)
    let v1 := st.hash.foldl (fun n u => phvPut c.egress u.out (hashResult c.seed v u) n) v
    let v2 := (aluChoice (tc.1 :: (ex.1 ++ done)) []).foldl (fun n x => aluWrite c.egress v x n) v1
    { s := s, v := phvSetDrop po.1 (if tc.2.1 then phvSetDrop 0x03 v2 else v2), waits := waits.filter (fun w => w.1 ≠ k) }

/-- All stages of a direction in order. -/
def runStages (c : PassCtx) (sts : List StageProg) (v : Phv) (s : State) : Pass :=
  (sts.zipIdx).foldl (fun r x => runStage c x.2 x.1 r) { s := s, v := v }

/-! ### The two passes of a program -/

/-- IMG_KEY from a PHV: its fields in order, zero-padded to 40 bytes (R210). -/
def keyOf (v : Phv) (fs : List PhvField) : Nat := phvCat v fs * 2 ^ (320 - fieldBits fs)

/-- The learn event of a packet with LEARN = 1 (R98): the table that the image's selecting field names in its list of learnable tables. -/
def learnOf (im : Image) (v : Phv) : Option (Nat × Nat × Nat) :=
  let ix := match im.prog.learnSel with
    | some f => phvGet v f
    | none => 0
  if bit (cont v 6) 16 && phvDrop v == 0 then (im.prog.learn[ix]?).map fun u => (u.table, phvCat v u.key, phvCat v u.data) else none

/-- What a program has decided of a packet at action resolve, from its PHV. -/
def decisionOf (im : Image) (v : Phv) : Decision :=
  { tac := bits (cont v 4) 0 14, drop := phvDrop v, trap := bits (cont v 4) 24 8, destKind := bits (cont v 6) 0 2, destQueue := bits (cont v 5) 0 16,
    mcast := bits (cont v 5) 16 16, cpuQueue := bits (cont v 6) 2 6, learn := learnOf im v, bridged := im.prog.bridged.map (cont v), valid := phvValid v,
    key := keyOf v im.prog.inKey }

/-- A packet's ingress stages under the image's own program (R75, R77); `start` is a drop reason that stands before stage 0 (R66). -/
def programIngress (im : Image) (seed start : Nat) (p : Pkt) (s : State) : Pkt × State :=
  let r := runStages { egress := false, pipe := p.pipe, epoch := p.epoch, len := p.len, port := p.src, seed := seed } im.prog.ingress
    (phvSetDrop start (phvIngress im p)) s
  ({ p with dec := decisionOf im r.v }, r.s)

/-- The bytes that rewrite emits (R82): in the image's order every header whose HDR_VALID bit is 1, from its PHV fields, then the frame from HDR_BYTES onward. -/
def emittedBytes (im : Image) (v : Phv) (p : Pkt) : List Byte :=
  ((im.prog.emit.filter (fun e => bit (phvValid v) e.valid)).map (fun e => beBytes (fieldBits e.fields / 8) (phvCat v e.fields))).flatten
    ++ p.frame.drop p.hdr.bytes

/-- What egress stage 7 leaves of a copy under the image's own program: its drop reason, and the emitted frame with the fields the MAC acts on. -/
def programEgress (im : Image) (seed at' : Nat) (p : Pkt) (k : Copy) (pipe : Nat) (s : State) : Nat × TxImage × State :=
  let r := runStages { egress := true, pipe := pipe, epoch := p.epoch, len := p.len, port := k.port, seed := seed } im.prog.egress (phvEgress im p k at' s.free) s
  let v := r.v
  (phvDrop v, { bytes := emittedBytes im v p, tsAction := bits (cont v 7) 10 2, tsOffset := bits (cont v 7) 12 9, csumOffset := bits (cont v 7) 21 9,
                tsTag := bits (cont v 8) 0 16, valid := phvValid v, key := keyOf v im.prog.egKey, cpuMeta := match im.prog.cpuMeta with
                  | some k => cont v k
                  | none => 0 }, drawn r.s)

end Sys2Proof.Machine
end

