-- ==== Sys2Proof/Machine/Program.lean ====
section
/-! DEFINITION. The standard top-of-rack program (Chapter 6): its tables (R143, R144), ingress decisions stage by stage (R137 to R148, R151 to R153, R427), what it bridges (R150), and the choice between it and an image's own program (Machine/Stages.lean).  Layouts of keys and data that the chapter names without bit positions are those of log 20. -/

namespace Sys2Proof.Machine

/-! ### Headers behind a tunnel -/

/-- The headers of the frame inside a VXLAN or Geneve tunnel, the frame's own without one. -/
def innermost (f : List Byte) (c : ParseCfg) (h : Hdrs) : Hdrs :=
  if h.tunnel ≠ 0 && h.tunEnd ≠ 0 then (parseNet f c (parseVlan f 2 (parseEth f { pos := h.tunEnd }))).h else h

/-- Whether a parse reached TCP or UDP ports. -/
def hasPorts (h : Hdrs) : Bool := h.valid.contains 11 || h.valid.contains 12

/-- The protocol of a parse's IP packet. -/
def protoOf (h : Hdrs) : Nat := if h.l4 ≠ 0 then h.l4 else match h.ip with
  | some ip => ip.proto
  | none => 0

/-- Source address, 0 without IP. -/
def srcAddr (h : Hdrs) : Nat := match h.ip with
  | some ip => ip.src
  | none => 0

/-- Destination address, 0 without IP. -/
def dstAddr (h : Hdrs) : Nat := match h.ip with
  | some ip => ip.dst
  | none => 0

/-- IP version, 0 without IP. -/
def ipVer (h : Hdrs) : Nat := match h.ip with
  | some ip => ip.ver
  | none => 0

/-- An address in IPv6-mapped form (R210). -/
def mapped (ver addr : Nat) : Nat := if ver = 4 then 0xFFFF * 2 ^ 32 + addr else addr

/-- Whether an exact-match table of an image is one of Table 4.8 and Table 6.3: its ID, direction, stage, entry size, blocks, class, and for L2_MAC the place of DEST (R111, R143, R144). -/
def exactIs (d : ExactDef) (id stage entry blocks : Nat) (egress dynamic : Bool) (destLo : Option Nat) : Bool :=
  d.id == id && d.stage == stage && d.egress == egress && d.entryBytes == entry && d.blocks == blocks && d.versioned != dynamic && d.learnable == dynamic
    && d.ageable == dynamic && d.destLo == destLo

/-- The exact-match tables of the standard program (Tables 4.8 and 6.3). -/
def standardExact (ds : List ExactDef) : Bool :=
  ds.length == 5 && ds.any (exactIs · 0 3 16 10 false true (some 20)) && ds.any (exactIs · 1 2 16 10 false false none)
    && ds.any (exactIs · 2 10 32 10 false false none) && ds.any (exactIs · 3 4 32 10 false false none) && ds.any (exactIs · 32 1 16 4 true false none)

/-- Its LPM tables (Table 4.8): rated prefixes, blocks, and the default data, whose KIND is DROP (Table 6.3). -/
def standardLpm (ds : List LpmDef) : Bool :=
  ds.length == 2 && ds.any (fun d => d.id == 48 && !d.v6 && d.rated == 1048576 && d.blocks == 8 && d.default == 0)
    && ds.any (fun d => d.id == 49 && d.v6 && d.rated == 524288 && d.ratedLong == 131072 && d.blocks == 12 && d.default == 0)

/-- Its policy tables as (ID, stage, slices), the ingress ones first (Table 6.3). -/
def standardPolicy : List (Nat × Nat × Nat × Bool) :=
  [(0, 0, 1, false), (1, 1, 1, false), (2, 2, 1, false), (3, 5, 8, false), (4, 10, 1, false), (5, 12, 2, false), (6, 13, 2, false),
   (7, 0, 1, true), (8, 2, 1, true), (9, 3, 2, true)]

/-- Whether an image has the standard program's tables, all policy tables of profile 160, and names the CRC of hash unit 0 of stage I1 (Table 6.3, R78).  These fix the capacities of Tables 4.8 and 6.11. -/
def standardTables (im : Image) : Bool :=
  standardExact im.exact && standardLpm im.lpm && im.policy.length == 10
    && standardPolicy.all (fun x => im.policy.any fun d => d.id == x.1 && d.stage == x.2.1 && d.slices == x.2.2.1 && d.egress == x.2.2.2 && d.profile == 1)
    && (match im.prog.ingress[1]? with
      | some st => !st.hash.isEmpty
      | none => false)

/-- Whether an image is the standard program's (R137): it says so, and has its tables.  One that says so with other tables is another program (DESIGN CHOICE, log 73). -/
def isStandard (im : Image) : Bool := im.id / 65536 == 0x5354 && im.major == 4 && standardTables im

/-- Whether the standard program is in force (R137). -/
def standard (s : State) : Bool :=
  match s.tbl.image with
  | some im => isStandard im
  | none => false

/-- The standard program's IMG_KEY (R210): the innermost addresses in IPv6-mapped form, protocol and ports, zero-padded to 40 bytes. -/
def standardKey (f : List Byte) (c : ParseCfg) (h : Hdrs) : Nat :=
  let i := innermost f c h
  ((((mapped (ipVer i) (srcAddr i) * 2 ^ 128 + mapped (ipVer i) (dstAddr i)) * 2 ^ 8 + protoOf i) * 2 ^ 16 + i.sport) * 2 ^ 16 + i.dport) * 2 ^ 24

/-! ### The bridged containers (R63, R150) -/

/-- The four containers that the standard program bridges: the tunnel endpoint address, or the BD of a LOCAL result; the remote router MAC, the host MAC, or the BD of a copy that is not routed; the TRI; and the hash bits of the UDP source port, the role and course of the frame, TC and SRC_IDX.  R150 names the values and gives no places: these are the model's (DESIGN CHOICE, log 73). -/
def packBridge (b : Bridge) : List Nat :=
  let mac := if !b.routed then b.bd else if b.encap ≠ 0 then b.rmac else b.hostMac
  [if b.encap ≠ 0 then b.tepDst % 2 ^ 32 else if b.routed then b.bd % 2 ^ 16 else 0,
   mac / 2 ^ 16 % 2 ^ 32,
   mac % 2 ^ 16 * 2 ^ 16 + b.tri % 2 ^ 16,
   b.hash % 2 ^ 14 * 2 ^ 18 + b.inRole % 4 * 2 ^ 16 + b2n b.terminated * 2 ^ 15 + b2n b.routed * 2 ^ 14 + b2n b.under * 2 ^ 13 + b2n b.outer * 2 ^ 12
     + b.encap % 4 * 2 ^ 10 + b.tc % 8 * 2 ^ 7 + b.srcIdx % 16 * 2 ^ 3]

/-- What egress reads in the bridged containers, with the destination kind that tells a flood, and the end of the outer headers that egress extraction finds again. -/
def unpackBridge (cs : List Nat) (destKind tunEnd : Nat) : Bridge :=
  let c (k : Nat) : Nat := (cs[k]?).getD 0
  let mac := c 1 * 2 ^ 16 + c 2 / 2 ^ 16
  let routed := bit (c 3) 14
  let encap := bits (c 3) 10 2
  let term := bit (c 3) 15
  { inRole := bits (c 3) 16 2, terminated := term, innerOff := if term then tunEnd else 0, routed := routed, outer := bit (c 3) 12, under := bit (c 3) 13,
    flood := destKind == 2, bridged := destKind == 1 && !routed, tri := c 2 % 2 ^ 16,
    bd := if !routed then mac % 2 ^ 16 else if encap = 0 then c 0 % 2 ^ 16 else 0, tc := bits (c 3) 7 3, encap := encap,
    tepDst := if encap = 0 then 0 else c 0, rmac := if routed && encap ≠ 0 then mac else 0, srcIdx := bits (c 3) 3 4,
    hostMac := if routed && encap == 0 then mac else 0, hash := c 3 / 2 ^ 18 }

/-- The bridged values of a packet, as egress reads them. -/
def bridgeOf (p : Pkt) : Bridge := unpackBridge p.dec.bridged p.dec.destKind p.hdr.tunEnd

/-! ### The ingress run -/

/-- A packet under way through the ingress stages: the state, the packet, and what the program's own containers hold. -/
structure Run where
  s : State
  p : Pkt
  c : ParseCfg
  /-- PORT_IN action data -/
  port : Nat := 0
  role : Nat := 0
  term : Bool := false
  srcIdx : Nat := 0
  /-- the headers the forwarding decision reads: inner ones of a terminated frame -/
  view : Hdrs
  hash : Nat := 0
  tri : Nat := 0
  bd : Nat := 0
  tac : Nat := 0
  pol : Nat := 0
  slot : Nat := 0
  tc : Nat := 0
  trapped : Bool := false
  /-- a trap that TRAP_IN or PTP_TRAP decided: the frame makes no policer access, bridge or route step -/
  early : Bool := false
  flood : Bool := false
  routed : Bool := false
  l2 : Option Nat := none
  route : Option Nat := none
  qset : Nat := 0
  bridge : Bridge := {}

/-- Drop: the first nonzero reason stands (R62). -/
def drop (code : Nat) (r : Run) : Run :=
  if r.p.dec.drop = 0 then { r with p := { r.p with dec := { r.p.dec with drop := code, learn := none } } } else r

/-- A trap: it stands once decided (R146). -/
def trapAs (reason queue : Nat) (r : Run) : Run :=
  if r.trapped then r else { r with trapped := true, p := { r.p with dec := { r.p.dec with trap := reason, cpuQueue := queue, destKind := 3 } } }

/-- A stage: a dropped packet passes it as a bubble (R77). -/
def stage (f : Run → Run) (r : Run) : Run := if r.p.dec.drop = 0 then f r else r

/-- Search a policy table in the packet's pipeline under its epoch; a search that verify gave up drops it as TCAM_VERIFY (R123). -/
def stageSearch (id gsel key : Nat) (r : Run) (k : Option TcamEnt → Run → Run) : Run :=
  let x := searchTable id r.p.pipe r.p.epoch gsel key r.p.src r.s
  let r1 := { r with s := x.2.2 }
  if x.2.1 then drop 0x03 r1 else k x.1 r1

/-- I0: PORT_IN (R138, R140). -/
def stageI0 (r : Run) : Run :=
  stageSearch 0 0 r.p.src r fun hit r => match hit with
    | none => drop 0x80 r
    | some e =>
      let r1 := { r with port := e.data, role := bits e.data 126 2, p := { r.p with dec := { r.p.dec with tac := bits e.data 79 14 } } }
      if r1.role = 0 then drop 0x80 r1 else r1

/-- The key of hash unit 0 (R79, R80): protocol, address pair, port pair, each pair ordered. -/
def hashKey (h : Hdrs) : List Byte :=
  let w := if ipVer h = 6 then 16 else 4
  beBytes 1 (protoOf h) ++ beBytes w (min (srcAddr h) (dstAddr h)) ++ beBytes w (max (srcAddr h) (dstAddr h))
    ++ beBytes 2 (min h.sport h.dport) ++ beBytes 2 (max h.sport h.dport)

/-- The CRC that the image selects for hash unit 0 of stage I1 (R78). -/
def hashPoly (s : State) : Nat :=
  match s.tbl.image with
  | some im => (match im.prog.ingress[1]? with
    | some st => hashPolyOf ((st.hash.head?.map HashUse.crc32c).getD false)
    | none => hashPolyOf false)
  | none => hashPolyOf false

/-- The outer frame carries a VXLAN or Geneve header in IPv4; one whose own check failed is valid too (R66, R139). -/
def tunnelled (h : Hdrs) : Bool := (h.valid.contains 14 || h.valid.contains 15) && ipVer h == 4

/-- ECN of a parse's IP header, none without one. -/
def ecnOf (h : Hdrs) : Option Nat := h.ip.map IpHdr.ecn

/-- I1: termination (R139), the hash, and the ECN check of R149. -/
def stageI1 (r : Run) : Run :=
  let inner := innermost r.p.frame r.c r.p.hdr
  let r1 := { r with hash := crcMsb 32 (hashPoly r.s) r.c.seed (hashKey inner) }
  if (r.role = 2 || r.role = 3) && tunnelled r.p.hdr then
    stageSearch 1 0 (dstAddr r.p.hdr * 65536 + r.p.hdr.dport) r1 fun hit r => match hit with
      | none => r
      | some e =>
        let r2 := { r with term := true, srcIdx := bits e.data 124 4, view := inner }
        if ecnOf r.p.hdr = some 3 ∧ ecnOf inner = some 0 then drop 0x8B r2 else r2
  else r1

/-- A frame is PTP for PTP_TRAP (R154). -/
def isPtp (r : Run) : Bool :=
  let m (h : Hdrs) : Bool := h.etype == 0x88F7 || (h.valid.contains 11 && (h.dport == 319 || h.dport == 320))
  m r.p.hdr || (r.term && m r.view)

/-- Take a tenant identity from VNI_MAP data (Table 6.2). -/
def tenantOf (data : Nat) (r : Run) : Run :=
  { r with tri := bits data 48 16, bd := bits data 32 16, tac := bits data 18 14, pol := bits data 6 12, slot := bits data 2 4 }

/-- Low 32 bits of an address, as policy keys take it (log 20). -/
def addr32 (a : Nat) : Nat := a % 2 ^ 32

/-- The key of TRAP_IN.  It is formed from the PHV as it enters I2 (R75), so TRI is the container's value before VNI_MAP's result reaches it. -/
def trapKey (r : Run) : Nat :=
  let h := r.view
  (((((r.role * 2 ^ 16 + h.etype) * 2 ^ 48 + h.dmac) * 2 ^ 16 + r.tri) * 2 ^ 32 + addr32 (dstAddr h)) * 2 ^ 8 + protoOf h) * 2 ^ 16 + (if hasPorts h then h.dport else 0)

/-- Whether a source MAC is a group address or zero (R148). -/
def badSmac (m : Nat) : Bool := m == 0 || bit m 40

/-- I2: VNI_MAP, TRAP_IN, PTP_TRAP and the source MAC test (R139, R146, R148).  A frame that maps to no tenant keeps its source's DEFAULT_TAC (Table 6.1, R140). -/
def stageI2 (r : Run) : Run :=
  let vid := (r.p.hdr.vlans.headD 0) % 4096
  let map : Run × Nat :=
    if r.term then
      let x := lookupExact 1 r.p.epoch r.p.hdr.vni r.p.pipe r.s
      match x.1 with
      | some e => (tenantOf e.data { r with s := x.2 }, 0)
      | none => ({ r with s := x.2, tac := bits r.port 79 14 }, 0x82)
    else if r.role = 1 then
      let x := lookupExact 1 r.p.epoch (2 ^ 30 + r.p.src * 4096 + vid) r.p.pipe r.s
      match x.1 with
      | some e => (tenantOf e.data { r with s := x.2 }, 0)
      | none => ({ r with s := x.2, tac := bits r.port 79 14 }, 0x81)
    else ({ r with tac := bits r.port 79 14 }, 0)
  stageSearch 2 0 (trapKey r) map.1 fun hit r =>
    match hit with
    | some e =>
      if e.actionId = 2 then { trapAs (bits e.data 104 8) (bits e.data 96 6) r with early := true }
      else rest map.2 r
    | none => rest map.2 r
where
  /-- what follows where TRAP_IN traps nothing -/
  rest (miss : Nat) (r : Run) : Run :=
    if miss ≠ 0 then drop miss r
    else if bit r.port 123 && isPtp r then { trapAs 2 1 r with early := true }
    else if bit r.port 125 && (r.role = 1 || r.role = 3) && badSmac r.view.smac then drop 0x83 r
    else r

/-- Learn data by role (R148, Tables 6.4 and 4.7). -/
def learnData (r : Run) : Nat :=
  let qbase := bits r.port 93 13
  if r.role = 1 then
    if bit r.port 116 then (1024 + bits r.port 106 10) * 2 ^ 20 + r.slot * 8
    else r.p.src * 2 ^ 20 + (qbase + r.slot) % 2 ^ 13 * 8
  else (if 768 ≤ r.p.src then 2048 + (r.p.src - 768) else r.p.src) * 2 ^ 20 + qbase * 8

/-- I3: the tenant's TAC and policer, and the L2_MAC lookups with learning (R140, R141, R146, R148). -/
def stageI3 (r : Run) : Run :=
  let r1 := { r with p := { r.p with dec := { r.p.dec with tac := r.tac } } }
  if r1.early then r1
  else
    let polled : Bool × State := if r1.pol = 0 then (true, r1.s) else police 0 r1.p.pipe r1.pol r1.p.len r1.s
    let r2 := { r1 with s := polled.2 }
    let r3 :=
      if r2.bd = 0 then { r2 with routed := true }
      else
        let x := lookupExact 0 r2.p.epoch (r2.bd * 2 ^ 48 + r2.view.dmac) r2.p.pipe r2.s
        let y := lookupExact 0 r2.p.epoch (r2.bd * 2 ^ 48 + r2.view.smac) r2.p.pipe x.2
        let new := learnData r2
        let learn := bit r2.port 125 && (r2.role = 1 || r2.role = 3) && (match y.1 with
          | none => true
          | some e => !e.static && e.data / 8 ≠ new / 8)
        let group := bit r2.view.dmac 40
        { r2 with
          s := y.2
          l2 := if group then none else x.1.map ExEnt.data
          flood := group || x.1.isNone
          routed := !group && (match x.1 with
            | some e => bit e.data 2
            | none => false)
          p := { r2.p with dec := { r2.p.dec with learn := if learn then some (0, r2.bd * 2 ^ 48 + r2.view.smac, new) else none } } }
    if polled.1 then r3 else drop 0x84 r3

/-- The routing instance of a routed frame: its BD's TRI, or TRI 0 without a bridge domain (R146). -/
def routeTri (r : Run) : Nat := if r.bd = 0 then 0 else r.tri

/-- The headers by which a frame is routed: the inner ones with a bridge domain, the outer ones without (R146). -/
def routeView (r : Run) : Hdrs := if r.bd = 0 then r.p.hdr else r.view

/-- The route that an LPM lookup answers. -/
def lpmRoute (id : Nat) (r : Run) : Run :=
  let x := lookupLpm id r.p.epoch (routeTri r) (dstAddr (routeView r)) r.p.pipe r.s
  { r with route := some (x.1.getD 0), s := x.2 }

/-- I4 to I9: the route of a routed frame (R143, R145): HOST_ROUTE before LPM_V4, LPM_V6 for IPv6; a frame without IP takes the default. -/
def stageRoute (r : Run) : Run :=
  if r.early || !r.routed then r
  else if ipVer (routeView r) = 4 then
    let x := lookupExact 3 r.p.epoch (routeTri r * 2 ^ 32 + dstAddr (routeView r)) r.p.pipe r.s
    match x.1 with
    | some e => { r with s := x.2, route := some e.data }
    | none => lpmRoute 48 { r with s := x.2 }
  else if ipVer (routeView r) = 6 then lpmRoute 49 r
  else { r with route := some 0 }

/-- The key of ACL_IN. -/
def aclKey (r : Run) : Nat :=
  let h := r.view
  let dscp := match h.ip with
    | some ip => ip.dscp
    | none => 0
  (((((r.tri * 2 ^ 32 + addr32 (srcAddr h)) * 2 ^ 32 + addr32 (dstAddr h)) * 2 ^ 16 + h.sport) * 2 ^ 16 + h.dport) * 2 ^ 8 + protoOf h) * 2 ^ 6 + dscp

/-- TC (R142, Table 6.1): DSCP[5:3] of the innermost IP header where trusted, otherwise DEFAULT_TC. -/
def classOf (r : Run) : Nat :=
  match (innermost r.p.frame r.c r.p.hdr).ip with
  | some ip => if bit r.port 124 then ip.dscp / 8 else bits r.port 120 3
  | none => bits r.port 120 3

/-- I5 and I6: ACL_IN and its actions (R151); a policer refusal drops as ACL_POLICED. -/
def stageAcl (r : Run) : Run :=
  stageSearch 3 (bits r.port 117 3) (aclKey r) { r with tc := classOf r } fun hit r => match hit with
    | none => r
    | some e =>
      let a := e.actionId
      let r1 := if a = 3 then { r with tc := bits e.data 96 3 } else if a = 5 then { r with tc := bits e.data 108 3 } else r
      if a = 0 ∨ a = 3 then r1
      else if a = 2 then trapAs 10 (bits e.data 96 6) r1
      else if a = 4 ∨ a = 5 then
        let x := police 0 r1.p.pipe (bits e.data 96 12) r1.p.len r1.s
        if x.1 then { r1 with s := x.2 } else drop 0x86 { r1 with s := x.2 }
      else drop 0x85 r1

/-- ECMP or LAG member (R80). -/
def member (h n : Nat) : Nat := h * n / 2 ^ 32

/-- I12: NH_SEL of a group's member (R145). -/
def nextHop (group n : Nat) (r : Run) : Run :=
  stageSearch 5 0 (group * 16 + member r.hash n % 16) r fun hit r => match hit with
    | none => drop 0x89 r
    | some e => { r with qset := bits e.data 103 13 }

/-- I10 to I13: LAG_HDR and LAG_SEL; the queue set is QBASE + SLOT. -/
def lagMember (lag slot : Nat) (r : Run) : Run :=
  stageSearch 4 0 lag r fun hit r => match hit with
    | none => drop 0x8A r
    | some e => stageSearch 6 0 (lag * 16 + member r.hash (bits e.data 123 5) % 16) r fun hit r => match hit with
      | none => drop 0x8A r
      | some m => { r with qset := bits m.data 105 13 + slot }

/-- I10: TUNNEL_EP, then ECMP over its group. -/
def tunnelTo (tep : Nat) (r : Run) : Run :=
  let x := lookupExact 2 r.p.epoch tep r.p.pipe r.s
  match x.1 with
  | none => drop 0x88 { r with s := x.2 }
  | some e =>
    let b := { r.bridge with encap := 1 + bits e.data 47 1, tepDst := bits e.data 96 32, rmac := bits e.data 48 48, srcIdx := bits e.data 43 4 }
    nextHop (bits e.data 29 14) (bits e.data 24 5) { r with s := x.2, bridge := b }

/-- Send to a destination field (Table 4.7) with a queue set or slot. -/
def toDest (dest qset slot : Nat) (r : Run) : Run :=
  if dest / 1024 = 1 then lagMember (dest % 1024) slot r else { r with qset := qset }

/-- The TTL or hop limit of the routed header, none without IP. -/
def routedTtl (r : Run) : Option Nat := (routeView r).ip.map IpHdr.ttl

/-- The route's outcome (R145, R146). -/
def applyRoute (d : Nat) (r : Run) : Run :=
  let r := match routedTtl r with
    | some t => if t ≤ 1 then trapAs 9 5 r else r
    | none => r
  if r.trapped then r
  else match bits d 94 2 with
    | 0 => if bit d 93 then trapAs 8 4 r else drop 0x87 r
    | 1 =>
      let b := { r.bridge with hostMac := bits d 5 48, bd := bits d 53 16 }
      toDest (bits d 82 12) (bits d 69 13) (bits d 69 4) { r with bridge := b }
    | 2 => tunnelTo (bits d 77 17) r
    | _ =>
      let b := { r.bridge with under := true }
      nextHop (bits d 80 14) (bits d 75 5) { r with bridge := b }

/-- I10 to I13: where the packet goes (R142, R146, R147). -/
def stageForward (r : Run) : Run :=
  let b : Bridge := { inRole := r.role, terminated := r.term, innerOff := if r.term then r.p.hdr.tunEnd else 0, routed := r.routed,
                      outer := r.routed && r.bd == 0, flood := r.flood, bridged := !r.flood && !r.routed,
                      tri := if r.routed then routeTri r else r.tri, bd := if r.routed then 0 else r.bd, tc := r.tc, srcIdx := 0, hash := r.hash }
  let r := { r with bridge := b }
  if r.trapped then r
  else if r.flood then { r with p := { r.p with dec := { r.p.dec with destKind := 2, mcast := r.bd } } }
  else
    let r1 := if r.routed then applyRoute (r.route.getD 0) r
      else
        let d := r.l2.getD 0
        let dest := bits d 20 12
        if dest / 1024 = 3 then tunnelTo (bits d 3 17) r else toDest dest (bits d 3 13) (bits d 3 4) r
    if r1.trapped || r1.p.dec.drop ≠ 0 then r1
    else { r1 with p := { r1.p with dec := { r1.p.dec with destKind := 1, destQueue := (8 * r1.qset + r1.tc) % 65536 } } }

/-- The standard program's ingress pass over a parsed packet. -/
def standardIngress (c : ParseCfg) (p : Pkt) (s : State) : Pkt × State :=
  let r := [stageI0, stageI1, stageI2, stageI3, stageRoute, stageAcl, stageForward].foldl (fun r f => stage f r) { s := s, p := p, c := c, view := p.hdr }
  ({ r.p with dec := { r.p.dec with bridged := packBridge r.bridge } }, r.s)

/-- A packet's ingress stages under the program in force: a parse error whose action is drop passes them as a bubble (R66, R77); with no image in force there is no program, and nothing names a destination. -/
def runIngress (c : ParseCfg) (p : Pkt) (s : State) : Pkt × State :=
  let start := if errAction c p.hdr.err = 1 then 2 else 0
  match s.tbl.image with
  | none => ({ p with dec := { p.dec with drop := start } }, s)
  | some im =>
    if isStandard im then
      let q := { p with dec := { p.dec with drop := start, valid := validMask p.hdr.valid, key := standardKey p.frame c p.hdr } }
      if start ≠ 0 then (q, s) else standardIngress c q s
    else programIngress im c.seed start p s

end Sys2Proof.Machine
end

