-- ==== Sys2Proof/Machine/Rewrite.lean ====
section
/-! DEFINITION. The egress pass of a copy (R81, R82), for an image's own program in Machine/Stages.lean: the standard program's egress lookups, decapsulation, encapsulation and native rewrite (R147, R149, R150), congestion marks (R174), PTP fields (R154) and the length rules of R82. -/

namespace Sys2Proof.Machine

/-! ### Edits of frames -/

/-- A 20-byte-or-longer IPv4 header's checksum recomputed in place. -/
def fixIpCsum (f : List Byte) (off hlen : Nat) : List Byte :=
  let g := patch f (off + 10) [0, 0]
  patch g (off + 10) (beBytes 2 (65535 - onesSum (slice g off hlen) 0))

/-- The ECN of an IP header set. -/
def setEcn (f : List Byte) (ip : IpHdr) (off ecn : Nat) : List Byte :=
  if ip.ver = 4 then fixIpCsum (patch f (off + 1) (beBytes 1 (putBits (beAt f (off + 1) 1) 0 2 ecn))) off ip.hlen
  else patch f (off + 1) (beBytes 1 (putBits (beAt f (off + 1) 1) 4 2 ecn))

/-- The TTL or hop limit of an IP header decremented. -/
def decTtl (f : List Byte) (ip : IpHdr) (off : Nat) : List Byte :=
  if ip.ver = 4 then fixIpCsum (patch f (off + 8) (beBytes 1 (beAt f (off + 8) 1 - 1))) off ip.hlen
  else patch f (off + 7) (beBytes 1 (beAt f (off + 7) 1 - 1))

/-- A frame without its VLAN tags, `n` of them behind the addresses at `eth`. -/
def stripTags (f : List Byte) (eth n : Nat) : List Byte := f.take (eth + 12) ++ f.drop (eth + 12 + 4 * n)

/-- A frame with a VLAN tag inserted. -/
def pushTag (f : List Byte) (eth tci : Nat) : List Byte := f.take (eth + 12) ++ beBytes 2 0x8100 ++ beBytes 2 tci ++ f.drop (eth + 12)

/-! ### Lengths (R172) -/

/-- The maximum frame size of a source (MAXF of R171 and R176). -/
def maxFrameIn (s : State) (src : Nat) : Nat :=
  if src < 768 then (match (macRt s (src / 8)).cfg with
    | some c => (c.maxFrame[src % 8]?).getD 0
    | none => 0)
  else if src < 772 then 16368 else 16352

/-- The maximum frame size of a destination. -/
def maxFrameOut (s : State) (port : Nat) : Nat := if port = 772 then 16368 else maxFrameIn s port

/-! ### The standard program at egress -/

/-- A copy under way through the egress stages. -/
structure ERun where
  s : State
  p : Pkt
  copy : Copy
  pipe : Nat
  drop : Nat := 0
  /-- PORT_OUT action data -/
  out : Option Nat := none
  vni : Nat := 0
  vid : Nat := 0
  router : Nat := 0
  localIp : Nat := 0

/-- Drop a copy: the first nonzero reason stands (R62). -/
def edrop (code : Nat) (r : ERun) : ERun := if r.drop = 0 then { r with drop := code } else r

/-- An egress stage: a dropped copy passes it as a bubble (R77). -/
def estage (f : ERun → ERun) (r : ERun) : ERun := if r.drop = 0 then f r else r

/-- An egress policy search. -/
def esearch (id key : Nat) (r : ERun) (k : Option TcamEnt → ERun → ERun) : ERun :=
  let x := searchTable id r.pipe r.p.epoch 0 key r.copy.port r.s
  let r1 := { r with s := x.2.2 }
  if x.2.1 then edrop 0x03 r1 else k x.1 r1

/-- ROLE of the egress port: 0 without a PORT_OUT entry. -/
def outRole (r : ERun) : Nat := match r.out with
  | some d => bits d 126 2
  | none => 0

/-- Whether the copy leaves encapsulated (R150): toward a tunnel endpoint, or within a bridge domain to a PEER port. -/
def encaps (r : ERun) : Bool :=
  r.out.isSome && r.p.dec.destKind ≠ 3 && ((bridgeOf r.p).encap ≠ 0 || (outRole r == 3 && (bridgeOf r.p).bd ≠ 0))

/-- E0: PORT_OUT, with HAIRPIN and FLOOD_FILTER (R147). -/
def stageE0 (r : ERun) : ERun :=
  esearch 7 r.copy.port r fun hit r =>
    let r := { r with out := hit.map TcamEnt.data }
    let b := bridgeOf r.p
    let dual := match r.out with
      | some d => bit d 125
      | none => false
    if b.bridged && r.p.dec.destKind == 1 && r.copy.port == r.p.src then edrop 0x8C r
    else if b.flood && r.p.dec.destKind == 2 && (r.copy.port == r.p.src || (b.inRole == 3 && (dual || outRole r == 3)) || outRole r == 2) then edrop 0x8D r
    else r

/-- Whether the copy is delivered natively to a HOST port, which takes the kind 2 VID. -/
def toHost (r : ERun) : Bool := outRole r == 1 && !encaps r && r.p.dec.destKind ≠ 3

/-- E1: EG_TRI_VNI (Table 6.3, R150). -/
def stageE1 (r : ERun) : ERun :=
  let b := bridgeOf r.p
  if encaps r then
    let key := if b.routed && outRole r ≠ 3 then b.tri else 2 ^ 30 + b.bd
    let x := lookupExact 32 r.p.epoch key r.pipe r.s
    match x.1 with
    | some e => { r with s := x.2, vni := e.data % 2 ^ 24 }
    | none => edrop 0x90 { r with s := x.2 }
  else if toHost r then
    let x := lookupExact 32 r.p.epoch (2 * 2 ^ 30 + r.copy.port * 65536 + b.bd) r.pipe r.s
    match x.1 with
    | some e => { r with s := x.2, vid := e.data % 4096 }
    | none => edrop 0x8E { r with s := x.2 }
  else r

/-- E2: LOCAL_OUT of SRC_IDX, for a copy that is encapsulated or routed. -/
def stageE2 (r : ERun) : ERun :=
  let b := bridgeOf r.p
  if r.out.isSome && r.p.dec.destKind ≠ 3 && (encaps r || b.routed) then
    esearch 8 (if outRole r = 3 then 0 else b.srcIdx) r fun hit r => match hit with
      | some e => { r with router := bits e.data 80 48, localIp := bits e.data 48 32 }
      | none => edrop 0x88 r
  else r

/-- The headers the program reads: inner ones of a terminated frame. -/
def viewOf (p : Pkt) (c : ParseCfg) : Hdrs := if (bridgeOf p).terminated then innermost p.frame c p.hdr else p.hdr

/-- E3: ACL_OUT (R151): PERMIT, SET_TC, POLICE and SET_TC_POLICE permit, every other action denies. -/
def stageE3 (c : ParseCfg) (r : ERun) : ERun :=
  let h := viewOf r.p c
  let key := ((((r.copy.port * 2 ^ 16 + (bridgeOf r.p).tri) * 2 ^ 32 + addr32 (srcAddr h)) * 2 ^ 32 + addr32 (dstAddr h)) * 2 ^ 16 + h.sport) * 2 ^ 16 + h.dport
  esearch 9 key r fun hit r => match hit with
    | none => r
    | some e => if e.actionId = 0 ∨ e.actionId = 3 ∨ e.actionId = 4 ∨ e.actionId = 5 then r else edrop 0x8F r

/-- The frame without its outer headers where it was terminated, with ECN carried inward (R149), and the offset its headers moved by. -/
def decapped (p : Pkt) (c : ParseCfg) : List Byte × Nat :=
  let b := bridgeOf p
  if b.terminated then
    let f := p.frame.drop b.innerOff
    match (viewOf p c).ip with
    | some ip => if ecnOf p.hdr = some 3 ∧ (ip.ecn = 1 ∨ ip.ecn = 2) then (setEcn f ip (ip.off - b.innerOff) 3, b.innerOff) else (f, b.innerOff)
    | none => (f, b.innerOff)
  else (p.frame, 0)

/-- The IP header whose TTL or hop limit a route decrements: that of the headers the program reads, none where a terminated frame was routed by the outer header it loses. -/
def routedIp (b : Bridge) (h : Hdrs) : Option IpHdr := if b.outer && b.terminated then none else h.ip

/-- A routed frame's MACs, the source the router MAC, and its TTL (R150); `eth` is where its Ethernet header stands, `moved` how far its headers have moved. -/
def routeMacs (f : List Byte) (ip : Option IpHdr) (eth moved dst router : Nat) : List Byte :=
  let g := patch (patch f eth (beBytes 6 dst)) (eth + 6) (beBytes 6 router)
  match ip with
  | some ip => decTtl g ip (ip.off - moved)
  | none => g

/-- The outer headers of R150 before an inner frame. -/
def outerHeaders (nbr router src dst tos hash port : Nat) (geneve : Bool) (vni : Nat) (inner : List Byte) : List Byte :=
  let ip := beBytes 1 0x45 ++ beBytes 1 tos ++ beBytes 2 (inner.length + 36) ++ [0, 0] ++ beBytes 2 0x4000 ++ beBytes 1 64 ++ beBytes 1 17 ++ [0, 0]
    ++ beBytes 4 src ++ beBytes 4 dst
  beBytes 6 nbr ++ beBytes 6 router ++ beBytes 2 0x0800 ++ fixIpCsum ip 0 20
    ++ beBytes 2 (0xC000 + hash % 2 ^ 14) ++ beBytes 2 port ++ beBytes 2 (inner.length + 16) ++ [0, 0]
    ++ (if geneve then [0, 0] ++ beBytes 2 0x6558 else [8, 0, 0, 0]) ++ beBytes 4 (vni * 256) ++ inner

/-- The bytes that rewrite emits (R82, R149, R150).  The priority and DEI bits of a tag it adds are not stated: a free value (place 601). -/
def emitted (r : ERun) (c : ParseCfg) : List Byte :=
  let b := bridgeOf r.p
  let h := viewOf r.p c
  match r.out with
  | none => r.p.frame
  | some d =>
    if r.p.dec.destKind = 3 then r.p.frame
    else
      let x := decapped r.p c
      let eth := h.ethOff - x.2
      let nbr := bits d 75 48
      if encaps r then
        let g := stripTags x.1 eth h.vlans.length
        let moved := x.2 + 4 * h.vlans.length
        let inner0 := if b.routed then routeMacs g (routedIp b h) eth moved b.rmac r.router else g
        let tos := match h.ip with
          | some ip => ip.dscp * 4 + (if b.terminated ∧ ecnOf r.p.hdr = some 3 ∧ (ip.ecn = 1 ∨ ip.ecn = 2) then 3 else ip.ecn)
          | none => 0
        let peer := outRole r = 3
        let geneve := b.encap = 2 && !peer
        outerHeaders nbr r.router r.localIp (if peer then bits d 43 32 else b.tepDst) tos b.hash (if geneve then bits c.c0 0 16 else bits c.c0 16 16) geneve r.vni inner0
      else
        let g := if b.routed then routeMacs x.1 (routedIp b h) eth x.2 (if b.under then nbr else if b.tri = 0 ∧ b.hostMac = 0 then nbr else b.hostMac) r.router else x.1
        if toHost r then
          let g1 := stripTags g eth h.vlans.length
          if r.vid = 0 then g1 else pushTag g1 eth (Config.freeValue 601 r.s.free % 16 * 4096 + r.vid)
        else g

/-! ### PTP (R154) -/

/-- The PTP event message a frame carries, as (message offset, checksum offset or 0). -/
def ptpMessage (f : List Byte) (c : ParseCfg) : Option (Nat × Nat) :=
  let p := parseFixed f c false {}
  let found := if p.h.etype = 0x88F7 then some (p.pos, 0)
    else if p.h.valid.contains 11 ∧ p.h.dport = 319 then
      some (p.h.l4Off + 8, if ipVer p.h = 6 ∨ beAt f (p.h.l4Off + 6) 2 ≠ 0 then p.h.l4Off + 6 else 0)
    else none
  match found with
  | some (o, cs) => if beAt f o 1 % 16 < 4 ∧ o < f.length then some (o, cs) else none
  | none => none

/-- The four fields of R55 for a copy, by PTP_MODE of the egress port. -/
def ptpFields (r : ERun) (c : ParseCfg) (f : List Byte) : TxImage :=
  let mode := match r.out with
    | some d => bits d 123 2
    | none => 0
  let host := r.p.src == 772
  match ptpMessage f c with
  | none => { bytes := f }
  | some (o, cs) =>
    if mode = 3 then (if host then { bytes := f } else { bytes := f, tsAction := 3, tsOffset := o + 8, csumOffset := cs })
    else if (mode = 1 || mode = 2) && host then
      if mode = 2 && beAt f o 1 % 16 = 0 then { bytes := f, tsAction := 2, tsOffset := o + 34, csumOffset := cs }
      else { bytes := f, tsAction := 1, tsOffset := 0, csumOffset := cs, tsTag := beAt f (o + 30) 2 }
    else { bytes := f }

/-! ### The egress pass -/

/-- A copy's congestion mark on the outermost IP header, as the copy leaves (R174): behind the chain header of a chain port's frame (R342). -/
def markEcn (s : State) (k : Copy) (f : List Byte) (c : ParseCfg) : List Byte :=
  let body := chainBody s k.port f
  match (parseFixed body c false {}).h.ip with
  | some ip => if k.ecn && (ip.ecn = 1 || ip.ecn = 2) then f.take (f.length - body.length) ++ setEcn body ip ip.off 3 else f
  | none => f

/-- A frame padded to 64 bytes with its FCS (R82). -/
def padded (f : List Byte) : List Byte := f ++ zeros (60 - f.length)

/-- What egress decides of a copy: a drop reason (0 for none), the image to transmit, and the state. -/
structure EgressRes where
  drop : Nat
  img : TxImage
  s : State

/-- The length rule of R82, after the program: OVERSIZE, or the padded image. -/
def sized (drop port : Nat) (img : TxImage) (s : State) : EgressRes :=
  if drop ≠ 0 then ⟨drop, { img with bytes := [] }, s⟩
  else
    let bytes := padded img.bytes
    if maxFrameOut s port < bytes.length + 4 then ⟨0x04, { img with bytes := [] }, s⟩ else ⟨0, { img with bytes := bytes }, s⟩

/-- HDR_VALID of a copy as the standard program leaves it (R82, R149): a terminated frame loses the bits of the headers that the fixed parser recognised, which end with the tunnel's; the headers that an encapsulation puts before a packet's own are none of these (Table 3.3). -/
def standardValid (r : ERun) : Nat :=
  if r.out.isSome && r.p.dec.destKind ≠ 3 && (bridgeOf r.p).terminated then r.p.dec.valid / 2 ^ 32 * 2 ^ 32 else r.p.dec.valid

/-- The standard program's egress pass. -/
def standardEgress (c : ParseCfg) (p : Pkt) (k : Copy) (pipe : Nat) (s : State) : EgressRes :=
  let r := [stageE0, stageE1, stageE2, stageE3 c].foldl (fun r f => estage f r) { s := s, p := p, copy := k, pipe := pipe }
  let f := emitted r c
  let f1 := markEcn s k f c
  sized r.drop k.port { ptpFields r c f1 with valid := standardValid r, front := if encaps r then 50 else 0, key := p.dec.key, cpuMeta := if p.dec.destKind = 3 then p.dec.trap else 0 } (drawn r.s)

/-- A copy's egress stages and rewrite under the program in force (R81, R82): the standard program, or the image's own; without an image a copy leaves as it came. -/
def runEgress (p : Pkt) (k : Copy) (pipe : Nat) (s : State) : EgressRes :=
  let c := cfgOfEpoch s p.epoch
  match s.tbl.image with
  | none => sized 0 k.port { bytes := markEcn s k p.frame c } s
  | some im =>
    if isStandard im then standardEgress c p k pipe s
    else
      let x := programEgress im c.seed s.clk.tod p k pipe s
      sized x.1 k.port { x.2.1 with bytes := markEcn s k x.2.1.bytes c } x.2.2

end Sys2Proof.Machine
end

