-- ==== Sys2Proof/Machine/Export.lean ====
section
/-! DEFINITION. Export (Chapter 9): records and their routes (R220), batches and their frames for IPFIX (R224, R225) and the Portfolio (R226 to R229), export periods, late and completed batches (R220 to R223), and the commands that set targets (R219). -/

namespace Sys2Proof.Machine

/-- An export target. -/
def target (s : State) (n : Nat) : Target := tgetD s.tele.targets n {}

/-- Set it. -/
def setTarget (n : Nat) (x : Target) (s : State) : State := { s with tele := { s.tele with targets := tset s.tele.targets n x } }

/-- A target in use: enabled, and not ending. -/
def targetOn (s : State) (n : Nat) : Bool := flag s F.TGT_STAT_EN n 0

/-! ### Frames of a batch -/

/-- Bytes of the outer headers of a target's frames up to the end of UDP. -/
def outerLen (c : TargetSet) : Nat := 14 + (if c.vlanEn then 4 else 0) + (if c.ipv6 then 40 else 20) + 8

/-- One data set of IPFIX: the set header and records of one template (RFC 7011). -/
def dataSet (template : Nat) (bytes : List Byte) : List Byte := beBytes 2 template ++ beBytes 2 (bytes.length + 4) ++ bytes

/-- Elements of the templates as (enterprise, ID, length) in order (Tables 9.9 and 10.10); length 65,535 is variable. -/
def templateFields : Nat → List (Bool × Nat × Nat)
  | 256 => [(true, 1, 2), (false, 10, 4), (false, 14, 4), (true, 2, 40), (false, 1, 8), (false, 2, 8), (false, 132, 8), (false, 133, 8), (true, 3, 8),
            (true, 4, 4), (true, 5, 4), (true, 6, 8), (true, 7, 8), (true, 8, 8), (false, 136, 1), (true, 9, 1), (true, 10, 1)]
  | 257 => [(true, 1, 2), (false, 10, 4), (false, 14, 4), (true, 2, 40), (true, 11, 8), (true, 12, 8), (true, 13, 4), (true, 14, 2), (true, 15, 4),
            (true, 16, 1), (true, 17, 1), (true, 18, 2), (true, 19, 2), (true, 20, 2), (true, 21, 1)]
  | 258 => [(true, 1, 2), (false, 10, 4), (true, 2, 40), (true, 22, 2), (true, 23, 4), (true, 24, 1), (true, 25, 65535)]
  | _ => [(true, 1, 2), (true, 26, 2), (true, 27, 8), (true, 28, 8), (true, 29, 8), (true, 30, 8), (true, 31, 8), (true, 32, 8), (true, 33, 8), (true, 34, 8), (true, 35, 8)]

/-- The template set of templates 256 to 259 (R224, R225). -/
def templateSet (pen : Nat) : List Byte :=
  let one (t : Nat) : List Byte :=
    let fs := templateFields t
    beBytes 2 t ++ beBytes 2 fs.length ++ fs.flatMap fun f =>
      if f.1 then beBytes 2 (32768 + f.2.1) ++ beBytes 2 f.2.2 ++ beBytes 4 pen else beBytes 2 f.2.1 ++ beBytes 2 f.2.2
  dataSet 2 ([256, 257, 258, 259].flatMap one)

/-- Runs of records of equal template, at most `room` bytes of sets with their headers, from the front of a list: what fits, and the rest. -/
def takeFitting : Nat → Option Nat → List ExpRec → List ExpRec × List ExpRec
  | _, _, [] => ([], [])
  | room, last, r :: rs =>
    let need := r.bytes.length + (if last = some r.template then 0 else 4)
    if need ≤ room then
      let x := takeFitting (room - need) (some r.template) rs
      (r :: x.1, x.2)
    else ([], r :: rs)

/-- The data sets of consecutive records. -/
def setsOf (l : List ExpRec) : List Byte := go l.length l
where
  /-- by a bound on the records' number -/
  go : Nat → List ExpRec → List Byte
    | 0, _ => []
    | _, [] => []
    | n + 1, r :: rs =>
      let run := rs.takeWhile (fun x => x.template == r.template)
      dataSet r.template ((r :: run).flatMap ExpRec.bytes) ++ go n (rs.drop run.length)

/-- Cut a batch's records into IPFIX messages no longer than MSG_MAX, the first led by the template sets where they are due (R224). -/
def ipfixFrames (max pen : Nat) : Nat → Bool → List ExpRec → List ExpFrame
  | 0, _, _ => []
  | n + 1, tmpl, recs =>
    if recs.isEmpty && !tmpl then []
    else
      let head := if tmpl then templateSet pen else []
      let x := takeFitting (max - 16 - head.length) none recs
      if x.1.isEmpty && !tmpl then []
      else { body := head ++ setsOf x.1, off := 0, recs := x.1.length, tmpl := tmpl } :: ipfixFrames max pen n false x.2

/-- The bytes of a Portfolio batch (Table 9.11): the header and the records with their prefixes, padded to a multiple of 64 bytes. -/
def portfolioBatch (wrap flags seq period count : Nat) (body : List Byte) : List Byte :=
  let pad := body ++ zeros ((64 - body.length % 64) % 64)
  leBytes 4 0x42544331 ++ leBytes 4 (64 + pad.length) ++ leBytes 4 wrap ++ leBytes 4 flags ++ leBytes 8 seq ++ leBytes 8 period
    ++ leBytes 4 count ++ leBytes 4 (crcMsb 32 0x1EDC6F41 0xFFFFFFFF pad) ++ zeros 24 ++ pad

/-- A record behind its 4-byte prefix (R228), in network order as its frame is (R10). -/
def prefixed (r : ExpRec) : List Byte := beBytes 2 r.template ++ beBytes 2 r.bytes.length ++ r.bytes

/-- RDMA WRITEs of bytes at an offset of the region, PMTU bytes each (R226). -/
def writes (pmtu : Nat) : Nat → Nat → List Byte → List ExpFrame
  | 0, _, _ => []
  | n + 1, off, bs => if bs.isEmpty then [] else { body := bs.take pmtu, off := off, recs := 0 } :: writes pmtu n (off + pmtu) (bs.drop pmtu)

/-- PMTU in bytes (Table 9.7). -/
def pmtuBytes (c : TargetSet) : Nat := 2 ^ (7 + c.pmtu)

/-- The pointer record (Table 9.10). -/
def pointerRecord (s : State) (n : Nat) (c : TargetSet) (off wraps start seq : Nat) : List Byte :=
  leBytes 4 0x50464F31 ++ leBytes 4 n ++ leBytes 8 (c.gbase + off) ++ leBytes 4 wraps ++ zeros 4 ++ leBytes 8 start ++ leBytes 8 seq
    ++ leBytes 8 (reg s .BATCH_LATE_CNT n 0).toNat ++ leBytes 8 ((reg s .REC_LATE n 0).toNat + (reg s .REC_OVF n 0).toNat) ++ zeros 8

/-- The frames of a Portfolio batch (R229), with the write offset and the laps that hold after it: a wrap marker first where the batch does not fit before the end, then the batch, last the pointer. -/
def portfolioFrames (s : State) (n : Nat) (c : TargetSet) (t : Target) (recs : List ExpRec) (start : Nat) : List ExpFrame × Nat × Nat :=
  let wraps := (reg s .WRAP_COUNT n 0).toNat
  let seq := t.batchSeq + 1
  let body := recs.flatMap prefixed
  let len := 64 + (body.length + 63) / 64 * 64
  let wrap := decide (c.size < t.offset + len)
  let w := if wrap then wraps + 1 else wraps
  let o := if wrap then 4096 else t.offset
  let marker := if wrap then writes (pmtuBytes c) (c.size - t.offset) t.offset (portfolioBatch wraps 1 seq start 0 (zeros (c.size - t.offset - 64))) else []
  let off := if c.size ≤ o + len then 4096 else o + len
  let w' := if c.size ≤ o + len then w + 1 else w
  (marker ++ writes (pmtuBytes c) len o (portfolioBatch w 0 seq start recs.length body)
    ++ [{ body := pointerRecord s n c off w' start seq, off := 0, recs := 0 }], off, w')

/-- Bytes of a frame on the wire: with FCS, preamble and gap. -/
def wireBytes (c : TargetSet) (f : ExpFrame) : Nat :=
  let len := outerLen c + (if c.kind = 1 then 12 + 16 + f.body.length + 4 else 16 + f.body.length) + 4
  max 64 len + 20

/-- Whether the templates are due in a batch that begins now (R224). -/
def templatesDue (s : State) (t : Target) : Bool :=
  match t.tmplAt with
  | none => true
  | some a => decide (a + getF s F.TEL_CFG_TEMPLATE_S 0 0 * 1000000000 < s.clk.mono)

/-- The frames that a batch of records would make, with the Portfolio's offset and laps after it. -/
def batchFrames (s : State) (n : Nat) (c : TargetSet) (t : Target) (recs : List ExpRec) (start : Nat) : List ExpFrame × Nat × Nat :=
  if c.kind = 1 then portfolioFrames s n c t recs start
  else (ipfixFrames c.msgMax (reg s .TEL_PEN 0 0).toNat (recs.length + 2) (templatesDue s t) recs, t.offset, 0)

/-- A target as its filling batch will find it: the write offset and the laps behind the batch in transmission, as if that ends on time. -/
def afterBatch (n : Nat) (t : Target) (s : State) : Target × State :=
  if t.sending then ({ t with offset := t.nextOff }, setReg .WRAP_COUNT n 0 (BitVec.ofNat 32 t.nextWraps) s) else (t, s)

/-- Whether a filling batch stays within 1 MiB and one period of wire time at EXP_RATE (R220). -/
def batchFits (s : State) (n : Nat) (c : TargetSet) (t : Target) (recs : List ExpRec) : Bool :=
  let x := afterBatch n t s
  let fs := (batchFrames x.2 n c x.1 recs t.fillStart).1
  let size := if c.kind = 1 then 64 + (recs.flatMap prefixed).length else (recs.map (fun r => r.bytes.length)).foldl (· + ·) 0
  decide (size ≤ 1048576) && decide (fs.foldl (fun a f => a + wireBytes c f * 8) 0 ≤ c.expRate * s.tele.periodUs * 1000)

/-! ### Records enter (R220) -/

/-- A record's class by its field of EXP_ROUTE: FLOW, POSTCARD, IOAM, METER. -/
def routeOf (s : State) (cls : Nat) : Option Nat :=
  let v := bits (reg s .EXP_ROUTE 0 0).toNat (5 * cls) 5
  if bit v 4 && targetOn s (v % 16) then some (v % 16) else none

/-- A meter record that will not be confirmed (R250): it counts, and the next one of its TAC carries MERGED. -/
def meterLost (m : MeterRec) (s : State) : State :=
  let s1 := { s with tele := { s.tele with meter := tmod s.tele.meter m.tac {} (fun b => { b with merged := true }) } }
  raise0 Ev.CNT_METER_MERGED (bump .METER_MERGED_CNT 0 0 1 s1)

/-- A meter record lost with its export record. -/
def recLost (r : ExpRec) (s : State) : State := match r.meter with
  | some m => meterLost m s
  | none => s

/-- Offer a record to the target its class is routed to (R220): it fills the batch, or overflows; routed nowhere, it is discarded and counted nowhere. -/
def offerRecord (cls : Nat) (r : ExpRec) (s : State) : State :=
  match routeOf s cls with
  | none => recLost r s
  | some n =>
    let t := target s n
    match t.cfg with
    | none => s
    | some c =>
      if batchFits s n c t (t.filling ++ [r]) then setTarget n { t with filling := t.filling ++ [r] } s
      else recLost r (raise Ev.TEL_REC_OVF n 0 (bump .REC_OVF n 0 1 s))

/-! ### Periods (R220 to R223) -/

/-- Records confirmed by a batch that completed on time: each TAC's base moves to the record's END (R250). -/
def confirmMeter (r : ExpRec) (s : State) : State :=
  match r.meter with
  | none => s
  | some m => { s with tele := { s.tele with meter := tmod s.tele.meter m.tac {} (fun b =>
      { b with vals := m.ends, start := m.stop, merged := false, restart := false }) } }

/-- The batch in transmission missed its deadline (R222). -/
def batchLate (n : Nat) (t : Target) (s : State) : State :=
  let left := (t.frames.map ExpFrame.recs).foldl (· + ·) 0
  let s1 := bump .BATCH_LATE_CNT n 0 1 s |> bump .REC_LATE n 0 t.sendRecs.length
  let s2 := if (t.cfg.map TargetSet.kind).getD 0 = 0 then bump .NEXT_SEQ n 0 left s1 else s1
  let s3 := t.sendRecs.foldl (fun z r => recLost r z) (raise Ev.TEL_BATCH_LATE n 0 s2)
  setTarget n { t with frames := [], sendRecs := [], sending := false, batchSeq := t.batchSeq + 1 } s3

/-- The filling batch becomes the batch in transmission, its deadline the next boundary or, where one is given, an instant of the monotonic count; an empty one makes no batch (log 21). -/
def beginBatch (n : Nat) (c : TargetSet) (due : Option Nat) (s : State) : State :=
  let t := { target s n with dueMono := due }
  if t.filling.isEmpty then setTarget n { t with fillStart := s.clk.tod } s
  else
    let x := batchFrames s n c t t.filling t.fillStart
    setTarget n { t with filling := [], fillStart := s.clk.tod, sendRecs := t.filling, frames := x.1, sendStart := t.fillStart, sending := true, sendMono := s.clk.mono,
                         nextOff := x.2.1, nextWraps := x.2.2 } s

/-- Whether a target's present period ends now: at its own instant of the monotonic count (R223, R404), else at a multiple of the period. -/
def periodEnds (s : State) (t : Target) (grid : Bool) : Bool :=
  match t.dueMono with
  | some d => decide (d ≤ s.clk.mono)
  | none => grid

/-- A target whose filling batch closes now: the next batch begins, and TARGET_DOWN is raised while the port is down (R222, Table 9.7). -/
def nextBatch (n : Nat) (due : Option Nat) (s : State) : State :=
  match (target s n).cfg with
  | none => s
  | some c =>
    let s1 := beginBatch n c due s
    if portIsUp s c.port then s1 else raise Ev.TEL_TARGET_DOWN n 0 s1

/-- A multiple of the period (`grid`) or an instant of the monotonic count at one target: where its period ends, a batch not yet on the wire is late, an ending target ends, otherwise the filling batch closes and the next batch begins. -/
def targetPeriod (n : Nat) (grid : Bool) (due : Option Nat) (s : State) : State :=
  let t := target s n
  if !periodEnds s t grid then s
  else
    let s1 := if t.sending then batchLate n t s else s
    if t.ending then
      let s2 := setTarget n { target s1 n with cfg := none, ending := false, disableCmd := none, dueMono := none } s1
      match t.disableCmd with
      | some h => finishOpen h 0x0501 {} s2
      | none => s2
    else nextBatch n due s1

/-- A filling batch closes at a step of TOD and becomes the batch in transmission, with its deadline one period later; behind a batch still in transmission it closes at that batch's deadline, which stands on the monotonic count (R223, R404; log 22). -/
def targetStep (n : Nat) (s : State) : State :=
  let t := target s n
  let period := s.tele.periodUs * 1000
  if t.sending then setTarget n { t with dueMono := some (t.dueMono.getD (t.sendMono + period)) } s
  else nextBatch n (some (s.clk.mono + period)) s

/-- A meter record (template 259, Table 10.10). -/
def meterRecord (m : MeterRec) : ExpRec :=
  { template := 259
    bytes := beBytes 2 (m.tac % 16384) ++ beBytes 2 m.flags ++ beBytes 8 m.start ++ beBytes 8 m.stop ++ m.diffs.flatMap (beBytes 8)
    meter := some m }

/-- The metering engines offer waiting meter records in order (R250): as many as the batch has room for, one that is routed nowhere being lost. -/
def offerMeters : Nat → State → State
  | 0, s => s
  | n + 1, s =>
    match s.tele.offers with
    | [] => s
    | m :: rest =>
      let s1 := { s with tele := { s.tele with offers := rest } }
      match routeOf s 3 with
      | none => offerMeters n (meterLost m s1)
      | some k =>
        let t := target s k
        match t.cfg with
        | none => offerMeters n (meterLost m s1)
        | some c =>
          if batchFits s k c t (t.filling ++ [meterRecord m]) then offerMeters n (setTarget k { t with filling := t.filling ++ [meterRecord m] } s1) else s

/-- EXPORT_PERIOD (R220, R222, R223): a TOD instant that is a multiple of the period, or the end of a period that a change of EXP_PERIOD_US or a step set.  A new EXP_PERIOD_US holds from the end of a period on: the next one ends one new period later, and those after it at multiples of the new length. -/
def execExportPeriod (t : Nat) (s : State) : Res :=
  live t (fun s =>
    let grid := decide (s.clk.tod % (s.tele.periodUs * 1000) = 0)
    let ends := grid || (List.range 16).any fun n => (target s n).dueMono.isSome && periodEnds s (target s n) false
    let new := getF s F.TEL_CFG_EXP_PERIOD_US 0 0
    let due := if ends && new ≠ s.tele.periodUs then some (s.clk.mono + new * 1000) else none
    let s1 := if ends then { s with tele := { s.tele with periodUs := new } } else s
    let s2 := (List.range 16).foldl (fun z n => targetPeriod n grid due z) s1
    offerMeters s2.tele.offers.length s2) s

/-! ### Transmission (R221, R224, R226) -/

/-- The outer headers of a target's frame, with a UDP payload (checksum over IPv6 only). -/
def exportHeaders (c : TargetSet) (dst : Nat) (pay : List Byte) : List Byte :=
  let udpLen := pay.length + 8
  let udp (cs : Nat) : List Byte := beBytes 2 c.srcUdp ++ beBytes 2 dst ++ beBytes 2 udpLen ++ beBytes 2 cs ++ pay
  let eth := beBytes 6 c.dstMac ++ beBytes 6 c.srcMac ++ (if c.vlanEn then beBytes 2 0x8100 ++ beBytes 2 (c.pcp % 8 * 8192 + c.vid % 4096) else [])
  if c.ipv6 then
    let pseudo := beBytes 16 c.srcIp ++ beBytes 16 c.dstIp ++ beBytes 4 udpLen ++ beBytes 4 17
    let sum := 65535 - onesSum (pseudo ++ udp 0) 0
    eth ++ beBytes 2 0x86DD ++ beBytes 4 (6 * 2 ^ 28 + c.dscp % 64 * 2 ^ 22) ++ beBytes 2 udpLen ++ beBytes 1 17 ++ beBytes 1 64
      ++ beBytes 16 c.srcIp ++ beBytes 16 c.dstIp ++ udp (if sum = 0 then 65535 else sum)
  else
    let ip := beBytes 1 0x45 ++ beBytes 1 (c.dscp % 64 * 4) ++ beBytes 2 (20 + udpLen) ++ [0, 0] ++ beBytes 2 0x4000 ++ beBytes 1 64 ++ beBytes 1 17 ++ [0, 0]
      ++ beBytes 4 c.srcIp ++ beBytes 4 c.dstIp
    eth ++ beBytes 2 0x0800 ++ fixIpCsum ip 0 20 ++ udp 0

/-- The ICRC of a RoCEv2 frame, from its IP header on (R226): the CRC-32 of Ethernet over eight bytes of ones and the frame with its variant fields taken as ones, least significant byte first. -/
def icrc (c : TargetSet) (net : List Byte) : List Byte :=
  let ip := if c.ipv6 then 40 else 20
  let ones (bs : List Byte) (off n : Nat) : List Byte := patch bs off (List.replicate n 255)
  let masked := if c.ipv6 then
      ones (ones (ones (patch net 0 (beBytes 4 (beAt net 0 4 / 2 ^ 28 * 2 ^ 28 + (2 ^ 28 - 1)))) 7 1) (ip + 6) 2) (ip + 12) 1
    else ones (ones (ones (ones (ones net 1 1) 8 1) 10 2) (ip + 6) 2) (ip + 12) 1
  leBytes 4 (Nat.xor (crcLsb 0xEDB88320 0xFFFFFFFF (List.replicate 8 255 ++ masked)) 0xFFFFFFFF)

/-- The frame of a target as it leaves, without FCS: an IPFIX message, or a UC RDMA WRITE Only (opcode 0x2A), whose ICRC does not depend on the UDP checksum that then covers it.  The IPv4 identification, DF and the TTL or hop limit are not stated and stand as 0, 1 and 64 (log 21). -/
def exportFrame (s : State) (n : Nat) (c : TargetSet) (f : ExpFrame) : List Byte :=
  if c.kind = 1 then
    let bth := beBytes 1 0x2A ++ beBytes 1 0x40 ++ beBytes 2 c.pKey ++ beBytes 4 (c.destQp % 2 ^ 24) ++ beBytes 4 ((reg s .NEXT_SEQ n 0).toNat % 2 ^ 24)
    let reth := beBytes 8 (c.baseVa + f.off) ++ beBytes 4 c.rKey ++ beBytes 4 f.body.length
    let bare := exportHeaders c 4791 (bth ++ reth ++ f.body ++ [0, 0, 0, 0])
    let crc := icrc c ((bare.take (bare.length - 4)).drop (14 + (if c.vlanEn then 4 else 0)))
    exportHeaders c 4791 (bth ++ reth ++ f.body ++ crc)
  else
    let secs := s.clk.tod / 1000000000 - getF s F.TEL_CFG_UTC_OFFSET 0 0
    exportHeaders c c.dstUdp (beBytes 2 10 ++ beBytes 2 (16 + f.body.length) ++ beBytes 4 secs ++ beBytes 4 (reg s .NEXT_SEQ n 0).toNat ++ beBytes 4 c.obsDomain ++ f.body)

/-- Whether a received pause holds a class of a port: in PFC mode its bit, in PAUSE mode any (R51). -/
def classPaused (s : State) (p cls : Nat) : Bool :=
  decide (p < 768) && (if flowMode s p = 2 then bit (getF s F.PORT_STAT_PAUSED_RX (p / 8) (p % 8)) cls
    else flowMode s p == 1 && getF s F.PORT_STAT_PAUSED_RX (p / 8) (p % 8) ≠ 0)

/-- Whether a target has a frame that its port's MAC is to send ahead of data (R221): tokens at EXP_RATE, its class unpaused, and its port up. -/
def exportReady (s : State) (n : Nat) : Bool :=
  let x := target s n
  match x.cfg with
  | some c => x.sending && !x.frames.isEmpty && portIsUp s c.port && !classPaused s c.port c.expClass && decide (x.tokensAt ≤ s.clk.mono * 1000)
  | none => false

/-- Whether an in-band reply has been formed at a port whose class 7 may send (R221, R289). -/
def ibReady (s : State) (port : Nat) : Bool := s.cmd.ibDue.any (fun d => d.1 == port) && !classPaused s port 7

/-- Whether an export frame stands ready at a port. -/
def exportWaits (s : State) (port : Nat) : Bool :=
  ibReady s port || (List.range 16).any fun n => (target s n).cfg.map TargetSet.port == some port && exportReady s n

/-- INBAND_REPLY_TX (R221, R289): the port's oldest formed reply is sent as an export frame of class 7 once the MAC is free, and counted as one; the command that it ends stops being outstanding. -/
def execInbandReplyTx (t port : Nat) (s : State) : Res :=
  need (decide (port < 768)) "port" port <| live t (fun s =>
    match s.cmd.ibDue.find? (fun d => d.1 == port) with
    | none => s
    | some d =>
      if ibReady s port && portIsUp s port && macIdle s port then
        emit (.exportFrame port d.2.1) (addCtr 1 port 10 1 (addCtr 1 port 11 (d.2.1.length + 4)
          (dropOut d.2.2 { s with cmd := { s.cmd with ibDue := s.cmd.ibDue.erase d } })))
      else s) s

/-- EXPORT_FRAME_TX (R50, R221): the next frame of the target's batch is sent, ahead of data and behind MAC control frames, once the MAC is free. -/
def execExportFrameTx (t tgt : Nat) (s : State) : Res :=
  need (decide (tgt < 16)) "target" tgt <| live t (fun s =>
    let x := target s tgt
    match x.cfg, x.frames with
    | some c, f :: rest =>
      if exportReady s tgt && macIdle s c.port then
        let bytes := exportFrame s tgt c f
        let s1 := setTarget tgt { x with frames := rest, tokensAt := max x.tokensAt (s.clk.mono * 1000) + wireBytes c f * 8000 / max 1 c.expRate,
                                         tmplAt := if f.tmpl then some s.clk.mono else x.tmplAt } s
        let s2 := if c.kind = 1 then setReg .NEXT_SEQ tgt 0 (BitVec.ofNat 32 (((reg s1 .NEXT_SEQ tgt 0).toNat + 1) % 2 ^ 24)) s1 else bump .NEXT_SEQ tgt 0 f.recs s1
        emit (.exportFrame c.port bytes) (addCtr 1 c.port 10 1 (addCtr 1 c.port 11 (max 64 (bytes.length + 4)) s2))
      else s
    | _, _ => s) s

/-- BATCH_COMPLETE (R220, R222): the last bit of the batch is on the wire before its deadline; its records are confirmed, and a Portfolio's pointer stands. -/
def execBatchComplete (t tgt : Nat) (s : State) : Res :=
  need (decide (tgt < 16)) "target" tgt <| live t (fun s =>
    let x := target s tgt
    if x.sending && x.frames.isEmpty then
      let s1 := bump .BATCHES tgt 0 1 s |> bump .REC_SENT tgt 0 x.sendRecs.length
      let s2 := x.sendRecs.foldl (fun z r => confirmMeter r z) s1
      let s3 := match x.cfg with
        | some c => if c.kind = 1 then setWide .GPOS tgt (c.gbase + x.nextOff) 2 (setReg .WRAP_COUNT tgt 0 (BitVec.ofNat 32 x.nextWraps) s2) else s2
        | none => s2
      setTarget tgt { x with sendRecs := [], sending := false, batchSeq := x.batchSeq + 1, offset := x.nextOff } s3
    else s) s

/-! ### Targets (R219, Table 9.7) -/

/-- The enabled targets other than one. -/
def otherTargets (s : State) (n : Nat) : List TargetSet :=
  (List.range 16).filterMap fun k => if k ≠ n && targetOn s k then (target s k).cfg else none

/-- Whether two Portfolio regions' global spans overlap. -/
def spansMeet (a b : TargetSet) : Bool := a.kind == 1 && b.kind == 1 && decide (a.gbase < b.gbase + b.size) && decide (b.gbase < a.gbase + a.size)

/-- TEL_TARGET_SET's ranges (Table 9.7), by parameter byte. -/
def targetChecks (s : State) (p : TargetSet) : Chk :=
  let mib := 2 ^ 20
  let v4 (ip : Nat) : Bool := !p.ipv6 && decide (2 ^ 32 ≤ ip)
  let one := p.kind = 1
  if !p.en then firstBad [bad (decide (15 < p.target)) 0]
  else firstBad [bad (decide (15 < p.target)) 0, bad (!one && p.resume) 1, bad (!startsPort s p.port) 2,
    bad (p.expRate = 0 || decide (1600 < p.expRate) || decide (portGbps s p.port < p.expRate)) 4, bad (decide (7 < p.expClass)) 6, bad (decide (63 < p.dscp)) 7,
    bad (v4 p.srcIp) 28, bad (v4 p.dstIp) 44,
    bad (one && p.dstUdp ≠ 0) 56, bad (if one then p.msgMax ≠ 0 else decide (p.msgMax < 512) || decide (9000 < p.msgMax) || decide (maxFrameOut s p.port < outerLen p + p.msgMax + 4)) 58,
    bad (one && p.obsDomain ≠ 0) 60, bad (!one && p.destQp ≠ 0) 64, bad (if one then p.pmtu = 0 || decide (5 < p.pmtu) else p.pmtu ≠ 0) 67, bad (!one && p.pKey ≠ 0) 68,
    bad (!one && p.rKey ≠ 0) 72, bad (!one && p.startPsn ≠ 0) 76, bad (!one && p.baseVa ≠ 0) 80,
    bad (if one then p.size % mib ≠ 0 || decide (p.size < 4 * mib) || decide (2 ^ 48 < p.size) else p.size ≠ 0) 88,
    bad (if one then p.gbase % mib ≠ 0 || decide (2 ^ 52 < p.gbase + p.size) || (otherTargets s p.target).any (spansMeet p) else p.gbase ≠ 0) 96,
    bad (decide (1600 < (otherTargets s p.target).foldl (fun a c => a + c.expRate) p.expRate)) 4]

/-- Disable a target (R219): filling stops and its batch overflows; the batch in transmission runs to its deadline, and with PROGRESS the command replies IN_PROGRESS before its final reply. -/
def disableTarget (h : Hdr) (n : Nat) (s : State) : State :=
  let t := target s n
  let s1 := bump .REC_OVF n 0 t.filling.length s
  let s2 := setF F.TGT_STAT_EN n 0 0 (t.filling.foldl (fun z r => recLost r z) s1)
  if t.sending then
    let s3 := background h (setTarget n { t with filling := [], ending := true, disableCmd := some h } s2)
    match outCmd s3 h.serial with
    | some o => if o.prog then interimReply o s3 else s3
    | none => s3
  else ok h 0x0501 (setTarget n { t with filling := [], cfg := none } s2)

/-- Enable a target (R219, Table 9.7): with RESUME a Portfolio target goes on from the stored pointer, lap and PSN. -/
def enableTarget (h : Hdr) (p : TargetSet) (s : State) : State :=
  let t := target s p.target
  let n := p.target
  let s1 := setF F.TGT_STAT_EN n 0 1 s |> setF F.TGT_STAT_KIND n 0 p.kind |> setF F.TGT_STAT_PORT n 0 p.port
  let keep := p.kind = 1 && p.resume
  let off := if keep then t.offset else 4096
  let s2 := if keep then s1
    else setReg .NEXT_SEQ n 0 (BitVec.ofNat 32 (if p.kind = 1 then p.startPsn % 2 ^ 24 else 0)) (setReg .WRAP_COUNT n 0 0 s1)
  let s3 := setWide .GPOS n (if p.kind = 1 then p.gbase + off else 0) 2 s2
  ok h 0x0501 (setTarget n { cfg := some p, fillStart := s.clk.tod - s.clk.tod % (s.tele.periodUs * 1000), offset := off, batchSeq := t.batchSeq, tokensAt := s.clk.mono * 1000 } s3)

/-- TEL_TARGET_SET (0x0501) with EN = 1 (R219). -/
def execTelTargetSet (h : Hdr) (p : TargetSet) (s : State) : Res :=
  runCmd 0x0501 h (fun s => targetChecks s p) (fun _ => some 5) (fun s =>
    if p.en then
      if targetOn s p.target || (target s p.target).ending then failWith h 0x0501 0x24 0 s else enableTarget h p s
    else if targetOn s p.target then disableTarget h p.target s else ok h 0x0501 s) s

/-- TEL_TARGET_SET with EN = 0 (R219). -/
def execTelTargetDisable (h : Hdr) (target' : Nat) (s : State) : Res :=
  runCmd 0x0501 h (fun _ => firstBad [bad (decide (15 < target')) 0]) (fun _ => some 5) (fun s =>
    if targetOn s target' then disableTarget h target' s else ok h 0x0501 s) s

end Sys2Proof.Machine
end

