-- ==== Sys2Proof/Machine/GlazeClose.lean ====
section
/-! DEFINITION. The close of a Glaze record (R26, R209) and everything that reads it: drop counts (R186), queue and TAC counters (R235, R247), energy (R248), the flow cache (R210 to R213), postcards (R214), samples and traces (R238 to R241). -/

namespace Sys2Proof.Machine

/-- The FCS of a frame: the CRC-32 of Ethernet. -/
def fcsOf (f : List Byte) : List Byte := leBytes 4 (Nat.xor (crcLsb 0xEDB88320 0xFFFFFFFF f) 0xFFFFFFFF)

/-- A closed record with the packet it describes. -/
structure Closing where
  g : Glaze
  p : Pkt
  /-- the cluster of Table 9.2 -/
  cluster : Nat
  /-- IMG_KEY of the PHV it is taken from (R210): ingress at points 1 and 2, egress at 0, 4 and 5; zero at point 3, which has none -/
  key : Nat
  egStamps : List Nat := []
  /-- a refused target of a multicast packet that had another target admitted (Table 10.7) -/
  refusedAlong : Bool := false

/-! ### Counters and energy -/

/-- The queue counters of Table 10.3. -/
def countQueue (g : Glaze) (s : State) : State :=
  if g.queue = 0xFFFF && !g.cpu then s
  else
    let fam := if g.cpu then 4 else 2
    if g.closeAt = 0 then addCtr fam g.queue 0 1 (addCtr fam g.queue 1 g.outLen s)
    else if 2 ≤ g.closeAt then addCtr fam g.queue 2 1 (addCtr fam g.queue 3 g.pktLen s)
    else s

/-- The outgoing TAC counters of Table 10.7. -/
def countTac (x : Closing) (s : State) : State :=
  let g := x.g
  if g.closeAt = 0 then addCtr 3 g.tac 3 g.outLen (addCtr 3 g.tac 4 1 s)
  else if 3 ≤ g.closeAt || x.refusedAlong then addCtr 3 g.tac 5 1 s
  else s

/-- The path class of a closed record (Table 10.8). -/
def pathClass (g : Glaze) : Nat :=
  match g.closeAt with
  | 0 => if g.cpu then 3 else if g.mcast then 2 else if g.ct then 1 else 0
  | 1 => 4
  | 2 => 5
  | _ => 6

/-- Energy in fJ added to a TAC; whole µJ show in ENERGY_UJ (R248). -/
def addEnergy (tac fj : Nat) (s : State) : State :=
  let e := tgetD s.tele.energyFrac tac 0 + fj
  addCtr 3 tac 6 (e / 1000000000) { s with tele := { s.tele with energyFrac := tset s.tele.energyFrac tac (e % 1000000000) } }

/-- The energy of a closed record (R27, R248). -/
def chargeEnergy (g : Glaze) (s : State) : State :=
  let c := pathClass g
  addEnergy g.tac ((reg s .PKT_COEF c 0).toNat + (reg s .BYTE_COEF c 0).toNat * (if g.closeAt = 0 then g.outLen else g.pktLen)) s

/-! ### The flow cache -/

/-- The 44-byte flow key (R210). -/
def flowKey (tac port key : Nat) : List Byte := beBytes 2 tac ++ beBytes 2 port ++ beBytes 40 key

/-- The set of a flow key (R211). -/
def flowSet (tac port key : Nat) : Nat := crcMsb 32 0x1EDC6F41 0xFFFFFFFF (flowKey tac port key) % 32768

/-- A flow record (template 256). -/
def flowRecord (cluster reason : Nat) (e : FlowEnt) : ExpRec :=
  { template := 256
    bytes := beBytes 2 e.tac ++ beBytes 4 e.port ++ beBytes 4 e.lastEgress ++ beBytes 40 e.imgKey ++ beBytes 8 e.octets ++ beBytes 8 e.pkts
      ++ beBytes 8 e.dropOctets ++ beBytes 8 e.dropPkts ++ beBytes 8 e.ecnPkts ++ beBytes 4 e.latMin ++ beBytes 4 e.latMax ++ beBytes 8 e.latSum
      ++ beBytes 8 (e.firstTs.getD 0) ++ beBytes 8 e.lastTs ++ beBytes 1 reason ++ beBytes 1 e.lastDrop ++ beBytes 1 (cluster + b2n e.partialKey * 8) }

/-- The flow cache of a cluster, with FLOW_ACTIVE. -/
def setFlows (cluster : Nat) (l : List FlowEnt) (s : State) : State :=
  setF F.FLOW_ACTIVE_FLOW_ACTIVE cluster 0 l.length { s with tele := { s.tele with flows := tset s.tele.flows cluster l } }

/-- One flush (R212): a flow record for the FLOW class, counted. -/
def flushFlow (cluster reason : Nat) (e : FlowEnt) (s : State) : State :=
  offerRecord 0 (flowRecord cluster reason e) (bump .FLOW_EXPORTED cluster 0 1 s)

/-- An entry after a record (R211). -/
def flowUpdate (now : Nat) (g : Glaze) (e : FlowEnt) : FlowEnt :=
  let e1 := if g.closeAt = 0 then
      { e with pkts := e.pkts + 1, octets := e.octets + g.outLen, latMin := min e.latMin g.latency, latMax := max e.latMax g.latency,
               latSum := e.latSum + g.latency, lastEgress := g.egressPort }
    else { e with dropPkts := e.dropPkts + 1, dropOctets := e.dropOctets + g.pktLen, lastDrop := g.drop }
  { e1 with ecnPkts := e1.ecnPkts + b2n g.ecn, firstTs := some (e1.firstTs.getD g.closeTs), lastTs := g.closeTs,
            firstMono := some (e1.firstMono.getD now), lastMono := now }

/-- A record enters its cluster's flow cache (R210, R211): KEY_PARTIAL of an entry says that a record closed at point 3 is in it (log 82); the equal key, else a free way, else the way with the oldest LAST_TS is evicted. -/
def cacheFlow (x : Closing) (key : Nat) (partialKey : Bool) (s : State) : State :=
  let l := tgetD s.tele.flows x.cluster []
  let same (e : FlowEnt) : Bool := e.tac == x.g.tac && e.port == x.g.ingressPort && e.imgKey == key
  if l.any same then setFlows x.cluster (l.map (fun e => if same e then flowUpdate s.clk.mono x.g { e with partialKey := e.partialKey || partialKey } else e)) s
  else
    let st := flowSet x.g.tac x.g.ingressPort key
    let new := flowUpdate s.clk.mono x.g { set := st, tac := x.g.tac, port := x.g.ingressPort, imgKey := key, partialKey := partialKey }
    let peers := l.filter (fun e => e.set == st)
    if peers.length < 8 then setFlows x.cluster (l ++ [new]) s
    else match leastBy FlowEnt.lastTs peers with
      | none => s
      | some old =>
        let s1 := flushFlow x.cluster 5 old (raise Ev.TEL_FLOW_PRESSURE x.cluster 0 (bump .FLOW_EVICT x.cluster 0 1 s))
        setFlows x.cluster (l.filter (· ≠ old) ++ [new]) s1

/-! ### Postcards -/

/-- The triggers that fire for a record (Table 9.4). -/
def triggers (s : State) (g : Glaze) : Nat :=
  b2n (flag s F.PC_CFG_DROP_EN 0 0 && g.drop ≠ 0 && bit (reg s .PC_DROP_MASK (g.drop / 32) 0).toNat (g.drop % 32))
    + 2 * b2n (flag s F.PC_CFG_LAT_EN 0 0 && decide ((reg s .PC_LAT 0 0).toNat < g.latency))
    + 4 * b2n (flag s F.PC_CFG_ECN_EN 0 0 && g.ecn)
    + 8 * b2n (flag s F.PC_CFG_PFC_EN 0 0 && g.paused)
    + 16 * b2n (flag s F.PC_CFG_SEL_EN 0 0 && bit (reg s .PC_TAC_SEL (g.tac / 32) 0).toNat (g.tac % 32))

/-- Record bits [48:35] of Table 9.1. -/
def recFlags (g : Glaze) : Nat :=
  g.closeAt * 2048 + b2n g.ecn * 1024 + b2n g.ct * 512 + b2n g.paused * 256 + b2n g.mcast * 128 + b2n g.cpu * 64 + b2n g.sample * 32
    + b2n g.trace.isSome * 16 + g.trace.getD 0 % 16

/-- A postcard (template 257). -/
def postcard (g : Glaze) (key trig : Nat) : ExpRec :=
  { template := 257
    bytes := beBytes 2 g.tac ++ beBytes 4 g.ingressPort ++ beBytes 4 g.egressPort ++ beBytes 40 key ++ beBytes 8 g.ingressTs ++ beBytes 8 g.closeTs
      ++ beBytes 4 g.latency ++ beBytes 2 g.queue ++ beBytes 4 g.qdepth ++ beBytes 1 g.epoch ++ beBytes 1 g.drop ++ beBytes 2 g.pktLen
      ++ beBytes 2 g.outLen ++ beBytes 2 (recFlags g) ++ beBytes 1 trig }

/-- A record's postcard under the cluster's rate (R214): PC_RATE × 1,000 a second with a burst of 4,096, kept in millionths. -/
def postcards (x : Closing) (key : Nat) (s : State) : State :=
  let trig := triggers s x.g
  if trig = 0 then s
  else
    let old := tgetD s.tele.pcTokens x.cluster (4096000000, s.clk.mono)
    let tok := min 4096000000 (old.1 + (s.clk.mono - old.2) * getF s F.PC_CFG_PC_RATE 0 0)
    if 1000000 ≤ tok then
      let s1 := { s with tele := { s.tele with pcTokens := tset s.tele.pcTokens x.cluster (tok - 1000000, s.clk.mono) } }
      offerRecord 1 (postcard x.g key trig) (bump .PC_SENT x.cluster 0 1 s1)
    else
      let s1 := { s with tele := { s.tele with pcTokens := tset s.tele.pcTokens x.cluster (tok, s.clk.mono) } }
      raise Ev.TEL_PC_LIMITED x.cluster 0 (bump .PC_LIMITED x.cluster 0 1 s1)

/-! ### Samples and traces -/

/-- A record joins its cluster's device ring, or is discarded where 8,192 wait (R239). -/
def pushSample (cluster : Nat) (bytes : List Byte) (s : State) : State :=
  let l := tgetD s.tele.devRing cluster []
  if 8192 ≤ l.length then raise Ev.CNT_SMP_DROP cluster 0 (bump .SMP_DROP cluster 0 1 s)
  else setF F.DEV_LEVEL_DEV_LEVEL cluster 0 (l.length + 1) { s with tele := { s.tele with devRing := tset s.tele.devRing cluster (l ++ [⟨bytes⟩]) } }

/-- The head of a sample or trace record, bytes 0 to 63 (Table 10.4). -/
def sampleHead (x : Closing) (typ slot seq cap : Nat) : List Byte :=
  let g := x.g
  leBytes 1 typ ++ leBytes 1 (g.closeAt + 8 * b2n g.ecn + 16 * b2n g.ct + 32 * b2n g.paused + 64 * b2n g.mcast + 128 * b2n g.cpu)
    ++ leBytes 2 g.tac ++ leBytes 2 g.ingressPort ++ leBytes 2 g.egressPort ++ leBytes 2 g.queue ++ leBytes 1 (g.epoch + 16 * slot) ++ leBytes 1 g.drop
    ++ leBytes 2 g.pktLen ++ leBytes 2 g.outLen ++ leBytes 4 g.qdepth ++ leBytes 4 g.latency ++ leBytes 8 g.ingressTs ++ leBytes 8 g.closeTs
    ++ leBytes 4 seq ++ leBytes 1 cap ++ leBytes 1 x.cluster ++ zeros 18

/-- The sample and trace records of a closed record (R238, R241). -/
def samples (x : Closing) (s : State) : State :=
  let cap := min 128 x.g.pktLen
  let s1 := if x.g.sample then
      let bytes := (x.p.frame ++ fcsOf x.p.frame).take cap
      pushSample x.cluster (sampleHead x 1 0 x.p.smpCount cap ++ bytes ++ zeros (192 - bytes.length)) s
    else s
  match x.g.trace with
  | none => s1
  | some slot =>
    let pad (n : Nat) (l : List Nat) : List Nat := (l ++ List.replicate n 0xFFFFFFFF).take n
    let stamps := pad 16 x.p.stamps ++ pad 8 x.egStamps
    pushSample x.cluster (sampleHead x 2 slot x.p.traceCount 0 ++ stamps.flatMap (leBytes 4) ++ zeros 96) s1

/-! ### The close -/

/-- Close a record, once for each copy (R26): everything that reads it does so here. -/
def closeRecord (x : Closing) (s : State) : State :=
  let s1 := if x.g.drop = 0 then s else bump .PAL_DROP_CNT (x.g.drop % 256) 0 1 s
  let s2 := samples x (chargeEnergy x.g (countTac x (countQueue x.g s1)))
  let key := if x.g.closeAt = 3 then 0 else x.key
  postcards x key (cacheFlow x key (x.g.closeAt == 3) s2)

/-- The saturating 32-bit latency of a copy whose CLOSE_TS is taken now (R209), from the monotonic count where the packet spans a step of TOD (R404). -/
def latency32 (s : State) (close : Nat) (p : Pkt) : Nat :=
  let spans := match s.clk.stepAt with
    | some m => decide (p.tsMono ≤ m)
    | none => false
  min 0xFFFFFFFF (if spans then s.clk.mono - p.tsMono else close - p.ts)

/-- A record of a packet that has no copy: closed in the ingress pipeline (point 1) or refused before any queue was known. -/
def packetGlaze (s : State) (p : Pkt) (closeAt drop : Nat) : Glaze :=
  { ingressTs := p.ts, closeTs := s.clk.tod, latency := 0, tac := p.dec.tac, ingressPort := p.src, egressPort := 1023, queue := 0xFFFF, qdepth := 0,
    epoch := p.epoch, drop := drop, pktLen := p.len, outLen := 0, closeAt := closeAt, ecn := false, ct := false, paused := false, mcast := false,
    cpu := false, sample := p.sample, trace := p.trace }

/-- A copy's record closed without transmission, at points 3 to 5. -/
def copyGlaze (s : State) (p : Pkt) (c : Copy) (closeAt drop : Nat) : Glaze :=
  { packetGlaze s p closeAt drop with
    egressPort := c.port, queue := c.node.ix, qdepth := c.qdepth, ecn := c.ecn, ct := c.ct, paused := c.paused, mcast := c.mcast, cpu := c.node.kind == 3 }

end Sys2Proof.Machine
end

