-- ==== Sys2Proof/Machine/Ioam.lean ====
section
/-! DEFINITION. IOAM at Glaze completion (R215 to R218): encapsulation, transit and decapsulation of the pre-allocated trace option in an IPv6 hop-by-hop header. -/

namespace Sys2Proof.Machine

/-- NodeLen in words of a 24-bit trace type whose bit 0 is the most significant (Table 9.6). -/
def nodeLen (tt : Nat) : Nat :=
  countIx 12 (fun k => (decide (k ≤ 7) || k == 11) && bit tt (23 - k)) + 2 * countIx 11 (fun k => decide (8 ≤ k) && bit tt (23 - k))

/-- A trace option in the outermost hop-by-hop header of a frame. -/
structure IoamOpt where
  ip : IpHdr
  /-- place of the trace header (its namespace) -/
  place : Nat
  /-- end of the hop-by-hop header -/
  stop : Nat

/-- The option that a copy carries (R215): HDR_VALID bit 17 is set, and behind the headers that the program has put before the packet's own stands a hop-by-hop header with a pre-allocated trace option of the device's namespace.  Places are counted from there. -/
def ioamOf (s : State) (img : TxImage) (body : List Byte) (c : ParseCfg) : Option IoamOpt :=
  let f := body.drop img.front
  let h := (parseFixed f c false {}).h
  match (if bit img.valid 17 then h.ip else none), h.ioam with
  | some ip, some o =>
    let stop := ip.off + 40 + (beAt f (ip.off + 41) 1 + 1) * 8
    if ip.ver = 6 ∧ beAt f (ip.off + 6) 1 = 0 ∧ ip.off + 42 ≤ o ∧ o < stop ∧ beAt f (o - 1) 1 = 0 ∧ beAt f o 2 = getF s F.IOAM_CFG2_NAMESPACE 0 0
    then some ⟨ip, o, stop⟩ else none
  | _, _ => none

/-- This node's data for a trace type (Table 9.6). -/
def nodeData (s : State) (p : Pkt) (k : Copy) (hop tt : Nat) : List Byte :=
  let transit := s.clk.tod - p.ts
  let one (b : Nat) : List Byte :=
    match b with
    | 0 => beBytes 1 hop ++ beBytes 3 (getF s F.IOAM_CFG0_NODE_ID 0 0)
    | 1 => beBytes 2 p.src ++ beBytes 2 k.port
    | 2 => beBytes 4 (p.ts / 1000000000)
    | 3 => beBytes 4 (p.ts % 1000000000)
    | 4 => beBytes 4 (if transit ≤ 0x7FFFFFFF then transit else 0xFFFFFFFF)
    | 6 => beBytes 4 k.qdepth
    | 8 | 9 | 10 => beBytes 8 0xFFFFFFFFFFFFFFFF
    | _ => beBytes 4 0xFFFFFFFF
  (List.range 12).flatMap fun b => if bit tt (23 - b) then one b else []

/-- Count an encapsulation or fill that was skipped. -/
def ioamSkip (cluster : Nat) (s : State) : State := raise Ev.TEL_IOAM_SKIP cluster 0 (bump .IOAM_SKIP cluster 0 1 s)

/-- A node writes its data into an option (R217); none where the trace type has a bit of 12 to 23. -/
def ioamFill (s : State) (p : Pkt) (k : Copy) (f : List Byte) (ipOff o : Nat) : Option (List Byte) :=
  let tt := beAt f (o + 4) 3
  let w := beAt f (o + 2) 2
  let n := nodeLen tt
  let left := bits w 0 7
  if tt % 4096 ≠ 0 then none
  else if left < n then some (patch f (o + 2) (beBytes 2 (putBits w 10 1 1)))
  else some (patch (patch f (o + 2) (beBytes 2 (putBits w 0 7 (left - n)))) (o + 8 + 4 * (left - n)) (nodeData s p k (beAt f (ipOff + 7) 1) tt))

/-- The frame with a hop-by-hop header inserted after its outermost IPv6 header (R216, R218). -/
def ioamInsert (s : State) (c : ParseCfg) (f : List Byte) (ip : IpHdr) : List Byte :=
  let tt := getF s F.IOAM_CFG1_TRACE_TYPE 0 0
  let n := nodeLen tt
  let words := getF s F.IOAM_CFG0_HOPS 0 0 * n
  let pad := (8 - (14 + 4 * words) % 8) % 8
  let padN := if pad = 0 then [] else if pad = 1 then [0] else beBytes 1 1 ++ beBytes 1 (pad - 2) ++ zeros (pad - 2)
  let hbh := slice f (ip.off + 6) 1 ++ beBytes 1 ((14 + 4 * words + pad) / 8 - 1) ++ beBytes 1 (bits c.c2 0 8) ++ beBytes 1 (10 + 4 * words) ++ zeros 2
    ++ beBytes 2 (getF s F.IOAM_CFG2_NAMESPACE 0 0) ++ beBytes 2 (n * 2048 + words) ++ beBytes 3 tt ++ zeros 1 ++ zeros (4 * words) ++ padN
  let g := patch (patch f (ip.off + 6) [0]) (ip.off + 4) (beBytes 2 (beAt f (ip.off + 4) 2 + hbh.length))
  g.take (ip.off + 40) ++ hbh ++ g.drop (ip.off + 40)

/-- Whether the options of a hop-by-hop header are padding but for the one at a place. -/
def onlyPadding (f : List Byte) (keep stop : Nat) : Nat → Nat → Bool
  | 0, _ => true
  | n + 1, o =>
    if stop ≤ o then true
    else if beAt f o 1 = 0 then onlyPadding f keep stop n (o + 1)
    else (o == keep || beAt f o 1 == 1) && onlyPadding f keep stop n (o + 2 + beAt f (o + 1) 1)

/-- The frame without the option (Table 9.5): the hop-by-hop header removed where it holds nothing else but padding, otherwise the option overwritten with PadN. -/
def ioamRemove (f : List Byte) (x : IoamOpt) : List Byte :=
  let o := x.place - 4
  if onlyPadding f o x.stop (x.stop - x.ip.off) (x.ip.off + 42) then
    let n := x.stop - (x.ip.off + 40)
    let g := patch (patch f (x.ip.off + 6) (slice f (x.ip.off + 40) 1)) (x.ip.off + 4) (beBytes 2 (beAt f (x.ip.off + 4) 2 - n))
    g.take (x.ip.off + 40) ++ g.drop x.stop
  else patch f o ([1] ++ slice f (o + 1) 1 ++ zeros (beAt f (o + 1) 1))

/-- An IOAM trace record (template 258): the node data written so far, with IPFIX's length octet or octets. -/
def ioamRecord (key : Nat) (p : Pkt) (f : List Byte) (o : Nat) : ExpRec :=
  let w := beAt f (o + 2) 2
  let len := beAt f (o - 3) 1 - 10
  let data := slice f (o + 8 + 4 * bits w 0 7) (len - 4 * bits w 0 7)
  { template := 258
    bytes := beBytes 2 p.dec.tac ++ beBytes 4 p.src ++ beBytes 40 key ++ slice f o 2 ++ slice f (o + 4) 4
      ++ beBytes 1 (bits w 10 1) ++ (if data.length < 255 then beBytes 1 data.length else beBytes 1 255 ++ beBytes 2 data.length) ++ data }

/-- IOAM_ACTION (R215, Table 9.5) on a copy's frame as rewrite leaves it; a copy for the CPU port or a Stretcher port is left as it stands. -/
def ioamAction (p : Pkt) (k : Copy) (cluster : Nat) (f : List Byte) (s : State) : List Byte × State :=
  if 768 ≤ k.port then (f, s)
  else
    let c := cfgOfEpoch s p.epoch
    let outDom := flag s F.IOAM_PORT_DOMAIN k.port 0
    let front := f.take k.img.front
    let own := f.drop k.img.front
    match ioamOf s k.img f c with
    | some x =>
      if !outDom then (front ++ ioamRemove own x, offerRecord 2 (ioamRecord k.img.key p own x.place) (bump .IOAM_DECAP cluster 0 1 s))
      else if flag s F.IOAM_PORT_DOMAIN p.src 0 then
        match ioamFill s p k own x.ip.off x.place with
        | some g => (front ++ g, bump .IOAM_FILL cluster 0 1 s)
        | none => (f, ioamSkip cluster s)
      else (f, s)
    | none =>
      if flag s F.IOAM_PORT_ENC p.src 0 && outDom then
        let h := (parseFixed f c false {}).h
        match h.ip with
        | some ip =>
          let g := ioamInsert s c f ip
          if ip.ver = 6 ∧ !h.extHdr ∧ g.length + 4 ≤ maxFrameOut s k.port then
            ((ioamFill s p k g ip.off (ip.off + 46)).getD g, bump .IOAM_INSERT cluster 0 1 s)
          else (f, ioamSkip cluster s)
        | none => (f, ioamSkip cluster s)
      else (f, s)

end Sys2Proof.Machine
end

