-- ==== Sys2Proof/Machine/Nodes.lean ====
section
/-! DEFINITION. Scheduling nodes (R188 to R201): their registers, attachment, class pause, shapers and the timing wheel, eligibility and the active lists; and the pause rows of R51, which change eligibility. -/

namespace Sys2Proof.Machine

/-! ### Node registers (Table 8.6) -/

/-- SCH_NODE0 of a kind. -/
def nodeReg0 (kind : Nat) : RegName := if kind = 0 then .SCH_NODE0_Q else if kind = 1 then .SCH_NODE0_S else if kind = 2 then .SCH_NODE0_P else .SCH_NODE0_C
/-- SCH_NODE1 of a kind. -/
def nodeReg1 (kind : Nat) : RegName := if kind = 0 then .SCH_NODE1_Q else if kind = 1 then .SCH_NODE1_S else if kind = 2 then .SCH_NODE1_P else .SCH_NODE1_C
/-- SHP_RATE of a kind. -/
def rateReg (kind : Nat) : RegName := if kind = 0 then .SHP_RATE_Q else if kind = 1 then .SHP_RATE_S else if kind = 2 then .SHP_RATE_P else .SHP_RATE_C
/-- SHP_BURST of a kind. -/
def burstReg (kind : Nat) : RegName := if kind = 0 then .SHP_BURST_Q else if kind = 1 then .SHP_BURST_S else if kind = 2 then .SHP_BURST_P else .SHP_BURST_C

/-- How many nodes of a kind there are (Table 8.1). -/
def nodeCount (kind : Nat) : Nat := if kind = 0 then 65536 else if kind = 1 then 8192 else if kind = 2 then 773 else if kind = 3 then 48 else 0

/-- ATTACHED. -/
def attached (s : State) (n : Node) : Bool := flag s ⟨nodeReg0 n.kind, 31, 1⟩ n.ix 0
/-- DETACH_PEND. -/
def detachPend (s : State) (n : Node) : Bool := flag s ⟨nodeReg0 n.kind, 30, 1⟩ n.ix 0
/-- BAND. -/
def nodeBand (s : State) (n : Node) : Nat := getF s ⟨nodeReg0 n.kind, 28, 2⟩ n.ix 0
/-- WEIGHT. -/
def nodeWeight (s : State) (n : Node) : Nat := getF s ⟨nodeReg0 n.kind, 16, 12⟩ n.ix 0
/-- PARENT of a queue: its service node. -/
def serviceOf (s : State) (q : Node) : Node := ⟨1, getF s ⟨nodeReg0 q.kind, 0, 13⟩ q.ix 0⟩
/-- The port node a service node stands under, attached or not (R189). -/
def portOfService (s : State) (ix : Nat) : Nat := getF s F.SCH_NODE0_S_PARENT ix 0 % 1024
/-- The port node reached from a queue (R188). -/
def portOfQueue (s : State) (q : Node) : Nat := portOfService s (serviceOf s q).ix
/-- LEN_ADJ of a queue. -/
def nodeAdj (s : State) (n : Node) : Int := signed 8 (getF s ⟨nodeReg1 n.kind, 16, 8⟩ n.ix 0)
/-- CLASS of a subscriber queue. -/
def nodeClass (s : State) (n : Node) : Nat := getF s ⟨nodeReg1 n.kind, 8, 3⟩ n.ix 0
/-- SHAPE_EN. -/
def shapeEn (s : State) (n : Node) : Bool := flag s ⟨rateReg n.kind, 31, 1⟩ n.ix 0
/-- RATE. -/
def nodeRate (s : State) (n : Node) : Nat := getF s ⟨rateReg n.kind, 0, 25⟩ n.ix 0
/-- BURST. -/
def nodeBurst (s : State) (n : Node) : Nat := getF s ⟨burstReg n.kind, 0, 16⟩ n.ix 0

/-- Whether a queue is attached to the hierarchy for step 2 of Table 7.8 (R189). -/
def inHierarchy (s : State) (q : Node) : Bool := attached s q && !detachPend s q && attached s (serviceOf s q)

/-- What a node holds beside its registers. -/
def nodeRt (s : State) (n : Node) : NodeRt := tgetD s.sched.nodes n {}
/-- Set it. -/
def setNodeRt (n : Node) (r : NodeRt) (s : State) : State := { s with sched := { s.sched with nodes := tset s.sched.nodes n r } }

/-- The copies of a queue, head first. -/
def queueOf (s : State) (q : Node) : List Nat := tgetD s.sched.queues q []
/-- Set them. -/
def setQueue (q : Node) (l : List Nat) (s : State) : State := { s with sched := { s.sched with queues := tset s.sched.queues q l } }

/-- Whether a port node is down (R45, R188, R322); port node 772 never is. -/
def nodeDown (s : State) (port : Nat) : Bool := if port < 768 then !portIsUp s port else if port < 772 then stlIsDown s (port - 768) else false

/-- Whether a class of a front port is paused by the link partner (R192). -/
def portClassPaused (s : State) (port c : Nat) : Bool :=
  decide (port < 768) && (flowMode s port == 2 || flowMode s port == 1) && bit (getF s F.PORT_STAT_PAUSED_RX (port / 8) (port % 8)) c

/-- Whether a queue's class is paused (R192). -/
def queuePaused (s : State) (q : Node) : Bool := q.kind == 0 && portClassPaused s (portOfQueue s q) (nodeClass s q)

/-! ### Packets and copies -/

/-- A packet of the Palette. -/
def pktOf (s : State) (id : Nat) : Option Pkt := s.pal.pkts.find? (fun p => p.id == id)
/-- Replace it. -/
def setPkt (p : Pkt) (s : State) : State := { s with pal := { s.pal with pkts := s.pal.pkts.map (fun q => if q.id = p.id then p else q) } }
/-- A copy. -/
def copyOf (s : State) (id : Nat) : Option Copy := s.pal.copies.find? (fun c => c.id == id)
/-- Replace it. -/
def setCopy (c : Copy) (s : State) : State := { s with pal := { s.pal with copies := s.pal.copies.map (fun q => if q.id = c.id then c else q) } }

/-- PKT_LEN of a copy. -/
def copyLen (s : State) (id : Nat) : Nat := match copyOf s id with
  | some c => match pktOf s c.pkt with
    | some p => p.len
    | none => 0
  | none => 0

/-! ### Shapers and the wheel (R198 to R201) -/

/-- A node's tokens after a refresh at the present instant (R198). -/
def tokensNow (s : State) (n : Node) : Int :=
  let r := nodeRt s n
  if shapeEn s n then refill r.tokens (nodeRate s n) (nodeBurst s n) (s.clk.mono - r.last) else r.tokens

/-- Refresh a node. -/
def refreshNode (n : Node) (s : State) : State := setNodeRt n { nodeRt s n with tokens := tokensNow s n, last := s.clk.mono } s

/-- Set the wheel, with WHEEL_ENTRIES. -/
def setWheel (l : List WheelEnt) (s : State) : State := setF F.SCH_STAT_WHEEL_ENTRIES 0 0 l.length { s with sched := { s.sched with wheel := l } }

/-- Whether a node is on the wheel (SHAPE_WAIT). -/
def onWheel (s : State) (n : Node) : Bool := s.sched.wheel.any (fun w => w.node == n)

/-- The first slot boundary (a multiple of 4 ns) strictly after the instant at which tokens of −`debt` / 1024 bytes reach zero at a rate (R200). -/
def wheelDue (now debt rate : Nat) : Nat :=
  let d := rate * 8192000
  4 * ((now * d + debt * 1000000000) / (4 * d) + 1)

/-- Enter a node on the wheel (R200): a time beyond the coarse span is parked in the last coarse slot. -/
def enterWheel (n : Node) (s : State) : State :=
  let now := s.clk.mono
  let due := wheelDue now (- (nodeRt s n).tokens).toNat (nodeRate s n)
  let rest := s.sched.wheel.filter (fun w => w.node ≠ n)
  if due / 16384 < now / 16384 + 4096 then setWheel (rest ++ [⟨n, due, false⟩]) s
  else setWheel (rest ++ [⟨n, (now / 16384 + 4095) * 16384, true⟩]) (bump .SCH_PARK_CNT 0 0 1 s)

/-- Charge a selection to a node's shaper; tokens at or below zero put it on the wheel (R195, R198, R200). -/
def chargeNode (n : Node) (len : Nat) (s : State) : State :=
  if !shapeEn s n then s
  else
    let s1 := refreshNode n s
    let s2 := setNodeRt n { nodeRt s1 n with tokens := (nodeRt s1 n).tokens - ((len * 1024 : Nat) : Int) } s1
    if (nodeRt s2 n).tokens ≤ 0 then enterWheel n s2 else s2

/-- Whether a node's tokens are above zero at the present instant, by less than the 1/1,024 byte that a refresh keeps as well: at the slot boundary after its tokens reach zero a slow shaper's node is eligible (R198, R200). -/
def tokensAbove (s : State) (n : Node) : Bool :=
  let r := nodeRt s n
  decide (0 < r.tokens * 1000000000 + ((nodeRate s n * 8192000 * (s.clk.mono - r.last) : Nat) : Int))

/-- Whether a node's shaper lets it pass: disabled, or off the wheel with tokens above zero (R191, R200). -/
def shaperOpen (s : State) (n : Node) : Bool := !shapeEn s n || (!onWheel s n && tokensAbove s n)

/-! ### Eligibility (R191, R196) -/

/-- Receive descriptors posted and neither completed nor reserved (R268). -/
def freeDescs (s : State) (r : Nat) : Nat :=
  let size := 2 ^ getF s F.PKT_RING_CFG_SIZE_LOG2 r 0
  (getF s F.RING_TAIL_TAIL r 0 + size - getF s F.RING_HEAD_HEAD r 0) % size - ((tgetD s.host.pkt r {}).reserved.map (·.2)).sum

/-- Descriptors that a copy needs on its ring: its transmitted length less the FCS over the ring's buffer size (R268). -/
def descsFor (s : State) (r : Nat) (c : Copy) : Nat :=
  match pktOf s c.pkt with
  | none => 1
  | some p => cdiv (runEgress p c (egressPipe s hostSrc) s).img.bytes.length (1024 * getF s F.PKT_RING_CFG_BUF_KB r 0)

/-- The receive ring of a CPU queue. -/
def ringOf (s : State) (q : Nat) : Nat := getF s F.CPU_QMAP_RING q 0

/-- Whether a CPU queue's ring has descriptors for a copy (R268). -/
def ringReady (s : State) (q : Nat) (c : Copy) : Bool :=
  flag s F.PKT_RING_CFG_EN (ringOf s q) 0 && !flag s F.PKT_RING_CFG_RESET (ringOf s q) 0 && decide (descsFor s (ringOf s q) c ≤ freeDescs s (ringOf s q))

/-- Whether a queue is eligible (R191); while its port is down, neither shaper nor pause holds it (R196). -/
def queueEligible (s : State) (q : Node) : Bool :=
  match queueOf s q with
  | [] => false
  | id :: _ =>
    attached s q &&
      (nodeDown s (portOfQueue s q) ||
        (!queuePaused s q && shaperOpen s q && (q.kind ≠ 3 || (match copyOf s id with
          | some c => ringReady s q.ix c
          | none => false))))

/-- Queues that hold copies and stand under a service node. -/
def kidsOf (s : State) (svc : Nat) : List Node :=
  sortBy (fun n => n.kind * 65536 + n.ix) (((s.sched.queues.filter (fun x => !x.2.isEmpty)).map (·.1)).filter (fun q => (serviceOf s q).ix == svc))

/-- Whether a service node is eligible. -/
def serviceEligible (s : State) (svc : Nat) : Bool :=
  attached s ⟨1, svc⟩ && (nodeDown s (portOfService s svc) || shaperOpen s ⟨1, svc⟩) && (kidsOf s svc).any (queueEligible s)

/-- Service nodes under a port node with a queue that holds copies. -/
def servicesOf (s : State) (port : Nat) : List Nat :=
  let all := ((s.sched.queues.filter (fun x => !x.2.isEmpty)).map (fun x => (serviceOf s x.1).ix)).eraseDups
  sortBy id (all.filter (fun v => portOfService s v == port))

/-- Whether a node stands between two bands: it has left the old band's list and joins the new one's at its parent's next decision (Table 8.4). -/
def betweenBands (s : State) (n : Node) : Bool := match (nodeRt s n).moves with
  | (p, b) :: _ => p == getF s ⟨nodeReg0 n.kind, 0, 13⟩ n.ix 0 && b ≠ nodeBand s n
  | [] => false

/-- Bring a parent's active lists in line (R191, R194): a child no longer eligible leaves and loses its DEFICIT; an eligible one not listed joins its band's tail with FRESH. -/
def syncNode (parent : Node) (elig : List Node) (s : State) : State :=
  let r := nodeRt s parent
  let old := r.active.flatten
  let leave := old.filter (fun n => !elig.contains n)
  let join := elig.filter (fun n => !old.contains n && !betweenBands s n)
  let s1 := (leave ++ join).foldl (fun z n => setNodeRt n { nodeRt z n with deficit := 0, fresh := true } z) s
  let lists := (List.range 4).map fun b => ((r.active[b]?).getD []).filter (fun n => elig.contains n) ++ join.filter (fun n => nodeBand s n == b)
  if leave.isEmpty && join.isEmpty then s else setNodeRt parent { nodeRt s1 parent with active := lists } s1

/-- A CPU queue's hold account (R269): the head copy accumulates the time during which its ring is not ready for it; another head copy starts from zero. -/
def syncHoldOf (q : Nat) (s : State) : State :=
  let set (h : Tab Nat (Nat × Nat × Option Nat)) : State := { s with host := { s.host with hold := h } }
  match queueOf s ⟨3, q⟩ with
  | [] => set (terase s.host.hold q)
  | id :: _ =>
    let old : Nat × Option Nat := match tget s.host.hold q with
      | some (c, n, f) => if c = id then (n, f) else (0, none)
      | none => (0, none)
    let ready := match copyOf s id with
      | some c => ringReady s q c
      | none => false
    if ready then set (tset s.host.hold q (id, old.1 + (s.clk.mono - old.2.getD s.clk.mono), none))
    else set (tset s.host.hold q (id, old.1, some (old.2.getD s.clk.mono)))

/-- Every CPU queue's hold account. -/
def syncHold (s : State) : State :=
  (s.sched.queues.filter (fun x => x.1.kind == 3)).foldl (fun z x => syncHoldOf x.1.ix z) s

/-- Service nodes under a port node whose active lists name a queue. -/
def listing (s : State) (port : Nat) : List Nat :=
  (s.sched.nodes.filter (fun x => x.1.kind = 1 && !x.2.active.flatten.isEmpty && portOfService s x.1.ix == port)).map (fun x => x.1.ix)

/-- Take a node out of its parent's active lists, with its deficit (R194, R203). -/
def leaveLists (n : Node) (s : State) : State :=
  let s1 := setNodeRt n { nodeRt s n with deficit := 0, fresh := true } s
  { s1 with sched := { s1.sched with nodes := s1.sched.nodes.map (fun x => (x.1, { x.2 with active := x.2.active.map (fun l => l.filter (· ≠ n)) })) } }

/-- A node gets a parent and a band. -/
def placeNode (n : Node) (parent band : Nat) (s : State) : State :=
  setF ⟨nodeReg0 n.kind, 0, 13⟩ n.ix 0 parent (setF ⟨nodeReg0 n.kind, 28, 2⟩ n.ix 0 band s)

/-- A queue's or service node's oldest waiting change takes effect (R190, R203): at the tail of its new band's list, its deficit zero. -/
def applyMove (n : Node) (s : State) : State :=
  match (nodeRt s n).moves with
  | [] => s
  | (p, b) :: rest => placeNode n p b (leaveLists n (setNodeRt n { nodeRt s n with moves := rest } s))

/-- The children of a service node for which a change waits. -/
def moversOf (s : State) (svc : Nat) : List Node :=
  sortBy (fun n => n.kind * 65536 + n.ix) (((s.sched.nodes.filter (fun x => (x.1.kind = 0 || x.1.kind = 3) && !x.2.moves.isEmpty)).map (·.1)).filter (fun q => (serviceOf s q).ix == svc))

/-- The changes that waited for a queue that has become empty: with no copy left there is nothing that a decision could choose (log 81). -/
def settleMoves (port : Nat) (s : State) : State :=
  (s.sched.nodes.filter (fun x => (x.1.kind = 0 || x.1.kind = 3) && !x.2.moves.isEmpty && (queueOf s x.1).isEmpty && portOfQueue s x.1 == port)).foldl
    (fun z x => x.2.moves.foldl (fun y _ => applyMove x.1 y) z) s

/-- Bring the active lists below a port node, and its own, in line; under port node 772 also the hold accounts. -/
def syncPort (port : Nat) (s0 : State) : State :=
  let s := settleMoves port (if port = 772 then syncHold s0 else s0)
  let svcs := (servicesOf s port ++ listing s port).eraseDups
  let s1 := svcs.foldl (fun z v => syncNode ⟨1, v⟩ ((kidsOf z v).filter (queueEligible z)) z) s
  syncNode ⟨2, port⟩ (((servicesOf s1 port).filter (serviceEligible s1)).map (fun v => ⟨1, v⟩)) s1

/-- Mark every queued copy whose class is paused now as having waited while paused (Table 9.1, PAUSED). -/
def markPaused (port : Nat) (s : State) : State :=
  { s with pal := { s.pal with copies := s.pal.copies.map (fun c =>
      if c.phase = .queued ∧ c.port = port ∧ queuePaused s c.node then { c with paused := true } else c) } }

/-! ### Received pause (R51) -/

/-- PFC_FRAME_RX (R51, R52): a MAC control frame received by a port. -/
def execPfcFrameRx (t port opcode enable : Nat) (quanta : List Nat) (s : State) : Res :=
  need (decide (port < 768)) "port" port <| live t (fun s =>
    if portIsUp s port then syncPort port (markPaused port (macControl port opcode enable quanta s)) else s) s

/-- PAUSE_TIMER_EXPIRE (R51): a received pause timer has run out. -/
def execPauseTimerExpire (t port cls : Nat) (s : State) : Res :=
  need (decide (port < 768)) "port" port <| need (decide (cls < 8)) "class" cls <| live t (fun s =>
    match tget (portRt s port).pauseRx cls with
    | none => s
    | some e => if e ≤ s.clk.mono * 1000 then syncPort port (pauseRx port cls 0 s) else s) s

end Sys2Proof.Machine
end

