-- ==== Sys2Proof/Machine/Palette.lean ====
section
/-! DEFINITION. The Palette (Chapter 7): pools and priority groups, admission (R166 to R180, R339, R426), writing and matching of cells (R156 to R164), discarding copies, the watchdog (R181), pool sizes (R169, R173), multicast groups (R167) and the expiry of epochs (R134). -/

namespace Sys2Proof.Machine

/-! ### Pools, priority groups, depths -/

/-- FREE of a service pool: its effective size less its use (R170). -/
def poolFree (s : State) (i : Nat) : Nat := getF s F.PAL_POOL_EFF_EFF i 0 - getF s F.PAL_POOL_USED_USED i 0

/-- ALPHA times a number of cells, in 1/128 cells (Table 7.7). -/
def alphaTimes (a cells : Nat) : Nat := cells * 2 ^ a

/-- XOFF_LIMIT of a priority group, in 1/128 cells (R180). -/
def xoffLimit (s : State) (p c : Nat) : Nat :=
  128 * getF s F.PG_CFG_PG_MIN p c + alphaTimes (getF s F.PG_CFG_IALPHA p c) (poolFree s (getF s F.PAL_CFG_LL_POOL 0 0))

/-- Bring the pause of a class of a front port in line with its PG and FIFO. -/
def pgPause (p c : Nat) (s : State) : State := if p < 768 then updatePause p c s else s

/-- After a charge: XOFF sets when the shared use reaches XOFF_LIMIT (R180, step 1). -/
def pgReach (p c : Nat) (s : State) : State :=
  if !flag s F.PG_STAT1_XOFF p c && decide (xoffLimit s p c ≤ 128 * getF s F.PG_STAT0_SHARED_USED p c) then pgPause p c (setF F.PG_STAT1_XOFF p c 1 s) else s

/-- XOFF clears when HR_USED is 0 and the shared use is at or below XOFF_LIMIT − 16 × XON_DELTA (R180, step 3). -/
def pgRelease (p c : Nat) (s : State) : State :=
  if flag s F.PG_STAT1_XOFF p c && getF s F.PG_STAT1_HR_USED p c == 0
      && decide (128 * getF s F.PG_STAT0_SHARED_USED p c + 2048 * getF s F.PG_CFG_XON_DELTA p c ≤ xoffLimit s p c)
    then pgPause p c (setF F.PG_STAT1_XOFF p c 0 s) else s

/-- The priority groups whose XOFF is set. -/
def xoffGroups (s : State) : List (Nat × Nat) :=
  s.rf.words.filterMap fun w => if w.1.n = .PG_STAT1 ∧ flag s F.PG_STAT1_XOFF w.1.i w.1.j then some (w.1.i, w.1.j) else none

/-- Every priority group is released whose condition now holds: after cells were freed, and after a change of a pool or of a group's settings. -/
def pgReleaseAll (s : State) : State := (xoffGroups s).foldl (fun z g => pgRelease g.1 g.2 z) s

/-- Add to or take from a field that counts cells. -/
def addF (f : Fld) (i j : Nat) (up : Bool) (n : Nat) (s : State) : State :=
  setF f i j (if up then getF s f i j + n else getF s f i j - n) s

/-- A queue's depth in cells. -/
def depthOf (s : State) (q : Node) : Nat := if q.kind = 3 then getF s F.CPU_QUEUE_DEPTH_CELLS q.ix 0 else getF s F.QUEUE_DEPTH0_CELLS q.ix 0

/-- Change a queue's depth by cells and bytes. -/
def addDepth (q : Node) (up : Bool) (cells bytes : Nat) (s : State) : State :=
  if q.kind = 3 then addF F.CPU_QUEUE_DEPTH_CELLS q.ix 0 up cells s
  else addF F.QUEUE_DEPTH1_BYTES q.ix 0 up bytes (addF F.QUEUE_DEPTH0_CELLS q.ix 0 up cells s)

/-- RESERVED_MIN of a queue (R170, R426). -/
def reservedMin (s : State) (q : Node) : Nat := if q.kind = 3 then getF s F.CPU_QUEUE_ADM_RESERVED_MIN q.ix 0 else getF s F.QUEUE_ADM0_RESERVED_MIN q.ix 0
/-- POOL of a queue. -/
def queuePool (s : State) (q : Node) : Nat := if q.kind = 3 then getF s F.CPU_QUEUE_ADM_POOL q.ix 0 else getF s F.QUEUE_ADM0_POOL q.ix 0
/-- ALPHA of a queue. -/
def queueAlpha (s : State) (q : Node) : Nat := if q.kind = 3 then getF s F.CPU_QUEUE_ADM_ALPHA q.ix 0 else getF s F.QUEUE_ADM0_ALPHA q.ix 0

/-- A queue descriptor is taken; QDESC_LOW is raised when fewer than 163,840 are left (Table 7.11). -/
def takeDesc (s : State) : State :=
  let f := getF s F.PAL_STAT1_QDESC_FREE 0 0
  let s1 := setF F.PAL_STAT1_QDESC_FREE 0 0 (f - 1) s
  if f = 163840 then raise0 Ev.PAL_QDESC_LOW s1 else s1

/-- A queue descriptor is released. -/
def giveDesc (s : State) : State := addF F.PAL_STAT1_QDESC_FREE 0 0 true 1 s

/-- The lowest index that a list does not hold: the descriptor that is taken (R157; DESIGN CHOICE, log 80). -/
def freshIx (used : List Nat) : Nat := ((List.range (used.length + 1)).find? (fun i => !used.contains i)).getD 0

/-! ### The pool use of a queue (Table 7.6) -/

/-- Cells of a copy at depth `d` of its queue that lie above the queue's reserve (R170). -/
def drawOf (d n rm : Nat) : Nat := min n (d + n - rm)

/-- A copy that a queue holds: queued, or admitted and still to be placed. -/
def heldHere (c : Copy) (q : Node) : Bool := (c.phase = .placing || c.phase = .queued) && c.node == q

/-- A copy whose cells above its queue's reserve the queue's own pool pays for: lossy and unicast. -/
def ownPool (c : Copy) : Bool := !c.lossless && !c.mcast

/-- The lossy unicast cells of a queue that lie above its reserve: those past the first RESERVED_MIN cells of its depth. -/
def queuePart (s : State) (q : Node) : Nat :=
  let rm := reservedMin s q
  ((s.pal.copies.filter (fun c => heldHere c q)).foldl (fun (x : Nat × Nat) c =>
    let n := match pktOf s c.pkt with
      | some p => p.charged
      | none => 0
    (x.1 + n, if ownPool c then x.2 + drawOf x.1 n rm else x.2)) (0, 0)).2

/-- What a queue's cells are charged to at present: the pool and the cells. -/
def queueCharge (s : State) (q : Node) : Nat × Nat := tgetD s.pal.queuePool q (queuePool s q, 0)

/-- Set a queue's charge; `move` says whether the pools' use follows, or the difference stays with a packet that leaves the queue. -/
def setQueueCharge (q : Node) (pool n : Nat) (move : Bool) (s : State) : State :=
  let old := queueCharge s q
  let s1 := { s with pal := { s.pal with queuePool := if n = 0 then terase s.pal.queuePool q else tset s.pal.queuePool q (pool, n) } }
  if move then
    let s2 := addF F.PAL_POOL_USED_USED pool 0 true n (addF F.PAL_POOL_USED_USED old.1 0 false old.2 s1)
    if n < old.2 ∨ pool ≠ old.1 then pgReleaseAll s2 else s2
  else s1

/-- Bring a queue's charge in line with its cells, its reserve and its pool. -/
def syncPool (q : Node) (s : State) : State := setQueueCharge q (queuePool s q) (queuePart s q) true s

/-! ### Charges -/

/-- What a packet's cells are charged to beside the free cells (R170, R180): a multicast or lossless packet's pool, and the priority group.  The cells of a lossy unicast copy are charged by their place in its queue (`syncPool`), and to its packet once the copy has left it. -/
def chargePkt (p : Pkt) (s : State) : State :=
  let s1 := match p.pool with
    | some i => addF F.PAL_POOL_USED_USED i 0 true p.poolAmt s
    | none => s
  if p.hrCharged then addF F.PG_STAT1_HR_USED p.src p.iclass true p.charged (addF F.PAL_HP_USED_USED 0 0 true p.charged s1)
  else if p.pgCharged then addF F.PG_STAT0_SHARED_USED p.src p.iclass true p.charged s1
  else s1

/-- Return `n` of a packet's charged cells to the free cells and to whatever they were charged to (R158, R171, R180). -/
def uncharge (p : Pkt) (n : Nat) (s : State) : Pkt × State :=
  let back := if p.charged = n then p.poolAmt else min n p.poolAmt
  let s1 := addF F.PAL_STAT0_FREE_CELLS 0 0 true n s
  let s2 := match p.pool with
    | some i => addF F.PAL_POOL_USED_USED i 0 false back s1
    | none => s1
  let s3 :=
    if p.hrCharged then addF F.PG_STAT1_HR_USED p.src p.iclass false n (addF F.PAL_HP_USED_USED 0 0 false n s2)
    else if p.pgCharged then addF F.PG_STAT0_SHARED_USED p.src p.iclass false n s2
    else s2
  ({ p with charged := p.charged - n, poolAmt := p.poolAmt - back }, pgReleaseAll s3)

/-! ### The end of copies and packets (R22, R158) -/

/-- A bank takes writes and reads: neither retired nor out of service (R159, R163, R380). -/
def bankOpen (s : State) (b : Nat) : Bool := !s.pal.bankOut.contains b && !s.pal.bankDrain.contains b

/-- Indices used in a bank. -/
def bankUsed (s : State) (b : Nat) : List Nat := tgetD s.pal.bankUsed b []

/-- Release the bank cells of a packet. -/
def freeBanks (cells : List (Nat × Nat)) (s : State) : State :=
  { s with pal := { s.pal with bankUsed := cells.foldl (fun t c => tset t c.1 ((tgetD t c.1 []).filter (· ≠ c.2))) s.pal.bankUsed } }

/-- Remove a packet whose copies are all closed and whose cells are free. -/
def dropPkt (id : Nat) (s : State) : State := { s with pal := { s.pal with pkts := s.pal.pkts.filter (fun p => p.id ≠ id) } }

/-- Bring a packet to its end where it has come to it: cells free at REFCNT 0 once written, the descriptor with OPEN_COPIES 0. -/
def settlePkt (id : Nat) (s : State) : State :=
  match pktOf s id with
  | none => s
  | some p =>
    let s1 := if p.refcnt = 0 ∧ !p.writing ∧ p.charged ≠ 0 then
        let x := uncharge p p.charged (freeBanks p.cells s)
        setPkt x.1 x.2
      else s
    if p.openCopies = 0 ∧ p.refcnt = 0 ∧ !p.writing then dropPkt id s1 else s1

/-- A copy's cells need no more reading: REFCNT falls, and its queue descriptor is released (R22, R158). -/
def dropRef (c : Copy) (s : State) : State :=
  match pktOf s c.pkt with
  | none => s
  | some p => settlePkt c.pkt (giveDesc (setCopy { c with qdesc := none } (setPkt { p with refcnt := p.refcnt - 1 } s)))

/-- A copy's Glaze record is closed: OPEN_COPIES falls, and with the last one the packet leaves its epoch's count (R127, R158). -/
def closeCopy (c : Copy) (s : State) : State :=
  let s1 := { s with pal := { s.pal with copies := s.pal.copies.filter (fun k => k.id ≠ c.id) }
                     host := if c.node.kind = 3 then { s.host with pkt := s.host.pkt.map (fun x => (x.1, { x.2 with reserved := x.2.reserved.filter (fun r => r.1 ≠ c.id) })) } else s.host }
  match pktOf s1 c.pkt with
  | none => s1
  | some p =>
    let s2 := setPkt { p with openCopies := p.openCopies - 1 } s1
    settlePkt c.pkt (if p.openCopies = 1 then inflight p.epoch false s2 else s2)

/-! ### Readers -/

/-- The reader of a port (R161). -/
def readerOf (s : State) (port : Nat) : Nat :=
  if port < 768 then port / 8 else if port < 772 then 3 * homePipe s port + (port - 768) % 3 else 3 * homePipe s port + 2

/-- A reader. -/
def reader (s : State) (m : Nat) : Reader := tgetD s.pal.readers m {}

/-- Set it. -/
def setReader (m : Nat) (r : Reader) (s : State) : State := { s with pal := { s.pal with readers := tset s.pal.readers m r } }

/-- Take a copy out of every reader and match. -/
def unread (id : Nat) (s : State) : State :=
  { s with pal := { s.pal with
    readers := s.pal.readers.map (fun x => (x.1, { x.2 with copies := x.2.copies.filter (· ≠ id), slots := x.2.slots.filter (fun t => t.copy ≠ id) }))
    flight := s.pal.flight.map (fun l => l.filter (fun g => g.copy ≠ id)) } }

/-- Whether all cells of a copy have been read: the whole packet is written, every cell has entered the window, and none is still to be read. -/
def allRead (s : State) (c : Copy) : Bool :=
  match pktOf s c.pkt with
  | none => true
  | some p => !p.writing && c.nextCell == p.cells.length && !s.pal.readers.any (fun x => x.2.slots.any (fun t => t.copy == c.id && decide (t.st < 2)))

/-! ### Discards -/

/-- Cluster of a copy's egress pipeline. -/
def copyCluster (s : State) (c : Copy) : Nat := egressPipe s c.port / 4

/-- Copies that a queue holds: queued, or admitted and still to be placed. -/
def heldBy (s : State) (q : Node) : Nat := (s.pal.copies.filter (fun c => heldHere c q)).length

/-- PERMILLE of a detach in progress (R190). -/
def detachProgress (q : Node) (s : State) : State :=
  let r := nodeRt s q
  match r.detachCmd with
  | some h => modOut h.serial (fun o => { o with permille := 1000 * (r.detachN0 - heldBy s q) / max 1 r.detachN0 }) s
  | none => s

/-- The pool charge of a queue that a copy has just left (Table 7.6): the cells behind it move into the reserve.  What a lossy unicast copy so takes from the queue's charge stays charged, to its packet, until its cells are free; another copy's leaving frees the pool's cells at once. -/
def leavePool (c : Copy) (s : State) : State :=
  if ownPool c then
    let old := queueCharge s c.node
    let now := queuePart s c.node
    let s1 := setQueueCharge c.node old.1 now false s
    match pktOf s c.pkt with
    | some p => setPkt { p with pool := some old.1, poolAmt := old.2 - now } s1
    | none => s1
  else syncPool c.node s

/-- A copy leaves its queue: depth falls by what it added. -/
def unqueue (c : Copy) (s : State) : State :=
  let amt := match pktOf s c.pkt with
    | some p => (p.charged, p.len)
    | none => (0, 0)
  detachProgress c.node (leavePool c (setCopy { c with phase := .reading } (addDepth c.node false amt.1 amt.2 (setQueue c.node ((queueOf s c.node).filter (· ≠ c.id)) s))))

/-- Discard a copy, wherever it stands, at a point of Table 9.2 with a reason: its cells and descriptors are released and its record closes. -/
def discard (c : Copy) (point reason : Nat) (s : State) : State :=
  match pktOf s c.pkt with
  | none => s
  | some p =>
    let s1 := if c.phase = .placing ∨ c.phase = .queued then unqueue c s else s
    let s2 := closeRecord ⟨copyGlaze s1 p c point reason, p, copyCluster s1 c, c.img.key, c.egStamps, false⟩ s1
    let s3 := if c.phase ≠ .placing ∧ c.phase ≠ .queued ∧ allRead s2 c then s2 else dropRef c (unread c.id s2)
    closeCopy c s3

/-- Discard every copy that waits in a queue, or for its place in one, and that a test picks. -/
def discardQueued (pick : State → Copy → Bool) (reason : Nat) (s : State) : State :=
  let hit := s.pal.copies.filter (fun c => (c.phase = .placing || c.phase = .queued) && pick s c)
  let s1 := hit.foldl (fun z c => discard c 3 reason z) s
  (hit.map Copy.port).eraseDups.foldl (fun z p => syncPort p z) s1

/-! ### Placing copies -/

/-- A copy's queue descriptor is placed on its queue. -/
def placeCopy (c : Copy) (s : State) : State :=
  let s1 := setCopy { c with phase := .queued, paused := c.paused || queuePaused s c.node } (setQueue c.node (queueOf s c.node ++ [c.id]) s)
  syncPort c.port s1

/-! ### Admission (R168 to R180) -/

/-- Free cells of the banks that take writes: FREE_CELLS without those of a retired bank that still holds cells (R159, R380). -/
def writableFree (s : State) : Nat :=
  getF s F.PAL_STAT0_FREE_CELLS 0 0 - ((List.range 128).map (fun b => if s.pal.bankDrain.contains b then 10240 - (bankUsed s b).length else 0)).sum

/-- Cells charged at action resolve (R171): those of the frame when its end has been received, otherwise of the ingress port's maximum frame. -/
def chargeOf (s : State) (p : Pkt) : Nat := cdiv (if p.ended then p.len else maxFrameIn s p.src) 256

/-- The R170 threshold of a lossy copy. -/
def withinThreshold (s : State) (q : Node) (n : Nat) : Bool :=
  let d := depthOf s q
  let rm := reservedMin s q
  let free := poolFree s (queuePool s q)
  decide (d + n ≤ rm) || (decide (128 * (d + n - rm) ≤ alphaTimes (queueAlpha s q) free) && decide (drawOf d n rm ≤ free))

/-- R180's admission of a lossless copy of `n` cells of a PG. -/
def pgAdmits (s : State) (p c n : Nat) : Bool :=
  !flag s F.PG_STAT1_XOFF p c ||
    (decide (getF s F.PG_STAT1_HR_USED p c + n ≤ getF s F.PG_CFG_HR_LIMIT p c) &&
      decide (getF s F.PAL_HP_USED_USED 0 0 + n ≤ getF s F.PAL_HP_SIZE_SIZE 0 0))

/-- Admission of one copy for a queue (Table 7.8, from step 2): 0, or the drop reason.  `first` is false for a copy of a multicast packet whose cells another copy has been charged for. -/
def admitTest (s : State) (p : Pkt) (q : Node) (lossless mcast first : Bool) : Nat :=
  let n := chargeOf s p
  let port := portOfQueue s q
  let draw := if !first then 0 else if mcast then n else drawOf (depthOf s q) n (reservedMin s q)
  let pool := if mcast then getF s F.PAL_CFG_MC_POOL 0 0 else queuePool s q
  if !inHierarchy s q then 0x06
  else if nodeDown s port then 0x07
  else if q.kind = 0 ∧ port < 768 ∧ bit (getF s F.PORT_WD_WD_ACTIVE port 0) (nodeClass s q) then 0x08
  else if getF s F.PAL_STAT1_QDESC_FREE 0 0 = 0 then 0x09
  else if lossless ∧ !pgAdmits s p.src p.iclass n then 0x0A
  else if !lossless ∧ !withinThreshold s q n then 0x0B
  else if (first ∧ writableFree s < n) ∨ (!lossless ∧ poolFree s pool < draw) then 0x0C
  else 0

/-- Port speed for R175 and R176 in Gb/s: a Stretcher port counts as 1.52 Tb/s; a frame of the host path is staged whole (log 23). -/
def speedOf (s : State) (port : Nat) : Nat := if port < 768 then portGbps s port else if port < 772 then 1520 else 0

/-- Whether a copy is placed under cut-through (R175). -/
def cutsThrough (s : State) (p : Pkt) (q : Node) : Bool :=
  let port := portOfQueue s q
  flag s F.PAL_CFG_CT_EN 0 0 && q.kind == 0 && !flag s F.QUEUE_ADM0_CT_DIS q.ix 0 && decide (port < 772) &&
    !s.pal.copies.any (fun c => c.port == port) && !queuePaused s q &&
    shaperOpen s q && shaperOpen s (serviceOf s q) && shaperOpen s ⟨2, port⟩ && decide (speedOf s p.src ≤ speedOf s port)

/-- A queue under R339: while one bonded port is not UP and the other is, a queue of the down port's range stands for the same queue of the other. -/
def bondMove (s : State) (q : Nat) : Nat :=
  let n := getF s F.TWIN_BOND1_QCOUNT 0 0
  let a := getF s F.TWIN_BOND0_QBASE0 0 0
  let b := getF s F.TWIN_BOND0_QBASE1 0 0
  let bonded := flag s F.STL_PORT_STAT_BOND 0 0 && flag s F.STL_PORT_STAT_BOND 1 0
  if bonded && !stlUp s 0 && stlUp s 1 && decide (a ≤ q) && decide (q < a + n) then (q - a + b) % 65536
  else if bonded && !stlUp s 1 && stlUp s 0 && decide (b ≤ q) && decide (q < b + n) then (q - b + a) % 65536
  else q

/-- The targets of a packet in order, or the drop reason of step 1 (Table 7.8, R166, R185). -/
def targetsOf (s : State) (d : Decision) : Except Nat (List Node) :=
  match d.destKind with
  | 1 => .ok [⟨0, bondMove s d.destQueue⟩]
  | 2 =>
    let l := tgetD s.tbl.mc d.mcast []
    if l.isEmpty then .error 0x05 else .ok (l.map (fun t => if bit t 31 then ⟨3, t % 64⟩ else ⟨0, bondMove s (t % 65536)⟩))
  | 3 => if d.cpuQueue < 48 then .ok [⟨3, d.cpuQueue⟩] else .error 0x01
  | _ => .error 0x01

/-- What admission has decided so far of a packet: the packet with its charge, its admitted copies, the refused targets with their reasons. -/
structure Admission where
  s : State
  p : Pkt
  copies : List Copy := []
  refused : List (Copy × Nat) := []

/-- Admission of one target: ADMISSION and XOFF_SET, and the copy's mark and cut-through (R174, R175). -/
def admitOne (mcast : Bool) (a : Admission) (q : Node) : Admission :=
  let s := a.s
  let p := a.p
  let first := a.copies.isEmpty
  let lossless := !mcast && q.kind == 0 && p.admClass == 1 && flag s F.QUEUE_ADM0_LOSSLESS q.ix 0
  let n := chargeOf s p
  let d := depthOf s q
  let c : Copy :=
    { id := s.pal.nextId, qdesc := some (freshIx ((s.pal.copies ++ a.copies).filterMap Copy.qdesc)), pkt := p.id, node := q, port := portOfQueue s q, qdepth := d, lossless := lossless, mcast := mcast,
      ecn := q.kind == 0 && flag s F.QUEUE_ADM1_MARK_EN q.ix 0 && decide (getF s F.QUEUE_ADM1_MARK_THRESH q.ix 0 < getF s F.QUEUE_DEPTH1_BYTES q.ix 0) }
  let why := admitTest s p q lossless mcast first
  if why ≠ 0 then
    { a with s := if why = 0x0A then raise0 Ev.PAL_HEADROOM_DROP s else s, refused := a.refused ++ [({ c with ecn := false, qdepth := 0 }, why)] }
  else
    let c1 := { c with ct := cutsThrough s p q }
    let xoff := flag s F.PG_STAT1_XOFF p.src p.iclass
    let p1 :=
      if !first then p
      else if lossless then
        { p with lossless := true, charged := n, hrCharged := xoff, pgCharged := !xoff, pool := if xoff then none else some (getF s F.PAL_CFG_LL_POOL 0 0), poolAmt := n }
      else if mcast then { p with charged := n, pool := some (getF s F.PAL_CFG_MC_POOL 0 0), poolAmt := n }
      else { p with charged := n }
    let s1 := { s with pal := { s.pal with nextId := s.pal.nextId + 1 } }
    let s2 := if first then chargePkt p1 (addF F.PAL_STAT0_FREE_CELLS 0 0 false n s1) else s1
    let s3 := addDepth q true n p.len (takeDesc s2)
    { a with s := if lossless && !xoff then pgReach p.src p.iclass s3 else s3, p := p1, copies := a.copies ++ [c1] }

/-- Close the record of a refused target (point 2). -/
def closeRefused (p : Pkt) (along : Bool) (x : Copy × Nat) (s : State) : State :=
  closeRecord ⟨copyGlaze s p x.1 2 x.2, p, p.pipe / 4, p.dec.key, [], along⟩ s

/-- A packet that ends without any copy admitted: IN_DROPS, and it leaves its epoch's count. -/
def endUnadmitted (p : Pkt) (s : State) : State := inflight p.epoch false (addCtr 3 p.dec.tac 2 1 s)

/-- Admission of a packet at action resolve (R168 to R180): its copies, and the packet offered to the write allocator of its pipeline. -/
def admitPkt (p : Pkt) (s : State) : State :=
  match targetsOf s p.dec with
  | .error why => endUnadmitted p (closeRecord ⟨{ packetGlaze s p 2 why with mcast := p.dec.destKind == 2 }, p, p.pipe / 4, p.dec.key, [], false⟩ s)
  | .ok l =>
    let a := l.foldl (admitOne (p.dec.destKind == 2)) { s := s, p := p }
    let s1 := a.refused.foldl (fun z x => closeRefused a.p (!a.copies.isEmpty) x z) a.s
    if a.copies.isEmpty then endUnadmitted p s1
    else
      let k := a.copies.length
      (a.copies.map Copy.node).foldl (fun z q => syncPool q z) { s1 with pal := { s1.pal with
        pkts := s1.pal.pkts ++ [{ a.p with refcnt := k, openCopies := k, writing := true, desc := freshIx (s1.pal.pkts.map Pkt.desc) }]
        copies := s1.pal.copies ++ a.copies
        writeQ := tset s1.pal.writeQ p.pipe (tgetD s1.pal.writeQ p.pipe [] ++ [p.id]) } }

/-- A control frame is handed to the engines (R65): one of a front port waits for them; no engine accepts one of another source, which only counts as rejected (R288, R332). -/
def handFrame (p : Pkt) (s : State) : State :=
  if p.src < 768 then { s with pal := { s.pal with handed := s.pal.handed ++ [(p.src, p.frame)] } }
  else if p.hdr.etype = 0x88B6 then raise0 Ev.CMD_IB_AUTH_FAIL (bump .IB_AUTH_FAIL_CNT 0 0 1 s)
  else bump .BKP_REJECT_CNT 0 0 1 s

/-- A packet leaves its ingress pipeline (R62, R65, R66, R98, R177): a control frame goes to the engines without a record; a drop closes the record at point 1; a trapped parse error goes to TRAP_QUEUE; otherwise the learn event is raised and admission decides. -/
def resolvePkt (p : Pkt) (s : State) : State :=
  if p.hdr.ctrl then handFrame p (inflight p.epoch false s)
  else
    let s1 := addCtr 3 p.dec.tac 0 p.len (addCtr 3 p.dec.tac 1 1 s)
    let why := if p.dec.drop ≠ 0 then p.dec.drop else if p.tailBad then 0x10 else 0
    if why ≠ 0 then endUnadmitted p (closeRecord ⟨packetGlaze s1 p 1 why, p, p.pipe / 4, p.dec.key, [], false⟩ s1)
    else
      let c := cfgOfEpoch s p.epoch
      let p1 := if errAction c p.hdr.err = 2 then { p with dec := { p.dec with destKind := 3, cpuQueue := bits c.c2 8 6, trap := 7 } } else p
      let s2 := match p1.dec.learn with
        | some (t, k, d) => learnEvent ⟨t, k, d⟩ s1
        | none => s1
      admitPkt p1 s2

/-- The oldest packet of an ingress pipeline reaches action resolve. -/
def resolveOne (pipe : Nat) (s : State) : State :=
  match tgetD s.pal.inPipe pipe [] with
  | [] => s
  | p :: rest => resolvePkt p { s with pal := { s.pal with inPipe := tset s.pal.inPipe pipe rest, lastUse := tset s.pal.lastUse pipe s.clk.mono } }

/-- The pipelines in the order of a clock (R168): P*i*, P*i* + 1 and so on, modulo 32. -/
def clockOrder (i : Nat) : List Nat := (List.range 32).map (fun k => (i + k) % 32)

/-- ACTION_RESOLVE (R168, R171): one clock of the admission unit.  The slots say which pipelines present a packet; each takes the pipeline's oldest, slot A before slot B, P*i* first, and *i* advances. -/
def execActionResolve (t : Nat) (slots : ClockSlots) (s : State) : Res :=
  live t (fun s =>
    let slot (m k : Nat) (z : State) : State := if bit m k then resolveOne k z else z
    let s1 := (clockOrder s.pal.resPtr).foldl (fun z k => slot slots.b k (slot slots.a k z)) s
    { s1 with pal := { s1.pal with resPtr := (s.pal.resPtr + 1) % 32 } }) s

/-! ### Writing cells (R156, R159) -/

/-- Cells of a packet that may be written now: the last one only once the frame's end has been received. -/
def writable (p : Pkt) : Nat := cdiv p.len 256 - (if p.ended then 0 else 1)

/-- The next bank at or after W that is in service, has a free cell and has taken no write in this clock, with its lowest free index. -/
def nextBank (s : State) (used : List Nat) : Option (Nat × Nat) :=
  ((List.range 128).map (fun k => (s.pal.wptr + k) % 128)).findSome? fun b =>
    if bankOpen s b && !used.contains b && decide ((bankUsed s b).length < 10240) then
      (firstIx 10240 (fun i => !(bankUsed s b).contains i)).map (fun i => (b, i))
    else none

/-- A packet is wholly written: the charge is reduced to the true count (R171), and copies not yet placed are placed. -/
def finishWrite (p : Pkt) (s : State) : State :=
  let extra := p.charged - p.cells.length
  let mine := s.pal.copies.filter (fun c => c.pkt == p.id)
  let s1 := (mine.filter (fun c => c.phase = .placing || c.phase = .queued)).foldl (fun z c => addDepth c.node false extra 0 z) s
  let x := uncharge p extra s1
  let s2 := setPkt { x.1 with writing := false } x.2
  let s3 := (mine.filter (fun c => c.phase = .placing)).foldl (fun z c => placeCopy c z) s2
  settlePkt p.id ((mine.map Copy.node).foldl (fun z q => syncPool q z) s3)

/-- One cell of the packet at the head of a pipeline's write queue is written, where it may be: the banks used in this clock, and the state. -/
def writeCell (pipe : Nat) (x : List Nat × State) : List Nat × State :=
  let s := x.2
  match tgetD s.pal.writeQ pipe [] with
  | [] => x
  | id :: rest =>
    match pktOf s id with
    | none => (x.1, { s with pal := { s.pal with writeQ := tset s.pal.writeQ pipe rest } })
    | some p =>
      if writable p ≤ p.cells.length then x
      else match nextBank s x.1 with
        | none => x
        | some (b, i) =>
          let p1 := { p with cells := p.cells ++ [(b, i)] }
          let s1 := setPkt p1 { s with pal := { s.pal with bankUsed := tset s.pal.bankUsed b (i :: bankUsed s b), wptr := (b + 1) % 128 } }
          let s2 := if p.cells.isEmpty then
              (s1.pal.copies.filter (fun c => c.pkt == id && c.ct && c.phase = .placing)).foldl (fun z c => placeCopy c z) s1
            else s1
          if p1.cells.length = cdiv p.len 256 then
            (b :: x.1, finishWrite p1 { s2 with pal := { s2.pal with writeQ := tset s2.pal.writeQ pipe rest } })
          else (b :: x.1, s2)

/-- CELL_WRITE (R159): one clock of the write allocator, up to four cells of each pipeline in the order of R168. -/
def execCellWrite (t : Nat) (s : State) : Res :=
  live t (fun s =>
    let x := ((clockOrder s.pal.admPtr).flatMap (fun p => [p, p, p, p])).foldl (fun x p => writeCell p x) (([] : List Nat), s)
    { x.2 with pal := { x.2.pal with admPtr := (s.pal.admPtr + 1) % 32 } }) s

/-! ### Bank matching (R161 to R164) -/

/-- Let the next cells of a reader's copies enter its window: at most 8 there, each with a slot of the 64 reserved. -/
def fillWindow : Nat → Nat → State → State
  | 0, _, s => s
  | n + 1, m, s =>
    let r := reader s m
    match r.copies with
    | [] => s
    | id :: rest =>
      match copyOf s id with
      | none => fillWindow n m (setReader m { r with copies := rest } s)
      | some c =>
        match pktOf s c.pkt with
        | none => fillWindow n m (setReader m { r with copies := rest } s)
        | some p =>
          if c.nextCell = p.cells.length then (if p.writing then s else fillWindow n m (setReader m { r with copies := rest } s))
          else if 64 ≤ r.slots.length ∨ 8 ≤ (r.slots.filter (fun x => x.st = 0)).length then s
          else fillWindow n m (setCopy { c with nextCell := c.nextCell + 1 } (setReader m { r with slots := r.slots ++ [⟨id, c.nextCell, 0⟩] } s))

/-- The bank of a cell of a copy. -/
def bankOfCell (s : State) (id cell : Nat) : Option Nat :=
  match copyOf s id with
  | none => none
  | some c => match pktOf s c.pkt with
    | none => none
    | some p => (p.cells[cell]?).map (·.1)

/-- A reader's requests in an iteration (R162): the banks of its oldest window cells, one cell a bank, at most four, without banks already matched or out of service. -/
def requestsOf (s : State) (m : Nat) (taken : List Nat) : List Grant :=
  let all := ((reader s m).slots.filter (fun x => x.st = 0)).filterMap (fun x => (bankOfCell s x.copy x.cell).map (fun b => (⟨b, m, x.copy, x.cell⟩ : Grant)))
  (all.foldl (fun acc g => if taken.contains g.bank || !bankOpen s g.bank || acc.any (fun h => h.bank == g.bank) then acc else acc ++ [g]) []).take 4

/-- Distance from a pointer, modulo a size. -/
def ahead (size ptr x : Nat) : Nat := (x + size - ptr) % size

/-- One iteration of a match (R163): requests of unmatched readers, one grant a bank, one accept a reader. -/
def iteration (s : State) (m earlier : List Grant) : List Grant :=
  let taken := (m ++ earlier).map Grant.bank
  let readers := (s.pal.readers.map (·.1)).filter (fun r => !m.any (fun g => g.reader == r))
  let reqs := readers.flatMap (fun r => requestsOf s r taken)
  let banks := (reqs.map Grant.bank).eraseDups
  let grants := banks.filterMap (fun b => leastBy (fun g => ahead 96 (tgetD s.pal.grant b 0) g.reader) (reqs.filter (fun g => g.bank == b)))
  readers.filterMap (fun r => leastBy (fun g => ahead 128 (reader s r).accept g.bank) (grants.filter (fun g => g.reader == r)))

/-- Mark the cells of new grants as matched. -/
def markMatched (st : Nat) (gs : List Grant) (s : State) : State :=
  gs.foldl (fun z g =>
    let r := reader z g.reader
    setReader g.reader { r with slots := r.slots.map (fun x => if x.copy = g.copy ∧ x.cell = g.cell then { x with st := st } else x) } z) s

/-- Pointers move on acceptance in iteration 1. -/
def movePointers (gs : List Grant) (s : State) : State :=
  gs.foldl (fun z g =>
    setReader g.reader { reader z g.reader with accept := (g.bank + 1) % 128 } { z with pal := { z.pal with grant := tset z.pal.grant g.bank ((g.reader + 1) % 96) } }) s

/-- Pass the cells that are next in order to egress extraction (R164). -/
def passCells (m : Nat) : Nat → State → State
  | 0, s => s
  | n + 1, s =>
    let r := reader s m
    match r.slots with
    | x :: rest =>
      if x.st = 2 then
        let s1 := setReader m { r with slots := rest } s
        passCells m n (match copyOf s1 x.copy with
          | some c => setCopy { c with passed := c.passed + 1 } s1
          | none => s1)
      else s
    | [] => s

/-- Cells of a completed match are read, a copy whose last cell is read gives up its claim (R22, R158), and every reader passes on the cells that are next in order (R164). -/
def readCells (gs : List Grant) (s : State) : State :=
  let s1 := markMatched 2 gs s
  let done := ((gs.map Grant.copy).eraseDups.filterMap (copyOf s1)).filter (allRead s1)
  let s2 := done.foldl (fun z c => dropRef c z) s1
  (s2.pal.readers.map (·.1)).foldl (fun z m => passCells m 64 z) s2

/-- BANK_MATCH (R163, Table 7.4): one clock.  The match that has run its three iterations reads; the two in flight run their next one, older first; a new match runs its first, and pointers move. -/
def execBankMatch (t : Nat) (s : State) : Res :=
  live t (fun s =>
    let s0 := (s.pal.readers.map (·.1)).foldl (fun z m => fillWindow 200 m z) s
    let a := (s0.pal.flight[0]?).getD []
    let b := (s0.pal.flight[1]?).getD []
    let done := (s0.pal.flight[2]?).getD []
    let b2 := iteration s0 b done
    let s1 := markMatched 1 b2 s0
    let a2 := iteration s1 a (b ++ b2 ++ done)
    let s2 := markMatched 1 a2 s1
    let n1 := iteration s2 [] (a ++ a2 ++ b ++ b2)
    let s3 := movePointers n1 (markMatched 1 n1 s2)
    readCells done { s3 with pal := { s3.pal with flight := [n1, a ++ a2, b ++ b2] } }) s

/-! ### Receive at the MAC (R53, R177) -/

/-- A receive timestamp of a front port: TOD and RX_DELAY_ADJ in 1/16 ns, the sum rounded down to 1 ns (R53, R54; DESIGN CHOICE, log 78). -/
def rxStamp (s : State) (port : Nat) : Nat :=
  unsignedOf 64 (((s.clk.tod * 16 : Nat) + signed 16 (getF s F.PORT_PTP_RX_DELAY_ADJ (port / 8) (port % 8))) / 16)

/-- A good frame passes from a MAC to its ingress FIFO (R53, R182), counted whether the FIFO admits it or not. -/
def rxGood (port len : Nat) (s : State) : State := addCtr 1 port 0 1 (addCtr 1 port 1 len s)

/-- Codewords that a port's PCS has corrected and could not correct (R44, R233): FEC_CORR and FEC_UNCORR of Table 10.2, and the event of the latter. -/
def countCodewords (port corrected uncorrected : Nat) (s : State) : State :=
  if !startsPort s port then s
  else
    let s1 := addCtr 1 port 13 corrected (addCtr 1 port 14 uncorrected s)
    if uncorrected = 0 then s1 else raise Ev.MAC_FEC_UNCORR (port / 8) 0 s1

/-- FRAME_RX (R36, R44, R52, R53, R182, R233): a frame at a port that is up.  Where the frame has not ended, its head enters the pipeline ahead of its tail, whose verdict follows with RX_TAIL_ERROR (log 24).  `fec` holds the codewords that the port's PCS has decoded since its last row; they count on a port that is down too (R44). -/
def execFrameRx (t port : Nat) (frame : Frame) (verdict : Verdict) (fec : Codewords) (s : State) : Res :=
  let ended := verdict.ended
  need (decide (port < 768)) "port" port <| live t (fun s0 =>
    let s := countCodewords port fec.corrected fec.uncorrected s0
    let f := frame.bytes
    let len := f.length + 4
    if !portIsUp s port || (portRt s port).rxOpen.isSome then s
    else if ended && !verdict.good then addCtr 1 port 2 1 s
    else if len < 64 then (if ended then addCtr 1 port 4 1 s else s)
    else if maxFrameIn s port < len then (if ended then addCtr 1 port 3 1 s else s)
    else if beAt f 12 2 = 0x8808 then
      if ended then
        let quanta := if beAt f 14 2 = 0x0101 then (List.range 8).map (fun c => beAt f (18 + 2 * c) 2) else [beAt f 16 2]
        syncPort port (markPaused port (macControl port (beAt f 14 2) (beAt f 16 2) quanta s))
      else s
    else
      let s1 := offer port (frameIclass s port f) f ended (rxStamp s port) s
      if ended then rxGood port len s1 else setPortRt port { portRt s1 port with rxOpen := some (s.pal.nextId, len) } s1) s

/-! ### The watchdog (R181) -/

/-- Drop mode of a class begins: the queues mapped to it are emptied at once. -/
def wdEmpty (port c : Nat) (s : State) : State :=
  discardQueued (fun z k => k.node.kind == 0 && k.port == port && nodeClass z k.node == c) 0x08 s

/-- PFC_WD_DROP (R181): the partner has paused a watched class for WD_MS. -/
def execPfcWdDrop (t port cls : Nat) (s : State) : Res :=
  need (decide (port < 768)) "port" port <| need (decide (cls < 8)) "class" cls <| live t (fun s =>
    let act := getF s F.PORT_WD_WD_ACTIVE port 0
    match tget (portRt s port).pausedSince cls with
    | none => s
    | some from' =>
      if bit (getF s F.PORT_WD_WD_EN port 0) cls && !bit act cls && decide (from' + getF s F.PAL_WD_CFG_WD_MS 0 0 * 1000000 ≤ s.clk.mono) then
        wdEmpty port cls (raise0 Ev.PAL_WD_DROP (setF F.PORT_WD_WD_ACTIVE port 0 (putBit act cls true) s))
      else s) s

/-- PFC_WD_RESTORE (R181): no pause for the class has been received for RESTORE_MS. -/
def execPfcWdRestore (t port cls : Nat) (s : State) : Res :=
  need (decide (port < 768)) "port" port <| need (decide (cls < 8)) "class" cls <| live t (fun s =>
    let act := getF s F.PORT_WD_WD_ACTIVE port 0
    let quiet := decide (tgetD (portRt s port).lastPause cls 0 + getF s F.PAL_WD_CFG_RESTORE_MS 0 0 * 1000000 ≤ s.clk.mono)
    if bit act cls && quiet then raise0 Ev.PAL_WD_RESTORE (setF F.PORT_WD_WD_ACTIVE port 0 (putBit act cls false) s) else s) s

/-! ### Pool sizes (R169, R173) -/

/-- Cells in service. -/
def cellsInService (s : State) : Nat := 10240 * getF s F.PAL_STAT0_BANKS_IN_SERVICE 0 0

/-- The sum that R169 bounds. -/
def partsSum (s : State) : Nat :=
  ((List.range 4).map (fun i => getF s F.PAL_POOL_SIZE_SIZE i 0)).sum + getF s F.PAL_HP_SIZE_SIZE 0 0 + getF s F.PAL_STAT2_RES_TOTAL 0 0

/-- Effective pool sizes (R173): the shortfall is taken from SP3, SP2, SP1 and SP0 in that order. -/
def effSizes (s : State) : List Nat :=
  let short := partsSum s - cellsInService s
  let size (i : Nat) : Nat := getF s F.PAL_POOL_SIZE_SIZE i 0
  let c3 := min short (size 3)
  let c2 := min (short - c3) (size 2)
  let c1 := min (short - c3 - c2) (size 1)
  [size 0 - (short - c3 - c2 - c1), size 1 - c1, size 2 - c2, size 3 - c3]

/-- Bring the effective sizes in line; POOL_SHRUNK is raised where a bank's retirement reduced one. -/
def refreshEff (s : State) : State :=
  let new := effSizes s
  let shrunk := (List.range 4).any fun i => decide ((new[i]?).getD 0 < getF s F.PAL_POOL_EFF_EFF i 0)
  let s1 := (List.range 4).foldl (fun z i => setF F.PAL_POOL_EFF_EFF i 0 ((new[i]?).getD 0) z) s
  pgReleaseAll (if shrunk && decide (cellsInService s < partsSum s) then raise0 Ev.PAL_POOL_SHRUNK s1 else s1)

/-- A write of a pool size, HP_SIZE or a RESERVED_MIN: `f` makes the change; where the parts then exceed the cells in service it is ignored and CFG_REFUSED is raised (R169). -/
def resizeParts (f : State → State) (s : State) : State :=
  let s1 := f s
  if cellsInService s < partsSum s1 ∧ partsSum s < partsSum s1 then raise0 Ev.PAL_CFG_REFUSED s
  else
    let new := effSizes s1
    pgReleaseAll ((List.range 4).foldl (fun z i => setF F.PAL_POOL_EFF_EFF i 0 ((new[i]?).getD 0) z) s1)

/-- A write of RESERVED_MIN of a queue, with RES_TOTAL (Table 7.6, R426). -/
def setReserved (f : Fld) (ix v : Nat) (s : State) : State :=
  setF F.PAL_STAT2_RES_TOTAL 0 0 (getF s F.PAL_STAT2_RES_TOTAL 0 0 + v - getF s f ix 0) (setF f ix 0 v s)

/-- QUEUE_ADM0: ALPHA 11 to 15 leaves ALPHA as it was (Table 7.7). -/
def writeQueueAdm (cpu : Bool) (ix v : Nat) (s : State) : State :=
  let n : RegName := if cpu then .CPU_QUEUE_ADM else .QUEUE_ADM0
  let old := (reg s n ix 0).toNat
  let v1 := putBits (putBits old 28 (if cpu then 2 else 4) (bits v 28 (if cpu then 2 else 4))) 24 4 (if bits v 24 4 ≤ 10 then bits v 24 4 else bits old 24 4)
  syncPool ⟨if cpu then 3 else 0, ix⟩ (resizeParts (fun z => setReserved ⟨n, 0, 10⟩ ix (bits v 0 10) (setReg n ix 0 (BitVec.ofNat 32 v1) z)) s)

/-- The register that an offset of R169 names, with its unit: 0 to 3 the pool sizes, 4 HP_SIZE, 5 a subscriber queue's RESERVED_MIN, 6 a CPU queue's. -/
def poolOffset (offset : Nat) : Option (Nat × Nat) :=
  if 0xC00020 ≤ offset ∧ offset < 0xC00030 ∧ offset % 4 = 0 then some ((offset - 0xC00020) / 4, 0)
  else if offset = 0xC00030 then some (4, 0)
  else if 0xC80000 ≤ offset ∧ offset < 0xD00000 ∧ offset % 8 = 0 then some (5, (offset - 0xC80000) / 8)
  else if 0xDD0000 ≤ offset ∧ offset < 0xDD0180 ∧ offset % 8 = 0 then some (6, (offset - 0xDD0000) / 8)
  else none

/-- A write of one of the registers of R169. -/
def writePool (which ix v : Nat) (s : State) : State :=
  if which < 4 then resizeParts (setF F.PAL_POOL_SIZE_SIZE which 0 (v % 2 ^ 21)) s
  else if which = 4 then resizeParts (setF F.PAL_HP_SIZE_SIZE 0 0 (v % 2 ^ 21)) s
  else writeQueueAdm (which == 6) ix v s

/-- POOL_SIZE_WRITE (R169): a write of a pool size, HP_SIZE or a word that holds RESERVED_MIN. -/
def execPoolSizeWrite (t offset : Nat) (value : W32) (s : State) : Res :=
  live t (fun s =>
    match poolOffset offset with
    | none => s
    | some (w, ix) => writePool w ix value.toNat s) s

/-! ### Multicast groups (R167) -/

/-- The list of a group. -/
def mcGroup (s : State) (g : Nat) : List Nat := tgetD s.tbl.mc g []

/-- A list with targets written at a position. -/
def mcWritten (old : List Nat) (first : Nat) (truncate : Bool) (targets : List Nat) : List Nat :=
  old.take first ++ targets ++ (if truncate then [] else old.drop (first + targets.length))

/-- Whether a target names a CPU queue 48 to 63. -/
def mcBadTarget (t : Nat) : Bool := bit t 31 && decide (48 ≤ t % 64)

/-- MC_GROUP_WRITE (0x0110, R167). -/
def execMcGroupWrite (h : Hdr) (group first : Nat) (truncate : Bool) (targets : List Nat) (s : State) : Res :=
  runCmd 0x0110 h (fun s => firstBad [bad (decide (65535 < group)) 0, bad (decide ((mcGroup s group).length < first) || decide (4095 < first + targets.length)) 2,
      bad (decide (48 < targets.length)) 4, bad (targets.any mcBadTarget) (8 + 4 * ((targets.findIdx? mcBadTarget).getD 0))])
    (fun _ => some 0) (fun s =>
      let old := mcGroup s group
      let new := mcWritten old first truncate targets
      let used := getF s F.MC_STAT_USED 0 0 + new.length - old.length
      if 1048576 < used then failWith h 0x0110 0x27 (1048576 - getF s F.MC_STAT_USED 0 0) s
      else finish h 0x0110 { detail := new.length } (setF F.MC_STAT_USED 0 0 used { s with tbl := { s.tbl with mc := tset s.tbl.mc group new } })) s

/-- MC_GROUP_READ (0x0111, R167): the list's length and up to MAX targets from a position. -/
def execMcGroupRead (h : Hdr) (group first max : Nat) (s : State) : Res :=
  runCmd 0x0111 h (fun _ => firstBad [bad (decide (65535 < group)) 0, bad (decide (max < 1) || decide (48 < max)) 4]) noCls (fun s =>
    let l := mcGroup s group
    let part := (l.drop first).take max
    let next := if first + part.length < l.length then first + part.length else 0
    finish h 0x0111 { data := leBytes 2 l.length ++ zeros 2 ++ part.flatMap (leBytes 4), cursor := next } s) s

/-! ### Expiry of epochs (R134) -/

/-- An epoch becomes EXPIRED: every packet of it is removed from its queue and counted. -/
def expireEpoch (e : Nat) (s : State) : State :=
  let of (z : State) (c : Copy) : Bool := match pktOf z c.pkt with
    | some p => p.epoch == e
    | none => false
  let n := ((s.pal.copies.filter (fun c => (c.phase = .placing || c.phase = .queued) && of s c)).map Copy.pkt).eraseDups.length
  bump .EPOCH_EXPIRE_DROPS 0 0 n (discardQueued of 0x0D (raise0 Ev.EPOCH_EXPIRED (setEpState e 4 s)))

/-- Whether an epoch has been DRAINING for HOLD_MAX_MS. -/
def holdPassed (s : State) (e : Nat) : Bool :=
  epState s e == 3 && decide (tgetD s.tbl.drainSince e s.clk.mono + getF s F.EPOCH_CFG_HOLD_MAX_MS 0 0 * 1000000 ≤ s.clk.mono)

/-- EPOCH_EXPIRE (R134): an epoch that has been DRAINING for HOLD_MAX_MS becomes EXPIRED. -/
def execEpochExpire (t epoch : Nat) (s : State) : Res :=
  need (decide (epoch < 16)) "epoch" epoch <| live t (fun s => if holdPassed s epoch then expireEpoch epoch s else s) s

/-- A write of EPOCH_CFG (R134): a HOLD_MAX_MS outside 1 to 10,000 is ignored; the new value applies at once to every epoch already DRAINING. -/
def writeHoldMax (v : Nat) (s : State) : State :=
  if bits v 0 14 < 1 ∨ 10000 < bits v 0 14 then s
  else (List.range 16).foldl (fun z e => if holdPassed z e then expireEpoch e z else z) (setF F.EPOCH_CFG_HOLD_MAX_MS 0 0 (bits v 0 14) s)

/-- HOLD_MAX_WRITE (R134). -/
def execHoldMaxWrite (t : Nat) (value : W32) (s : State) : Res := live t (writeHoldMax value.toNat) s

end Sys2Proof.Machine
end

