-- ==== Sys2Proof/Machine/Forward.lean ====
section
/-! DEFINITION. A packet's way outside the Palette: entry to an ingress pipeline (R58 to R80, R237, R240), the egress pass of a copy (R81, R82, R215), transmission (R50, R53 to R56, R82, R176, R344) and errors in a frame's tail (R177). -/

namespace Sys2Proof.Machine

/-! ### Entry to an ingress pipeline -/

/-- Cells that wait in a pipeline's write queue (R159). -/
def writeLevel (s : State) (pipe : Nat) : Nat :=
  ((tgetD s.pal.writeQ pipe []).filterMap (pktOf s)).foldl (fun n p => n + (cdiv p.len 256 - p.cells.length)) 0

/-- Cycles of a cluster clock in ns. -/
def cyclesNs (s : State) (n : Nat) : Nat := n * 1000 / max 1 (getF s F.PWR_STAT1_CORE_MHZ 0 0)

/-- A trace stamp: an instant less INGRESS_TS, saturating (R241). -/
def stampOf (now ts : Nat) : Nat := min 0xFFFFFFFF (now - ts)

/-- Cycles from the parser's entry to stage 0 (Table 3.1). -/
def parseCycles (h : Hdrs) : Nat := 20 + cdiv h.fixedBytes 4 + 2 * h.sketchN

/-- The cycles that a packet has waited for search slots, or behind a packet that waits, when it reaches a stage (R125): none at 100 %, else free values (place 1408) that grow from stage to stage. -/
def heldCycles (s : State) (stage : Nat) : Nat :=
  if maxWait s = 0 then 0 else ((List.range stage).map (fun j => Config.freeValue 1408 (s.free * 32 + j))).sum

/-- The 16 ingress stamps of Table 10.5. -/
def ingressStamps (s : State) (ts : Nat) (h : Hdrs) : List Nat :=
  stampOf s.clk.tod ts :: (List.range 15).map (fun k => stampOf (s.clk.tod + cyclesNs s (parseCycles h + 14 * k + heldCycles s k)) ts)

/-- Whether a packet is a candidate of a trace slot by its source (R240). -/
def traceSource (s : State) (p : Pkt) (k : Nat) : Bool :=
  flag s F.TRACE_CFG_EN k 0 && (getF s F.TRACE_CFG_SOURCE k 0 == 1023 || getF s F.TRACE_CFG_SOURCE k 0 == p.src)

/-- Whether it is one by its TAC, judged at action resolve (R240). -/
def traceTac (s : State) (p : Pkt) (k : Nat) : Bool := !flag s F.TRACE_CFG_TAC_MATCH k 0 || getF s F.TRACE_CFG_TAC k 0 == p.dec.tac

/-- The draws of R240 in slot order, each a value of the pipeline's random generator (log 2): the slots whose draw succeeds. -/
def drawTrace (p : Pkt) : List Nat → State → List Nat × State
  | [], s => ([], s)
  | k :: ks, s =>
    if traceSource s p k then
      let rest := drawTrace p ks (drawn s)
      (if Config.randomDraw p.pipe s.free % 2 ^ getF s F.TRACE_CFG_PROB_LOG2 k 0 == 0 then k :: rest.1 else rest.1, rest.2)
    else drawTrace p ks s

/-- The tag that a packet keeps at action resolve (R240): the lowest slot whose draw succeeded and whose TAC test, if any, holds; its stamps and TRACE_TAGGED. -/
def settleTrace (hits : List Nat) (p : Pkt) (s : State) : Pkt × State :=
  match hits.find? (traceTac s p) with
  | some k =>
    let n := tgetD s.pal.traceCount k 0
    ({ p with trace := some k, traceCount := n + 1, stamps := ingressStamps s p.ts p.hdr },
      bump .TRACE_TAGGED k 0 1 { s with pal := { s.pal with traceCount := tset s.pal.traceCount k (n + 1) } })
  | none => ({ p with trace := none }, s)

/-- An image without tables or Sketch graph, for the fixed parser before any image is in force. -/
def noImage : Image := { id := 0, major := 0, minor := 0, exact := [], lpm := [], policy := [], nodes := [], entries := [] }

/-- A packet enters the fixed parser of a pipeline and runs through its stages (R24, R58, R64 to R80, R127, R237); a control frame runs through them too, so that their counters count it (R65). -/
def enterPipe (pipe : Nat) (e : FifoEnt) (s : State) : State :=
  let ep := curEpoch s
  let c := cfgOfEpoch s ep
  let chain := decide (768 ≤ e.src) && decide (e.src < 772) && getF s F.STL_PORT_STAT_MODE (e.src - 768) 0 == 2
  let h := parseFrame (s.tbl.image.getD noImage) e.frame c chain
  let n := tgetD s.pal.smpCount e.src 0 + 1
  let every := getF s F.SMP_CFG_SAMPLE_N e.src 0
  let p : Pkt := { id := e.id, frame := e.frame, len := e.len, ended := e.ended, tailBad := e.tailBad, src := e.src, pipe := pipe, admClass := e.admClass,
                   iclass := e.iclass, ts := e.ts, tsMono := e.tsMono, tsLast := s.clk.mono, epoch := ep, hdr := h, dec := {},
                   sample := every ≠ 0 && n % every == 0, smpCount := n }
  let s1 := inflight ep true { s with pal := { s.pal with smpCount := tset s.pal.smpCount e.src n } }
  let s2 := bump .PIPE_PARSE_CNT pipe (h.err % 16) 1 s1
  let s3 := if h.limit then bump .PIPE_LIMIT_CNT pipe 0 1 s2 else s2
  let tr := drawTrace p (List.range 16) s3
  let r := runIngress c { p with trace := tr.1.head? } tr.2
  let x := settleTrace tr.1 r.1 r.2
  { x.2 with pal := { x.2.pal with inPipe := tset x.2.pal.inPipe pipe (tgetD x.2.pal.inPipe pipe [] ++ [x.1]) } }

/-- A drain marker enters the pipeline behind the packets that are in it (R17). -/
def passMarker (pipe : Nat) (m : FifoEnt) (s : State) : State :=
  { s with port := { s.port with srcAhead := tset s.port.srcAhead (m.src - 768) ((tgetD s.pal.inPipe pipe []).map Pkt.id) } }

/-- Take the oldest frame of a FIFO; the drain markers before it enter the pipeline ahead of it (R17). -/
def takeFrame (pipe : Nat) (s : State) : State :=
  let s1 := ((fifo s pipe).takeWhile FifoEnt.marker).foldl (fun z m => passMarker pipe m z) s
  match (fifo s pipe).dropWhile FifoEnt.marker with
  | [] => setFifo pipe [] s1
  | e :: rest => enterPipe pipe e (setLevel pipe (getF s1 F.FIFO_STAT_LEVEL pipe 0 - e.len) (setFifo pipe rest s1))

/-- PIPELINE_ENTRY (R58, R159): one clock of an ingress pipeline, up to two packets from its FIFO, unless it is quarantined, asleep or waking, or its write queue is full. -/
def execPipelineEntry (t pipe : Nat) (s : State) : Res :=
  need (decide (pipe < 32)) "pipeline" pipe <| live t (fun s =>
    if flag s F.PIPE_STAT_QUARANTINED pipe 0 || (tget s.pal.waking pipe).isSome then s
    else
      let one (z : State) : State := if 64 ≤ writeLevel z pipe then z else takeFrame pipe z
      one (one s)) s

/-! ### The egress pass -/

/-- A copy selected before another on the same reader whose cells have not all reached egress. -/
def heldBehind (s : State) (c : Copy) : Bool :=
  s.pal.copies.any fun k => k.phase = .reading && decide (k.selSeq < c.selSeq) && readerOf s k.port == readerOf s c.port

/-- The 8 egress stamps of Table 10.5. -/
def egressStamps (s : State) (p : Pkt) : List Nat :=
  (List.range 8).map fun k => stampOf (s.clk.tod + cyclesNs s (parseCycles p.hdr + 9 * k + heldCycles s k)) p.ts

/-- EGRESS_PIPELINE (R81, R82, R164, R215): a copy whose first 512 bytes, or whole frame, have been passed on runs through its egress pipeline; a dropped one closes at point 4. -/
def execEgressPipeline (t copy : Nat) (s : State) : Res :=
  live t (fun s =>
    match copyOf s copy with
    | none => s
    | some c =>
      match pktOf s c.pkt with
      | none => s
      | some p =>
        let pipe := egressPipe s c.port
        if c.phase = .reading ∧ min 2 (cdiv p.len 256) ≤ c.passed ∧ !heldBehind s c ∧ (tget s.pal.waking (32 + pipe)).isNone ∧ !betweenPipes s 1 c.port then
          let r := runEgress p c pipe { s with pal := { s.pal with lastUse := tset s.pal.lastUse (32 + pipe) s.clk.mono } }
          let c1 := { c with phase := .ready, egStamps := if p.trace.isSome then egressStamps s p else [], img := r.img }
          if r.drop ≠ 0 then discard { c1 with phase := .egress } 4 r.drop (setCopy { c1 with phase := .egress } r.s)
          else
            let x := ioamAction p c1 (pipe / 4) r.img.bytes r.s
            setCopy { c1 with img := { r.img with bytes := x.1 } } x.2
        else s) s

/-! ### Transmission -/

/-- A transmit timestamp of a port (R53, R54); the sum with a correction in 1/16 ns is rounded down to 1 ns (DESIGN CHOICE, log 78). -/
def txStamp (s : State) (port : Nat) : Nat :=
  if port < 768 then unsignedOf 64 (((s.clk.tod * 16 : Nat) + signed 16 (getF s F.PORT_PTP_TX_DELAY_ADJ (port / 8) (port % 8))) / 16) else s.clk.tod

/-- A 16-bit checksum updated for bytes [off, off + n) that changed (R55); a zero checksum stays zero. -/
def fixCsum (old new : List Byte) (off n csum : Nat) : List Byte :=
  let hc := beAt old csum 2
  if csum = 0 ∨ hc = 0 then new
  else
    let a := off - (off + csum) % 2
    let len := (off + n - a + 1) / 2 * 2
    let sum := onesSum (beBytes 2 (65535 - hc) ++ beBytes 2 (65535 - onesSum (slice old a len) 0) ++ beBytes 2 (onesSum (slice new a len) 0)) 0
    let v := 65535 - sum
    patch new csum (beBytes 2 (if v = 0 then 65535 else v))

/-- What the MAC makes of a copy's bytes by TS_ACTION (R55, Table 2.16): the frame, and whether its offsets lay outside the frame. -/
def stampFrame (img : TxImage) (tx ingress : Nat) : List Byte × Bool :=
  let f := img.bytes
  let fits (n : Nat) : Bool := decide (img.tsOffset + n ≤ f.length) && decide (img.csumOffset + 2 ≤ f.length)
  if img.tsAction = 2 then
    if fits 10 then (fixCsum f (patch f img.tsOffset (beBytes 6 (tx / 1000000000) ++ beBytes 4 (tx % 1000000000))) img.tsOffset 10 img.csumOffset, false) else (f, true)
  else if img.tsAction = 3 then
    if fits 8 then (fixCsum f (patch f img.tsOffset (beBytes 8 ((beAt f img.tsOffset 8 + (tx + 2 ^ 64 - ingress) % 2 ^ 64 * 65536) % 2 ^ 64))) img.tsOffset 8 img.csumOffset, false) else (f, true)
  else (f, false)

/-- The other port in chain mode. -/
def otherChain (s : State) (n : Nat) : Option Nat := [0, 1, 2, 3].find? (fun m => m ≠ n && getF s F.STL_PORT_STAT_MODE m 0 == 2)

/-- A copy is transmitted completely by a port (R82, R209, R233): frame, counters, timestamp, and the close of its record at point 0. -/
def transmit (c : Copy) (p : Pkt) (port : Nat) (bytes : List Byte) (s : State) : State :=
  let out := bytes.length + 4
  let s1 := emit (.frame port bytes true) (addCtr 1 port 6 1 (addCtr 1 port 7 out s))
  let g := { copyGlaze s1 p c 0 0 with closeTs := c.sentAt, latency := c.latency, outLen := out }
  closeCopy c (closeRecord ⟨g, p, copyCluster s1 c, c.img.key, c.egStamps, false⟩ s1)

/-- The end of a front or Stretcher port's transmission of a copy that is wholly read: the MAC's timestamp action, then the frame.  A capture enters its macro's queue here, so that captures of two ports stand in the order in which their frames end (DESIGN CHOICE, log 78: R56 says 'transmission order'). -/
def completeTx (c : Copy) (p : Pkt) (s : State) : State :=
  if c.port < 768 then
    let x := stampFrame c.img c.sentAt p.ts
    let s1 := if x.2 then addCtr 1 c.port 12 1 s else s
    let s2 := if c.img.tsAction = 1 then tsCapture (c.port / 8) ⟨c.port % 8, c.img.tsTag, c.sentAt⟩ s1 else s1
    transmit c p c.port x.1 s2
  else transmit c p c.port c.img.bytes s

/-- A transmission ended with an error (R45, R177): the bitwise inverse of the correct FCS, counted as a transmit abort. -/
def abortTx (c : Copy) (reason : Nat) (s : State) : State :=
  let s1 := emit (.frame c.port c.img.bytes false) (if c.port < 768 then addCtr 1 c.port 8 1 s else s)
  discard c 5 reason (if reason = 0x10 then raise0 Ev.PAL_RX_TAIL s1 else s1)

/-- The frame that a port is transmitting is ended with an error (R45, R322). -/
def abortSending (port : Nat) (s : State) : State :=
  (s.pal.copies.filter (fun c => c.port == port && c.phase = .sending)).foldl (fun z c => abortTx c 0x07 z) s

/-- A copy's first bit leaves now: CLOSE_TS and LATENCY of its record (R209). -/
def firstBit (c : Copy) (p : Pkt) (s : State) : Copy :=
  let at' := txStamp s c.port
  { c with phase := .sending, sentAt := at', latency := latency32 s at' p }

/-- A chain frame whose port is down is turned back out of the other chain port with WRAPPED set; one that can leave by neither is discarded (R344). -/
def wrapFrame (c : Copy) (p : Pkt) (s : State) : State :=
  let f := patch c.img.bytes 2 (beBytes 2 (putBits (beAt c.img.bytes 2 2) 15 1 1))
  match otherChain s (c.port - 768) with
  | some m =>
    if stlUp s m && !bit (beAt c.img.bytes 2 2) 15 then transmit (firstBit c p s) p (768 + m) f (raise0 Ev.CHAIN_WRAP (bump .CHAIN_WRAP_CNT 0 0 1 s))
    else discard c 3 0x07 (bump .CHAIN_TTL_DROP 0 0 1 s)
  | none => discard c 3 0x07 s

/-- A copy of the port that was selected before and has not left yet. -/
def behindOnPort (s : State) (c : Copy) : Bool :=
  s.pal.copies.any fun k => k.port == c.port && decide (k.selSeq < c.selSeq) && (k.phase = .reading || k.phase = .egress || k.phase = .ready || k.phase = .sending)

/-- Whether the MAC may begin a copy (R176): the frame is wholly written, or enough of it for its port's speed. -/
def mayBegin (s : State) (c : Copy) (p : Pkt) : Bool :=
  let rin := speedOf s p.src
  let rout := max 1 (speedOf s c.port)
  !p.writing || decide ((rout - rin) * maxFrameIn s p.src + 256 * rout ≤ 256 * p.cells.length * rout)

/-- Whether a received pause keeps a copy of a front port from beginning (R51): its class is paused, and 200 ns and the time of one 16,352-byte frame at the port's speed have passed since the pause began. -/
def pauseHolds (s : State) (c : Copy) : Bool :=
  queuePaused s c.node &&
    (match tget (portRt s c.port).pausedSince (nodeClass s c.node) with
    | some a => decide (a * 1000 + 200000 + 16352 * 8 * 1000 / max 1 (portGbps s c.port) < s.clk.mono * 1000)
    | none => false)

/-- The MAC begins a copy, and ends it where it is wholly there. -/
def beginTx (c : Copy) (p : Pkt) (s : State) : State :=
  let c1 := firstBit c p s
  if !p.writing && allRead s c then completeTx c1 p s else setCopy c1 s

/-- A transmission in progress (R45, R177): it ends with an error where its port has gone down, and completes once the whole frame has been received and read. -/
def continueTx (c : Copy) (p : Pkt) (s : State) : State :=
  if nodeDown s c.port || (decide (768 ≤ c.port) && !stlUp s (c.port - 768)) then abortTx c 0x07 s
  else if !p.writing && allRead s c then completeTx c p s
  else s

/-- FRAME_TX (R50, R51, R82, R176, R196, R344): the MAC's next step on a copy that is ready or in transmission, in selection order on its port and behind MAC control frames. -/
def execFrameTx (t copy : Nat) (s : State) : Res :=
  live t (fun s =>
    match copyOf s copy with
    | none => s
    | some c =>
      match pktOf s c.pkt with
      | none => s
      | some p =>
        if c.port = 772 then s
        else if c.phase = .sending then continueTx c p s
        else if c.phase ≠ .ready ∨ behindOnPort s c then s
        else if p.tailBad then discard c 3 0x10 s
        else if c.port < 768 then
          if !portIsUp s c.port then discard c 3 0x07 s
          else if !macIdle s c.port || exportWaits s c.port || pauseHolds s c || !mayBegin s c p then s
          else beginTx c p s
        else if stlIsDown s (c.port - 768) then
          (if getF s F.STL_PORT_STAT_MODE (c.port - 768) 0 = 2 then wrapFrame c p s else discard c 3 0x07 s)
        else if !stlUp s (c.port - 768) || flag s F.STL_PORT_STAT_XOFF_RX (c.port - 768) 0 || !mayBegin s c p then s
        else beginTx c p s) s

/-! ### Errors in a frame's tail (R177) -/

/-- The verdict on a frame's tail reaches it wherever it stands. -/
def settleTail (id : Nat) (good : Bool) (s : State) : State :=
  let ent (e : FifoEnt) : FifoEnt := if e.id = id then { e with ended := true, tailBad := !good } else e
  let pk (p : Pkt) : Pkt := if p.id = id then { p with ended := true, tailBad := !good } else p
  { s with pal := { s.pal with
    fifo := s.pal.fifo.map (fun x => (x.1, x.2.map ent))
    inPipe := s.pal.inPipe.map (fun x => (x.1, x.2.map pk))
    pkts := s.pal.pkts.map pk } }

/-- RX_TAIL_ERROR (R177): the end of a frame whose head has entered its pipeline.  A bad tail drops it at action resolve or at dequeue, and ends a cut-through copy in transmission with an inverse FCS; a good one completes the reception (log 24). -/
def execRxTailError (t port : Nat) (good : Bool) (s : State) : Res :=
  need (decide (port < 768)) "port" port <| live t (fun s =>
    match (portRt s port).rxOpen with
    | none => s
    | some (id, len) =>
      let s1 := settleTail id good (setPortRt port { portRt s port with rxOpen := none } s)
      if good then rxGood port len s1
      else (s1.pal.copies.filter (fun c => c.pkt == id && c.phase = .sending)).foldl (fun z c => abortTx c 0x10 z) (addCtr 1 port 2 1 s1)) s

end Sys2Proof.Machine
end

