-- ==== Sys2Proof/Machine/Links.lean ====
section
/-! DEFINITION. Configuration and bring-up of port macros and Ethernet ports (R34, R38 to R48): link loss, PORT_MACRO_CFG, soft start and short protection, auto-negotiation, training, link state and fault signalling. -/

namespace Sys2Proof.Machine

/-! ### Link state (R44, R45) -/

/-- What a port's transmitter sends: 0 frames, 1 idle, 2 remote fault, in response to a local fault; 3 nothing, where a driver of it is not ON (R44, Table 2.2). -/
def portSignal (s : State) (p : Nat) : Nat :=
  if portIsUp s p then 0 else if !lanesOn s p then 3 else if (portRt s p).fault = 1 then 2 else 1

/-- The transmitter's signal appears on the port's balls. -/
def showSignal (p : Nat) (s : State) : State := emit (.signal p (portSignal s p)) s

/-- What the loss of a port's link does to the frames in the MAC: one being transmitted is ended with an error as a transmit abort (R45); one being received has a bad tail (R177), which counts in no receive counter (R44). -/
def dropInMac (p : Nat) (s : State) : State :=
  let s1 := abortSending p s
  match (portRt s1 p).rxOpen with
  | none => s1
  | some (id, _) =>
    let s2 := settleTail id false (setPortRt p { portRt s1 p with rxOpen := none } s1)
    (s2.pal.copies.filter (fun c => c.pkt == id && c.phase = .sending)).foldl (fun z c => abortTx c 0x10 z) s2

/-- In-band replies formed at a port that goes down are discarded: each command stops being outstanding, and its effect stands (R289). -/
def dropReplies (p : Nat) (s : State) : State :=
  (s.cmd.ibDue.filter (fun d => d.1 == p)).foldl (fun z d => dropOut d.2.2 z)
    { s with cmd := { s.cmd with ibDue := s.cmd.ibDue.filter (fun d => d.1 ≠ p) } }

/-- A port loses its link (R44, R45), by a local fault or where the partner's remote fault is received: PORT_UP clears with LINK_CHANGE where it was set, bring-up starts over, and no received pause is left. -/
def linkLost (remote : Bool) (p : Nat) (s0 : State) : State :=
  let s := dropReplies p (dropInMac p s0)
  let r := portRt s p
  let s1 := setPortRt p { r with anDone := false, ltDone := false, lockSince := none, anRetryAt := none, pauseRx := [], pausedSince := [], toSend := [],
                                 fault := if remote then 2 else 1 } s
  showSignal p <| if portIsUp s p then
    let up := getF s F.MAC_MACRO_CFG_PORT_UP (p / 8) 0
    raise Ev.MAC_LINK_CHANGE (p / 8) 0
      (setF F.PORT_STAT_PAUSED_RX (p / 8) (p % 8) 0 (setF F.MAC_MACRO_CFG_PORT_UP (p / 8) 0 (putBit up (p % 8) false) s1))
  else s1

/-- A port goes down by a fault of its own. -/
def linkDown (p : Nat) (s : State) : State := linkLost false p s

/-- Every port of a macro goes down. -/
def macPortsDown (m : Nat) (s : State) : State :=
  (List.range 8).foldl (fun z l => if bit (getF s F.MAC_MACRO_CFG_PORT_START m 0) l then linkDown (8 * m + l) z else z) s

/-- The port of a driver goes down where the driver is not ON (R48); a Stretcher port's lanes act by its own rules. -/
def drvLinkCheck (mac lane : Nat) (s : State) : State :=
  if mac < 96 then
    match portOfLane s mac lane with
    | some p => if lanesOn s p then s else linkDown p s
    | none => s
  else s

/-- A macro is taken out of service: its ports go down and its lanes to OFF (R381). -/
def macroOut (m : Nat) (s : State) : State :=
  setMapBit .MACRO_FAILED m true ((List.range 8).foldl (fun z l => drvOff m l z) (macPortsDown m s))

/-- A port macro fails (R381): its lanes go to OFF, its ports go down, FLT_MACRO_FAIL is raised. -/
def failMacro (m : Nat) (s : State) : State :=
  if macFailed s m then s else raise Ev.FLT_MACRO_FAIL m 0 (macroOut m s)

/-- HIF_ID1.MACROS_EN. -/
def countMacros (s : State) : State :=
  setF F.HIF_ID1_MACROS_EN 0 0 (countIx 96 (macEnabled s)) s

/-! ### Configuration (R34, R38, R39) -/

/-- PORT_MACRO_CFG's checks with ENABLE = 1 (steps 10 and 11, R33, R34, R38, R39). -/
def macroChecks (p : MacroCfg) : Chk :=
  let starts (l : Nat) : Bool := bit p.portStart l
  firstBad ([
    bad (decide (95 < p.mac)) 0,
    resv (decide (2 < p.laneRate)) 2 p.laneRate,
    bad (decide (2 < p.reach)) 3,
    bad (p.directDrive && p.reach ≠ 0) 1,
    bad (!layoutOk p.portStart) 4,
    bad (p.laneRate = 0 && p.portStart = 1 && p.reach ≠ 0) 3,
    bad ((List.range 8).any (fun l => bit p.anEn l && !starts l) || (p.anEn ≠ 0 && p.reach = 0)) 5,
    bad (!permOk p.txLane) 8, bad (!permOk p.rxLane) 12] ++
    (List.range 8).map fun l =>
      let f := (p.maxFrame[l]?).getD 0
      bad (if starts l then decide (f < 64) || decide (16352 < f) else f ≠ 0) (20 + 2 * l))

/-- Whether a quarantine or return that moves the pipeline serving a macro is being applied (R34, R378, R379): one decided for the pipeline that serves it, or the copy behind one or the return of its own. -/
def pipeMoving (s : State) (m : Nat) : Bool :=
  [0, 1].any (fun dir => s.flt.quarantining.contains (32 * dir + servingPipe s dir (m / 3))) ||
    s.flt.copying.any (fun q => q % 32 == m / 3) || s.flt.returns.any (fun r => r.kind == 0 && r.index % 32 == m / 3)

/-- A macro is powered off (R34, R47): lanes OFF, driver counts cleared, no equaliser active, its place in the licensed count returned.  A failed macro is failed no longer, and can be enabled again without MACRO_RETURN (DESIGN CHOICE, log 78: R34 accepts the disable and does not say). -/
def disableMacro (m : Nat) (s : State) : State :=
  let s1 := macPortsDown m s
  let s2 := (List.range 8).foldl (fun z l =>
    setRetry m l 0 (drvOff m l z) |> setF F.LANE_STAT_TRIP_TOTAL m l 0 |> setF F.LANE_STAT_OC_GLITCH m l 0 |> setF F.LANE_RXEQ_DD_EXT m l 0) s1
  let s3 := setMacRt m { macRt s2 m with cfg := none, powered := false, wakeAt := none } s2
  countMacros (setF F.MAC_MACRO_CFG_ENABLED m 0 0 (setF F.MAC_MACRO_CFG_PORT_START m 0 0 (setF F.MAC_MACRO_CFG_PORT_UP m 0 0
    (setMapBit .MACRO_FAILED m false s3))))

/-- The settings of a PORT_MACRO_CFG in the macro's registers. -/
def applyMacro (p : MacroCfg) (s : State) : State :=
  let m := p.mac
  let s1 := setF F.MAC_MACRO_CFG_ENABLED m 0 1 s |> setF F.MAC_MACRO_CFG_LANE_RATE m 0 p.laneRate
    |> setF F.MAC_MACRO_CFG_REACH m 0 p.reach |> setF F.MAC_MACRO_CFG_DIRECT_DRIVE m 0 (b2n p.directDrive)
    |> setF F.MAC_MACRO_CFG_PORT_START m 0 p.portStart |> setF F.MAC_TXMAP_TX_LANE m 0 p.txLane
    |> setF F.MAC_RXMAP_RX_LANE m 0 p.rxLane |> setF F.MAC_POL_TX_INV m 0 p.txInv |> setF F.MAC_POL_RX_INV m 0 p.rxInv
  let s2 := (List.range 8).foldl (fun z l => setF F.LANE_RXEQ_DD_EXT m l (b2n p.directDrive) z) s1
  countMacros (setMacRt m { macRt s2 m with cfg := some p } s2)

/-- PORT_MACRO_CFG with ENABLE = 1: licence, busy conditions, then the settings; a powered macro's lanes enter RAMP at once, another's after a wake of 500 µs (R7, R34, R46).  While a wake runs, another PORT_MACRO_CFG starts it over (DESIGN CHOICE, log 78: the spec does not say). -/
def configureMacro (h : Hdr) (p : MacroCfg) (s : State) : State :=
  let m := p.mac
  let was := macEnabled s m
  if !was && decide (licensedMacros s ≤ countIx 96 (macEnabled s)) then failWith h 0x0401 0x15 0 s
  else if pipeMoving s m || macFailed s m then failWith h 0x0401 0x24 0 s
  else
    let s1 := applyMacro p (if was then macPortsDown m s else s)
    let s2 := if (macRt s1 m).powered then (List.range 8).foldl (fun z l => drvStart m l z) s1
      else setMacRt m { macRt s1 m with wakeAt := some (s1.clk.mono + 500000) } s1
    ok h 0x0401 s2

/-- PORT_MACRO_CFG (0x0401, R34): with ENABLE = 0 only MACRO is checked and the macro is disabled in every state. -/
def execPortMacroCfg (h : Hdr) (p : MacroCfg) (s : State) : Res :=
  runCmd 0x0401 h (fun _ => if p.enable then macroChecks p else firstBad [bad (decide (95 < p.mac)) 0]) (fun _ => some 4)
    (fun s => if p.enable then configureMacro h p s else ok h 0x0401 (disableMacro p.mac s)) s

/-- PORT_MACRO_CFG with ENABLE = 0 (R34). -/
def execPortMacroDisable (h : Hdr) (mac : Nat) (s : State) : Res :=
  runCmd 0x0401 h (fun _ => firstBad [bad (decide (95 < mac)) 0]) (fun _ => some 4) (fun s => ok h 0x0401 (disableMacro mac s)) s

/-! ### The Clause 73 base page (R42) -/

/-- The base page of a CR or KR port: the PHY types of its own width at the macro's lane rate, none at 400 Gb/s over 8 lanes (Table 2.1), and PAUSE ability where FLOW_MODE is PAUSE (DEDUCED, log 78: R42 says 'according to FLOW_MODE'). -/
def basePage (s : State) (p : Nat) : BasePage :=
  let has := trains s p && !(laneGbps s (p / 8) == 50 && portWidth s p == 8)
  { gbps := portGbps s p, width := portWidth s p, cr := has, kr := has, pause := flowMode s p == 1 }

/-- Whether two base pages share a PHY type. -/
def sharesType (a b : BasePage) : Bool := a.gbps == b.gbps && a.width == b.width && (a.cr && b.cr || a.kr && b.kr)

/-- A port that negotiates sends its base page on its logical lane 0. -/
def sendPage (p : Nat) (s : State) : State := if startsPort s p && anOn s p && lanesOn s p then emit (.basePage p (basePage s p)) s else s

/-- The port of a front lane begins to negotiate once its last lane is ON (R42, R48). -/
def advertise (mac lane : Nat) (s : State) : State :=
  if mac < 96 then
    match portOfLane s mac lane with
    | some p => sendPage p s
    | none => s
  else s

/-! ### Driver events; `mac` 96 to 99 names Stretcher ports, 100 STL_REFO -/

/-- RAMP_COMPLETE (R46): 20 µs after the ramp began the driver is ON. -/
def execRampComplete (t mac lane : Nat) (s : State) : Res :=
  need (drvExists mac lane) "lane driver" (8 * mac + lane) <| live t (fun s =>
    if drvState s mac lane = 1 ∧ (laneRt s mac lane).rampAt + 20000 ≤ s.clk.mono then
      advertise mac lane (setLaneRt mac lane { laneRt s mac lane with onSince := s.clk.mono } (setDrv mac lane 2 s))
    else s) s

/-- The event of a trip and of a latch for a driver; STL_REFO has none. -/
def drvEvent (front stl mac : Nat) (s : State) : State :=
  if mac < 96 then raise front mac 0 s else if mac < 100 then raise stl (mac - 96) 0 s else s

/-- TX_TRIP (R46): an overcurrent has lasted 2 µs in RAMP or ON: SHORT_WAIT, or LATCHED where RETRY_COUNT is 8; TRIP_TOTAL saturates at 255. -/
def execTxTrip (t mac lane : Nat) (s : State) : Res :=
  need (drvExists mac lane) "lane driver" (8 * mac + lane) <| live t (fun s =>
    if drvState s mac lane = 1 ∨ drvState s mac lane = 2 then
      let latch := drvRetry s mac lane = 8
      let s1 := setLaneRt mac lane { laneRt s mac lane with tripAt := s.clk.mono } (setDrv mac lane (if latch then 4 else 3) s)
        |> bumpSat ⟨drvTrip mac, 16, 8⟩ (drvUnit mac) lane 1 |> drvEvent Ev.MAC_TX_SHORT Ev.STL_TX_SHORT mac
      drvLinkCheck mac lane (if latch then drvEvent Ev.MAC_TX_LATCHED Ev.STL_TX_LATCHED mac s1 else s1)
    else s) s

/-- OC_GLITCH (R46): an overcurrent that ends within 2 µs is counted. -/
def execOcGlitch (t mac lane : Nat) (s : State) : Res :=
  need (drvExists mac lane) "lane driver" (8 * mac + lane) <| live t (fun s =>
    if drvState s mac lane = 1 ∨ drvState s mac lane = 2 then bumpSat ⟨drvTrip mac, 0, 16⟩ (drvUnit mac) lane 1 s else s) s

/-- SHORT_RETRY (R46): 100 ms after the trip, RETRY_COUNT + 1, then RAMP. -/
def execShortRetry (t mac lane : Nat) (s : State) : Res :=
  need (drvExists mac lane) "lane driver" (8 * mac + lane) <| live t (fun s =>
    if drvState s mac lane = 3 ∧ (laneRt s mac lane).tripAt + 100000000 ≤ s.clk.mono then
      setLaneRt mac lane { laneRt s mac lane with rampAt := s.clk.mono }
        (setDrv mac lane 1 (setRetry mac lane (drvRetry s mac lane + 1) s))
    else s) s

/-- RETRY_CLEAR (R47): ON for 1 s with no trip. -/
def execRetryClear (t mac lane : Nat) (s : State) : Res :=
  need (drvExists mac lane) "lane driver" (8 * mac + lane) <| live t (fun s =>
    if drvState s mac lane = 2 ∧ (laneRt s mac lane).onSince + 1000000000 ≤ s.clk.mono then setRetry mac lane 0 s else s) s

/-- A write of REARM = 1: LATCHED leaves to RAMP, or OFF where TX_SQUELCH is 1, with RETRY_COUNT 0 (Table 2.10). -/
def rearmDrv (mac lane : Nat) (s : State) : State :=
  if drvState s mac lane = 4 then drvStart mac lane (setDrv mac lane 0 (setRetry mac lane 0 s)) else s

/-- A write of TX_SQUELCH (R47). -/
def squelchDrv (mac lane : Nat) (sq : Bool) (s : State) : State :=
  let s1 := setF ⟨drvCtl mac, 0, 1⟩ (drvUnit mac) lane (b2n sq) s
  let st := drvState s mac lane
  if sq && (st == 1 || st == 2 || st == 3) then drvLinkCheck mac lane (setRetry mac lane 0 (setDrv mac lane 0 s1))
  else if !sq then drvStart mac lane s1
  else s1

/-- REARM (R47). -/
def execRearm (t mac lane : Nat) (s : State) : Res :=
  need (drvExists mac lane) "lane driver" (8 * mac + lane) <| live t (rearmDrv mac lane) s

/-- TX_SQUELCH (R47). -/
def execTxSquelch (t mac lane : Nat) (squelch : Bool) (s : State) : Res :=
  need (drvExists mac lane) "lane driver" (8 * mac + lane) <| live t (squelchDrv mac lane squelch) s

/-- The words of LANE_TXEQ after a write (R41): C_MAIN lowered until the five taps sum to 63; none where the other four alone exceed 63. -/
def txeqApplied (old v : Nat) : Option Nat :=
  let others := (signed 6 (bits v 24 6)).natAbs + (signed 6 (bits v 12 6)).natAbs + (signed 6 (bits v 6 6)).natAbs + (signed 6 (bits v 0 6)).natAbs
  if 63 < others then none
  else some (putBits (putBits old 0 30 (bits v 0 30)) 18 6 (min (bits v 18 6) (63 - others)))

/-- A write of a lane's TXEQ register: ignored while link training runs or its taps are shown (R40), else R41. -/
def writeTxeq (mac lane v : Nat) (s : State) : State :=
  let n : RegName := if mac < 96 then .LANE_TXEQ else .STL_LANE_TXEQ
  let locked := decide (mac < 96) && (match portOfLane s mac lane with
    | some p => inTraining s p || (trains s p && (portRt s p).ltDone)
    | none => false)
  if locked then s
  else match txeqApplied (reg s n (drvUnit mac) lane).toNat v with
    | none => s
    | some w => setReg n (drvUnit mac) lane (BitVec.ofNat 32 w) s

/-- LANE_TXEQ_WRITE (R40, R41). -/
def execLaneTxeqWrite (t mac lane : Nat) (value : W32) (s : State) : Res :=
  need (decide (mac < 100) && decide (lane < 8)) "lane" (8 * mac + lane) <| live t (writeTxeq mac lane value.toNat) s

/-! ### Bring-up (R42 to R44) -/

/-- Negotiation has found no common ability: AN_FAIL, and it restarts 1 s later (R42). -/
def anFailed (port : Nat) (s : State) : State :=
  raise Ev.MAC_AN_FAIL (port / 8) 0 (setPortRt port { portRt s port with anRetryAt := some (s.clk.mono + 1000000000) } s)

/-- AN_COMPLETE (R42): the partner's base page is received; with a common PHY type link training begins, without one the port stays down. -/
def execAnComplete (t : Nat) (page : AnPage) (s : State) : Res :=
  let port := page.port
  need (decide (port < 768)) "port" port <| live t (fun s =>
    if startsPort s port && anOn s port && lanesOn s port && !(portRt s port).anDone then
      if sharesType (basePage s port) page.partner then setPortRt port { portRt s port with anDone := true, ltDone := false, anRetryAt := none } s
      else anFailed port s
    else s) s

/-- AN_RESTART (R42): no partner with a common ability has answered: AN_FAIL, and negotiation restarts every 1 s. -/
def execAnRestart (t port : Nat) (s : State) : Res :=
  need (decide (port < 768)) "port" port <| live t (fun s =>
    let due := match (portRt s port).anRetryAt with
      | some r => decide (r ≤ s.clk.mono)
      | none => true
    if startsPort s port && anOn s port && lanesOn s port && !(portRt s port).anDone && due then sendPage port (anFailed port s)
    else s) s

/-- LT_FAIL (R43): training failed: back to negotiation, or to training where it is off. -/
def execLtFail (t port : Nat) (s : State) : Res :=
  need (decide (port < 768)) "port" port <| live t (fun s =>
    if inTraining s port then
      sendPage port (raise Ev.MAC_LT_FAIL (port / 8) 0 (setPortRt port { portRt s port with anDone := false, ltDone := false } s))
    else s) s

/-- Show trained taps in LANE_TXEQ of a port's lanes, one word per logical lane (R40). -/
def showTaps (m : Nat) : List Nat → List Nat → State → State
  | q :: qs, w :: ws, s => showTaps m qs ws (setReg .LANE_TXEQ m q (BitVec.ofNat 32 (putBits (reg s .LANE_TXEQ m q).toNat 0 30 w)) s)
  | _, _, s => s

/-- LINK_TRAINING_DONE (R40, R43): the trained taps appear and PCS alignment begins. -/
def execLinkTrainingDone (t port : Nat) (taps : List Nat) (s : State) : Res :=
  need (decide (port < 768)) "port" port <| live t (fun s =>
    if inTraining s port then
      showTaps (port / 8) (txLanes s port) taps (setPortRt port { portRt s port with ltDone := true } s)
    else s) s

/-- PCS_LOCK (R44): block lock, alignment and deskew on every lane, with no fault received; the 1 ms hold starts and the transmitter sends idle. -/
def execPcsLock (t port : Nat) (s : State) : Res :=
  need (decide (port < 768)) "port" port <| live t (fun s =>
    if pcsReady s port && (portRt s port).lockSince == none then
      showSignal port (setPortRt port { portRt s port with lockSince := some s.clk.mono, fault := 0 } s)
    else s) s

/-- PORT_UP (R44): lock held for 1 ms with no local fault. -/
def execPortUp (t port : Nat) (s : State) : Res :=
  need (decide (port < 768)) "port" port <| live t (fun s =>
    match (portRt s port).lockSince with
    | none => s
    | some l =>
      if pcsReady s port && !portIsUp s port && decide (l + 1000000 ≤ s.clk.mono) then
        showSignal port (raise Ev.MAC_LINK_CHANGE (port / 8) 0
          (setF F.MAC_MACRO_CFG_PORT_UP (port / 8) 0 (putBit (getF s F.MAC_MACRO_CFG_PORT_UP (port / 8) 0) (port % 8) true) s))
      else s) s

/-- PORT_DOWN (R44): the port has lost lock, alignment or deskew, or receives remote fault; either begins the bring-up over. -/
def execPortDown (t : Nat) (loss : LineLoss) (s : State) : Res :=
  need (decide (loss.port < 768)) "port" loss.port <| live t (fun s => if startsPort s loss.port then linkLost loss.remote loss.port s else s) s

end Sys2Proof.Machine
end

