-- ==== Sys2Proof/Machine/Stretcher.lean ====
section
/-! DEFINITION. The Stretcher link (Chapter 14): configuration, blind bring-up, lane degrade and restore, flow control and the shared reference.  Frames, blocks and the last gasp stand with the twin and the chain (Twin). -/

namespace Sys2Proof.Machine

/-- A Stretcher port beside its registers. -/
def stlPort (s : State) (n : Nat) : StlPort := tgetD s.stl.ports n {}

/-- Set it. -/
def setStlPort (n : Nat) (x : StlPort) (s : State) : State := { s with stl := { s.stl with ports := tset s.stl.ports n x } }

/-- A lane of a Stretcher port beside its registers. -/
def stlLane (s : State) (n l : Nat) : StlLane := tgetD s.stl.lanes (n, l) {}

/-- Set it. -/
def setStlLane (n l : Nat) (x : StlLane) (s : State) : State := { s with stl := { s.stl with lanes := tset s.stl.lanes (n, l) x } }

/-- The encoding of a number of lanes in LANES and WIDTH (Table 14.6). -/
def lanesCode (w : Nat) : Nat := if w = 8 then 3 else if w = 4 then 2 else if w = 2 then 1 else 0

/-- The lowest-numbered lane group of a width of Table 14.2 in a mask of good lanes. -/
def groupOf (mask w : Nat) : Option (List Nat) :=
  (List.range (8 / w)).findSome? fun g =>
    let ls := (List.range w).map (g * w + ·)
    if ls.all (bit mask) then some ls else none

/-- The active lanes under R321: the widest group up to a width, none where no group exists. -/
def bestGroup (mask w : Nat) : Option (List Nat) :=
  [8, 4, 2].findSome? fun k => if k ≤ w then groupOf mask k else none

/-- LANES of a port, as a number. -/
def stlLanes (s : State) (n : Nat) : Nat := 2 ^ getF s F.STL_PORT_STAT_LANES n 0 % 9

/-- The physical lane on which a logical lane of a port is received (R320). -/
def physLane (s : State) (n logical : Nat) : Option Nat :=
  firstIx 8 fun l => flag s F.STL_LANE_STAT_ALIGNED n l && getF s F.STL_LANE_STAT_RX_LOGICAL n l == logical

/-- A link word's fields (Table 14.3): bytes 1 to 3 as one number, byte 1 lowest. -/
def linkMode (w : Nat) : Nat := bits w 12 2
/-- LANES of a link word. -/
def linkLanes (w : Nat) : Nat := bits w 14 2
/-- GOOD_MASK of a link word. -/
def linkGood (w : Nat) : Nat := bits w 16 8

/-- Whether a link word meets R321 for a group: LOCK = 1, the local MODE and LANES, and a GOOD_MASK that yields the same group. -/
def linkAgrees (s : State) (n : Nat) (g : List Nat) (w : Nat) : Bool :=
  bit w 0 && linkMode w == getF s F.STL_PORT_STAT_MODE n 0 && linkLanes w == getF s F.STL_PORT_STAT_LANES n 0 &&
    bestGroup (Nat.land (getF s F.STL_PORT_STAT_GOOD_LOCAL n 0) (linkGood w)) (stlLanes s n) == some g

/-- A chain port's going down is a BREAK (Table 15.8). -/
def chainBreak (n : Nat) (s : State) : State :=
  if getF s F.STL_PORT_STAT_MODE n 0 = 2 then raise0 Ev.CHAIN_BREAK s else s

/-- A twin port's going out of UP: the instant since when no twin port has been UP (R334). -/
def twinDownMark (s : State) : State :=
  if [0, 1].any (fun n => stlUp s n && getF s F.STL_PORT_STAT_MODE n 0 == 1) then s
  else match s.twin.downSince with
    | some _ => s
    | none => { s with twin := { s.twin with downSince := some s.clk.mono } }

/-- A chain frame that arrived on a port and must leave by the other leaves (R343), or is turned back out of the port it came from with WRAPPED set where the other is not UP (R344). -/
def passOn (n : Nat) (f : List Byte) (s : State) : State :=
  let m := 5 - n
  if stlUp s m && getF s F.STL_PORT_STAT_MODE m 0 == 2 then bump .CHAIN_TRANSIT_CNT 0 0 1 (stlSend m (beAt f 0 1 % 16) f s)
  else if bit (beAt f 2 2) 15 || !stlUp s n then bump .CHAIN_TTL_DROP 0 0 1 s
  else raise0 Ev.CHAIN_WRAP (bump .CHAIN_WRAP_CNT 0 0 1 (stlSend n (beAt f 0 1 % 16) (patch f 2 (beBytes 2 (putBits (beAt f 2 2) 15 1 1))) s))

/-- The transit buffer behind a receiving port empties, unless the far end of the port it leaves by holds frames back (R317, R343). -/
def drainTransit (n : Nat) (s : State) : State :=
  if flag s F.STL_PORT_STAT_XOFF_RX (5 - n) 0 && stlUp s (5 - n) then s
  else (tgetD s.chain.transit n []).foldl (fun z f => passOn n f z) { s with chain := { s.chain with transit := terase s.chain.transit n } }

/-- Frames formed here that wait for a port's far end try again to leave (R317, R344). -/
def sendHeld (n : Nat) (s : State) : State :=
  (s.chain.held.filter (fun h => h.1 == n)).foldl (fun z h => chainOut n h.2.1 h.2.2 z)
    { s with chain := { s.chain with held := s.chain.held.filter (fun h => h.1 ≠ n) } }

/-- Frames that wait for a port, formed here or in the transit buffer that feeds it. -/
def sendWaiting (n : Nat) (s : State) : State := if n < 2 then sendHeld n s else drainTransit (5 - n) (sendHeld n s)

/-- UP clears with LINK_CHANGE where it was set: the frame in transmission is aborted (R322), one in reception is lost, no FLOW is sent, and frames that waited for the port are turned back (R344). -/
def clearUp (n : Nat) (s : State) : State :=
  let s1 := setStlPort n { stlPort s n with rx := none, upSince := none, flowTxAt := none } s
  if stlUp s n then
    sendWaiting n (twinDownMark (raise Ev.STL_LINK_CHANGE n 0 (setF F.STL_PORT_STAT_XOFF_TX n 0 0 (setF F.STL_PORT_STAT_UP n 0 0 (abortSending (768 + n) s1)))))
  else s1

/-- A port goes down (R322, R327, R328): neither UP nor in RESIZE, no active lane. -/
def stlDown (n : Nat) (s : State) : State :=
  if stlIsDown s n then s
  else chainBreak n (setF F.STL_PORT_STAT_RESIZE n 0 0 (setF F.STL_PORT_STAT_WIDTH n 0 0
    (setStlPort n { stlPort (clearUp n s) n with active := [], resizeAt := none } (clearUp n s))))

/-- A port that is UP enters RESIZE (R322): WIDTH_CHANGE, UP = 0. -/
def enterResize (n : Nat) (s : State) : State :=
  if stlUp s n then
    let s1 := clearUp n s
    raise Ev.STL_WIDTH_CHANGE n 0 (setF F.STL_PORT_STAT_RESIZE n 0 1 (setStlPort n { stlPort s1 n with resizeAt := some s1.clk.mono } s1))
  else s

/-- A port becomes UP on a group of lanes (R321).  A chain port with a DEV_ID begins to join (R340); a twin port makes the twin link up (R339). -/
def goUp (n : Nat) (g : List Nat) (s : State) : State :=
  let s1 := setStlPort n { stlPort s n with active := g, resizeAt := none, upSince := some s.clk.mono } s
  let s2 := setF F.STL_PORT_STAT_RESIZE n 0 0 (setF F.STL_PORT_STAT_UP n 0 1 (setF F.STL_PORT_STAT_WIDTH n 0 (lanesCode g.length) s1))
  let s3 := raise Ev.STL_LINK_CHANGE n 0 s2
  if getF s F.STL_PORT_STAT_MODE n 0 = 1 then
    setF F.TWIN_STAT_LINK_UP 0 0 1 { s3 with twin := { s3.twin with downSince := none } }
  else if devId s3 ≠ 0 ∧ getF s3 F.CHAIN_STAT_CSTATE 0 0 = 0 then setF F.CHAIN_STAT_CSTATE 0 0 1 s3
  else s3

/-- Bring a port's lock, RESIZE and UP in line with its lanes and link words (R321, R322). -/
def evalPort (n : Nat) (s : State) : State :=
  let both := Nat.land (getF s F.STL_PORT_STAT_GOOD_LOCAL n 0) (getF s F.STL_PORT_STAT_GOOD_REMOTE n 0)
  let g := bestGroup both (stlLanes s n)
  let s1 := setF F.STL_PORT_STAT_LOCAL_LOCK n 0 (b2n g.isSome) s
  if stlUp s n then
    if (stlPort s n).active.all (bit both) then s1 else enterResize n s1
  else match g with
    | none => s1
    | some ls =>
      if (stlPort s n).enabled && flag s F.STL_REF_REF_LOCK 0 0 && ls.all (fun i =>
          match physLane s n i with
          | none => false
          | some l => (stlLane s n l).links.length == 32 && (stlLane s n l).links.all (linkAgrees s n ls))
      then goUp n ls s1 else s1

/-- Whether a lane is good: ALIGNED and DESKEWED (R320). -/
def laneGood (s : State) (n l : Nat) : Bool := flag s F.STL_LANE_STAT_ALIGNED n l && flag s F.STL_LANE_STAT_DESKEWED n l

/-- GOOD_LOCAL from the lanes (R320), and since when each logical lane is good at both ends (R323). -/
def refreshGood (n : Nat) (s : State) : State :=
  let mask := (List.range 8).foldl (fun m l => if laneGood s n l then putBit m (getF s F.STL_LANE_STAT_RX_LOGICAL n l) true else m) 0
  let both := Nat.land mask (getF s F.STL_PORT_STAT_GOOD_REMOTE n 0)
  let p := stlPort s n
  let since := (List.range 8).filterMap fun i => if bit both i then some (i, tgetD p.goodSince i s.clk.mono) else none
  evalPort n (setF F.STL_PORT_STAT_GOOD_LOCAL n 0 mask (setStlPort n { p with goodSince := since } s))

/-- A lane that was ALIGNED loses alignment (R319): LOCK_LOSS. -/
def loseAlign (n l : Nat) (s : State) : State :=
  if flag s F.STL_LANE_STAT_ALIGNED n l then
    let s1 := setStlLane n l { stlLane s n l with cws := [], links := [] } s
      |> setF F.STL_LANE_STAT_ALIGNED n l 0 |> setF F.STL_LANE_STAT_DESKEWED n l 0
      |> bump .LOCK_LOSS_CNT n 0 1 |> raise Ev.STL_LOCK_LOSS n 0
    refreshGood n s1
  else s

/-- A lane starts over: nothing of its reception stands. -/
def clearLane (n l : Nat) (s : State) : State :=
  setStlLane n l {} s |> setF F.STL_LANE_STAT_CDR_LOCK n l 0 |> setF F.STL_LANE_STAT_ADAPTED n l 0
    |> setF F.STL_LANE_STAT_ALIGNED n l 0 |> setF F.STL_LANE_STAT_DESKEWED n l 0

/-- All lanes of a port start over, with its good masks. -/
def clearLanes (n : Nat) (s : State) : State :=
  let s1 := (List.range 8).foldl (fun z l => clearLane n l z) s
  setF F.STL_PORT_STAT_GOOD_LOCAL n 0 0 (setF F.STL_PORT_STAT_GOOD_REMOTE n 0 0 (setF F.STL_PORT_STAT_LOCAL_LOCK n 0 0
    (setF F.STL_PORT_STAT_REMOTE_LOCK n 0 0 (setF F.STL_PORT_STAT_XOFF_RX n 0 0 (setStlPort n { stlPort s1 n with goodSince := [], flowRxAt := none } s1)))))

/-- The drivers of a port go to OFF; LATCHED stays (Table 2.10). -/
def stlDriversOff (n : Nat) (s : State) : State :=
  (List.range 8).foldl (fun z l => if drvState z (96 + n) l = 4 then z else drvOff (96 + n) l z) s

/-- The drivers of the configured width start (R318). -/
def stlDriversStart (n : Nat) (s : State) : State := (List.range 8).foldl (fun z l => drvStart (96 + n) l z) s

/-! ### Configuration (R324) -/

/-- STL_PORT_CFG's steps 10 and 11. -/
def stlCfgChecks (port mode lanes : Nat) (bond : Bool) : Chk :=
  firstBad [resv (decide (2 < mode)) 1 mode, bad (decide (3 < port)) 0,
    bad ((mode == 1 && decide (2 ≤ port)) || (mode == 2 && decide (port < 2))) 1,
    bad (!(lanes == 2 || lanes == 4 || lanes == 8)) 2, bad (bond && !(decide (port < 2) && mode == 1)) 3]

/-- REFO_EN of the device, by the later SERIAL (R324, R326). -/
def setRefo (serial : Nat) (on : Bool) (s : State) : State :=
  if s.stl.refoSerial ≤ serial then
    let s1 := setF F.STL_REF_REFO_EN 0 0 (b2n on) { s with stl := { s.stl with refoSerial := serial } }
    if on then drvStart 100 0 s1 else drvOff 100 0 s1
  else s

/-- A change of MODE, LANES or BOND (R324): the port goes down, its lanes go to OFF, and bring-up starts afresh; a SerDes without power wakes first, and MODE 0 powers it off.  The two ports of a domain share its power, so a port beside an awake one needs no wake, and one beside a waking one is ready with it (Table 16.4). -/
def applyStlCfg (port mode lanes : Nat) (bond : Bool) (s : State) : State :=
  let s1 := clearLanes port (stlDriversOff port (stlDown port s))
  let s2 := s1 |> setF F.STL_PORT_STAT_MODE port 0 mode |> setF F.STL_PORT_STAT_LANES port 0 (if mode = 0 then 0 else lanesCode lanes)
    |> setF F.STL_PORT_STAT_BOND port 0 (b2n bond)
  let p := stlPort s2 port
  let other := stlPort s2 (port / 2 * 2 + (1 - port % 2))
  if mode = 0 then setStlPort port { p with enabled := false, awake := false, wakeAt := none } s2
  else if p.awake || other.awake then stlDriversStart port (setStlPort port { p with enabled := true, awake := true, wakeAt := none } s2)
  else setStlPort port { p with enabled := true, wakeAt := some (other.wakeAt.getD (s2.clk.mono + 500000)) } s2

/-- STL_PORT_CFG (0x0801, R324). -/
def execStlPortCfg (h : Hdr) (port mode lanes : Nat) (bond refo : Bool) (s : State) : Res :=
  runCmd 0x0801 h (fun _ => stlCfgChecks port mode lanes bond) (fun _ => some 7) (fun s =>
    let p := stlPort s port
    let busy := match p.cfgAt with
      | some a => decide (s.clk.mono < a + 100000)
      | none => false
    if busy then failWith h 0x0801 0x24 0 s
    else
      let same := getF s F.STL_PORT_STAT_MODE port 0 == mode && flag s F.STL_PORT_STAT_BOND port 0 == bond
        && getF s F.STL_PORT_STAT_LANES port 0 == (if mode = 0 then 0 else lanesCode lanes)
      let s1 := setRefo h.serial refo (setStlPort port { p with cfgAt := some s.clk.mono } s)
      ok h 0x0801 (if same then s1 else applyStlCfg port mode lanes bond s1)) s

/-- The SerDes of a Stretcher port has power (R46, Table 16.4): its lanes ramp. -/
def stlWake (n : Nat) (s : State) : State :=
  match (stlPort s n).wakeAt with
  | none => s
  | some w =>
    if w ≤ s.clk.mono then stlDriversStart n (setStlPort n { stlPort s n with awake := true, wakeAt := none } s) else s

/-- The SerDes of a front macro has power (R46): its lanes leave OFF for RAMP. -/
def macroWake (mac : Nat) (s : State) : State :=
  match (macRt s mac).wakeAt with
  | none => s
  | some w =>
    if w ≤ s.clk.mono then
      (List.range 8).foldl (fun z l => drvStart mac l z) (setMacRt mac { macRt s mac with powered := true, wakeAt := none } s)
    else s

/-- SERDES_WAKE_DONE (R46, Table 16.4): the 500 µs wake of a macro, or of Stretcher port n as 96 + n, ends and the lanes leave OFF for RAMP. -/
def execSerdesWakeDone (t mac : Nat) (s : State) : Res :=
  need (decide (mac < 100)) "macro" mac <| live t (fun s => if mac < 96 then macroWake mac s else stlWake (mac - 96) s) s

/-! ### Reference (R325 to R327) -/

/-- REF_LOST (R327): STLREFCLK is lost: the PLL unlocks, every Stretcher port goes down and STL_REFO stops. -/
def execRefLost (t : Nat) (s : State) : Res :=
  live t (fun s =>
    if s.stl.refPresent then
      let s1 := { s with stl := { s.stl with refPresent := false } }
      let s2 := raise0 Ev.STL_REF_LOST (setF F.STL_REF_REF_LOCK 0 0 0 s1)
      drvOff 100 0 ([0, 1, 2, 3].foldl (fun z n => clearLanes n (stlDriversOff n (stlDown n z))) s2)
    else s) s

/-- REF_LOCK (R327): the reference has returned and the PLL has locked: STL_REFO and each enabled port restart at R318. -/
def execRefLock (t : Nat) (s : State) : Res :=
  live t (fun s =>
    if flag s F.STL_REF_REF_LOCK 0 0 then s
    else
      let s1 := setF F.STL_REF_REF_LOCK 0 0 1 { s with stl := { s.stl with refPresent := true } }
      [0, 1, 2, 3].foldl (fun z n => stlDriversStart n z) (drvStart 100 0 s1)) s

/-- REF_MISMATCH (R327): a lane's measured offset, in ppm, has exceeded 200 ppm for 1 ms: it is reported and the lane is not ALIGNED.  FREQ_OFF shows it in units of 2 ppm, saturating. -/
def execRefMismatch (t port lane : Nat) (ppm : Int) (s : State) : Res :=
  need (decide (port < 4) && decide (lane < 8)) "Stretcher lane" (8 * port + lane) <| live t (fun s =>
    let s1 := setF F.STL_LANE_STAT_FREQ_OFF port lane (unsignedOf 8 (max (-128) (min 127 (ppm / 2)))) s
    if 200 < ppm.natAbs then loseAlign port lane (raise Ev.STL_REF_MISMATCH port 0 s1) else s1) s

/-! ### Reception of lanes (R311, R318 to R320) -/

/-- STL_RX_SIGNAL (R318): signal appears, and clock recovery and adaptation begin; or it vanishes, and the lane starts over. -/
def execStlRxSignal (t port lane : Nat) (present : Bool) (s : State) : Res :=
  need (decide (port < 4) && decide (lane < 8)) "Stretcher lane" (8 * port + lane) <| live t (fun s =>
    if present then setF F.STL_LANE_STAT_RX_SIGNAL port lane 1 s
    else refreshGood port (clearLane port lane (loseAlign port lane (setF F.STL_LANE_STAT_RX_SIGNAL port lane 0 s)))) s

/-- LANE_ADAPTED (R318): the clock is recovered and the equaliser adapted; the hunt for alignment begins.  An aligned lane that adapts anew has lost alignment. -/
def execLaneAdapted (t port lane : Nat) (s : State) : Res :=
  need (decide (port < 4) && decide (lane < 8)) "Stretcher lane" (8 * port + lane) <| live t (fun s =>
    if (stlPort s port).enabled && flag s F.STL_REF_REF_LOCK 0 0 && flag s F.STL_LANE_STAT_RX_SIGNAL port lane then
      let s1 := loseAlign port lane s
      setStlLane port lane { stlLane s1 port lane with adaptedAt := some s1.clk.mono } s1
        |> setF F.STL_LANE_STAT_CDR_LOCK port lane 1 |> setF F.STL_LANE_STAT_ADAPTED port lane 1
    else s) s

/-- ADAPT_RESTART (R318): a lane not ALIGNED within 1 ms of ADAPTED restarts adaptation. -/
def execAdaptRestart (t port lane : Nat) (s : State) : Res :=
  need (decide (port < 4) && decide (lane < 8)) "Stretcher lane" (8 * port + lane) <| live t (fun s =>
    match (stlLane s port lane).adaptedAt with
    | none => s
    | some a =>
      if !flag s F.STL_LANE_STAT_ALIGNED port lane && decide (a + 1000000 ≤ s.clk.mono) then
        setF F.STL_LANE_STAT_ADAPTED port lane 0 (setStlLane port lane { stlLane s port lane with adaptedAt := none } s)
      else s) s

/-- LANE_ALIGNED (R319, R320): a lane accepts an alignment candidate with a polarity, reads its logical number from its link words, and is DESKEWED where its skew is within 200 ns and no aligned lane claims the number; otherwise DESKEW_FAIL. -/
def execLaneAligned (t port lane logical : Nat) (inv skewOk : Bool) (s : State) : Res :=
  need (decide (port < 4) && decide (lane < 8) && decide (logical < 8)) "Stretcher lane" (8 * port + lane) <| live t (fun s =>
    if flag s F.STL_LANE_STAT_ADAPTED port lane then
      let s0 := loseAlign port lane s
      let claimed := (physLane s0 port logical).isSome
      let s1 := setStlLane port lane { stlLane s0 port lane with cws := [], links := [] } s0
        |> setF F.STL_LANE_STAT_ALIGNED port lane 1 |> setF F.STL_LANE_STAT_RX_INV_DET port lane (b2n inv)
        |> setF F.STL_LANE_STAT_RX_LOGICAL port lane logical
      if skewOk && !claimed then refreshGood port (setF F.STL_LANE_STAT_DESKEWED port lane 1 s1)
      else refreshGood port (raise Ev.STL_DESKEW_FAIL port 0 s1)
    else s) s

/-- CODEWORD_RX (R311, R316, R319): a lane decodes a codeword.  `bad` with `correctable` is a codeword that decodes and holds an invalid header; `bad` alone is uncorrectable; `correctable` alone is corrected.  The lane loses alignment when 4 of its last 16 codewords are bad.  `stuff` counts the removed symbols of its span that were not the expected outer level. -/
def execCodewordRx (t port lane : Nat) (bad correctable : Bool) (stuff : Nat) (s : State) : Res :=
  need (decide (port < 4) && decide (lane < 8)) "Stretcher lane" (8 * port + lane) <| live t (fun s0 =>
    let s := if stuff = 0 then s0 else bump .STUFF_VIOL port 0 stuff s0
    if flag s F.STL_LANE_STAT_ALIGNED port lane then
      let s1 := if bad && !correctable then
          let z := bump .CW_UNCORR port 0 1 s
          match (stlPort z port).rx with
          | some _ => bump .FRAME_ERR port 0 1 (setStlPort port { stlPort z port with rx := none } z)
          | none => z
        else if !bad && correctable then bump .CW_CORR port 0 1 s
        else s
      let cws := (bad :: (stlLane s1 port lane).cws).take 16
      let s2 := setStlLane port lane { stlLane s1 port lane with cws := cws } s1
      if 4 ≤ (cws.filter id).length then loseAlign port lane s2 else s2
    else s) s

/-- A link word received on a lane (R320 to R322): the far end's LOCK and GOOD_MASK; MODE or LANES that differ hold the port down with CFG_MISMATCH when the difference first shows; a fall of the far end's UP, or a lost lane, puts an UP port into RESIZE. -/
def linkWord (n w : Nat) (s : State) : State :=
  match physLane s n (bits w 8 3) with
  | none => s
  | some l =>
    let x := stlLane s n l
    let prev := x.links.head?
    let s1 := setStlLane n l { x with links := (w :: x.links).take 32 } s
      |> setF F.STL_PORT_STAT_REMOTE_LOCK n 0 (b2n (bit w 0)) |> setF F.STL_PORT_STAT_GOOD_REMOTE n 0 (linkGood w)
    let wrong (v : Nat) : Bool := linkMode v ≠ getF s F.STL_PORT_STAT_MODE n 0 || linkLanes v ≠ getF s F.STL_PORT_STAT_LANES n 0
    let s2 := if wrong w then
        let z := if prev.any wrong then s1 else raise Ev.STL_CFG_MISMATCH n 0 s1
        stlDown n z
      else s1
    let s3 := if !bit w 1 && prev.any (bit · 1) then enterResize n s2 else s2
    refreshGood n s3

/-! ### Degrade and restore (R322, R323) -/

/-- RESIZE_TIMEOUT (R322): a RESIZE has lasted 1 ms. -/
def execResizeTimeout (t port : Nat) (s : State) : Res :=
  need (decide (port < 4)) "Stretcher port" port <| live t (fun s =>
    match (stlPort s port).resizeAt with
    | none => s
    | some r => if flag s F.STL_PORT_STAT_RESIZE port 0 && decide (r + 1000000 ≤ s.clk.mono) then stlDown port s else s) s

/-- LANE_RESTORE (R323): the group over lanes good at both ends for RESTORE_S seconds is wider than the active group. -/
def execLaneRestore (t port : Nat) (s : State) : Res :=
  need (decide (port < 4)) "Stretcher port" port <| live t (fun s =>
    let p := stlPort s port
    let aged := (List.range 8).foldl (fun m i => match tget p.goodSince i with
      | some g => if g + getF s F.STL_PORT_CTL_RESTORE_S port 0 * 1000000000 ≤ s.clk.mono then putBit m i true else m
      | none => m) 0
    match bestGroup aged (stlLanes s port) with
    | none => s
    | some g =>
      if flag s F.STL_PORT_CTL_RESTORE_EN port 0 && decide (p.active.length < g.length) then enterResize port s else s) s

/-! ### Flow control (R317) -/

/-- XOFF received on a port ends: frames that wait for it leave. -/
def xoffEnd (n : Nat) (s : State) : State :=
  sendWaiting n (setF F.STL_PORT_STAT_XOFF_RX n 0 0 s)

/-- A received FLOW block. -/
def flowIn (n : Nat) (xoff : Bool) (s : State) : State :=
  let s1 := setStlPort n { stlPort s n with flowRxAt := some s.clk.mono } s
  if xoff then setF F.STL_PORT_STAT_XOFF_RX n 0 1 s1 else xoffEnd n s1

/-- FLOW_RX (R317): byte 1 [0] of the block is XOFF. -/
def execFlowRx (t port xoff : Nat) (s : State) : Res :=
  need (decide (port < 4)) "Stretcher port" port <| live t (fun s => if stlUp s port then flowIn port (bit xoff 0) s else s) s

/-- Whether a port sends XOFF: pause of its pipeline or of its PGs (R317), or a transit buffer that it feeds above its mark (R343). -/
def stlXoff (s : State) (n : Nat) : Bool :=
  let fill := ((tgetD s.chain.transit n []).map List.length).sum
  stlXoffWanted s n || decide (786432 < fill) || (flag s F.STL_PORT_STAT_XOFF_TX n 0 && decide (524288 ≤ fill))

/-- FLOW_TX (R317): FLOW on a change, and every 1 µs while XOFF holds. -/
def execFlowTx (t port : Nat) (s : State) : Res :=
  need (decide (port < 4)) "Stretcher port" port <| live t (fun s =>
    let want := stlXoff s port
    let due := match (stlPort s port).flowTxAt with
      | some a => decide (a + 1000 ≤ s.clk.mono)
      | none => true
    if stlUp s port && (want ≠ flag s F.STL_PORT_STAT_XOFF_TX port 0 || (want && due)) then
      emit (.stretcher port 0x4B [0x4B, if want then 1 else 0])
        (setF F.STL_PORT_STAT_XOFF_TX port 0 (b2n want) (setStlPort port { stlPort s port with flowTxAt := some s.clk.mono } s))
    else s) s

/-- XOFF_LAPSE (R317): no FLOW block for 4 µs. -/
def execXoffLapse (t port : Nat) (s : State) : Res :=
  need (decide (port < 4)) "Stretcher port" port <| live t (fun s =>
    match (stlPort s port).flowRxAt with
    | none => s
    | some a => if flag s F.STL_PORT_STAT_XOFF_RX port 0 && decide (a + 4000 ≤ s.clk.mono) then xoffEnd port s else s) s

end Sys2Proof.Machine
end

