-- ==== Sys2Proof/Machine/Sched.lean ====
section
/-! DEFINITION. The scheduler (Chapter 8): selection for a port node (R191 to R197), release from the timing wheel (R200, R201), and the commands SHP_SET (R202) and SCH_NODE_SET (R189, R190, R203). -/

namespace Sys2Proof.Machine

/-! ### The pick procedure (R193) -/

/-- A child as the pick procedure sees it. -/
structure Cand where
  node : Node
  deficit : Nat
  fresh : Bool
  weight : Nat
  len : Nat

/-- Deficit-weighted round robin within one band: the child whose copy fits its deficit, and the list it leaves.  A child passed over moves to the tail with FRESH set; the fuel covers the 65 rounds that the longest copy needs at the least weight. -/
def pickRound : Nat → List Cand → Option (Node × List Cand)
  | 0, _ => none
  | _, [] => none
  | n + 1, c :: cs =>
    let d := if c.fresh then c.deficit + 256 * c.weight else c.deficit
    if c.len ≤ d then some (c.node, { c with deficit := d - c.len, fresh := false } :: cs)
    else pickRound n (cs ++ [{ c with deficit := d, fresh := true }])

/-- Charged length of the copy at a queue's head. -/
def headLen (s : State) (q : Node) : Nat :=
  match queueOf s q with
  | id :: _ => chargedLen (copyLen s id) (nodeAdj s q)
  | [] => 64

/-- The active children of a node in one band. -/
def candsIn (s : State) (parent : Node) (band : Nat) (len : Node → Nat) : List Cand :=
  (((nodeRt s parent).active[band]?).getD []).map fun n => ⟨n, (nodeRt s n).deficit, (nodeRt s n).fresh, nodeWeight s n, len n⟩

/-- A pick among a node's children, the lowest band first: the band, the child, and the band's list after it. -/
def pickChild (s : State) (parent : Node) (len : Node → Nat) : Option (Nat × Node × List Cand) :=
  [0, 1, 2, 3].findSome? fun b =>
    let l := candsIn s parent b len
    (pickRound (70 * (l.length + 1)) l).map fun x => (b, x.1, x.2)

/-- Record what a pick left of a band. -/
def applyPick (parent : Node) (x : Nat × Node × List Cand) (s : State) : State :=
  let s1 := x.2.2.foldl (fun z c => setNodeRt c.node { nodeRt z c.node with deficit := c.deficit, fresh := c.fresh } z) s
  setNodeRt parent { nodeRt s1 parent with active := listSet (nodeRt s1 parent).active x.1 (x.2.2.map Cand.node) } s1

/-- A service node's decision begins (R190, R203): the changes that waited for it take effect, one of each child, and its lists are brought in line. -/
def beginService (svc : Nat) (s : State) : State :=
  if (moversOf s svc).isEmpty then s
  else syncPort (portOfService s svc) ((moversOf s svc).foldl (fun z n => applyMove n z) s)

/-- The queue that a service node would give. -/
def queueFrom (s : State) (svc : Node) : Option Node := (pickChild (beginService svc.ix s) svc (headLen s)).map (fun x => x.2.1)

/-- Charged length that a service node would yield. -/
def serviceLen (s : State) (svc : Node) : Nat := match queueFrom s svc with
  | some q => headLen s q
  | none => 64

/-- A port node's decision begins (R203): its service nodes' changes that waited for it take effect. -/
def beginPort (port : Nat) (s : State) : State :=
  let movers := (s.sched.nodes.filter (fun x => x.1.kind = 1 && !x.2.moves.isEmpty && portOfService s x.1.ix == port)).map (·.1)
  if movers.isEmpty then s else syncPort port (movers.foldl (fun z n => applyMove n z) s)

/-- The decision of a port node down to the service node that gives a copy: one whose children have all moved away gives none, and the pick goes on without it. -/
def chooseService : Nat → Nat → State → Option ((Nat × Node × List Cand) × State)
  | 0, _, _ => none
  | n + 1, port, s =>
    match pickChild s ⟨2, port⟩ (serviceLen s) with
    | none => none
    | some x =>
      let z := beginService x.2.1.ix s
      if (pickChild z x.2.1 (headLen z)).isSome then some (x, z) else chooseService n port z

/-! ### Selection -/

/-- Frame bytes of the copy in transmission on a port. -/
def inTransmission (s : State) (port : Nat) : Nat :=
  (s.pal.copies.filter (fun c => c.port == port && c.phase = .sending)).foldl (fun n c => n + copyLen s c.id) 0

/-- Frame bytes selected for a port and not yet begun at its MAC. -/
def lookahead (s : State) (port : Nat) : Nat :=
  (s.pal.copies.filter (fun c => c.port == port && (c.phase = .reading || c.phase = .egress || c.phase = .ready))).foldl (fun n c => n + copyLen s c.id) 0

/-- Room in a port's lookahead (R193): a copy more begins within the time of 16,352 bytes that R50 and R51 allow, behind the frame in transmission and those selected and not begun (log 25). -/
def lookRoom (s : State) (port : Nat) : Bool := decide (768 ≤ port) || decide (inTransmission s port + lookahead s port ≤ 16352)

/-- Whether a port node may give a copy (R191, R317, R322): its shaper is open, and a Stretcher port is UP without a received XOFF. -/
def portOpen (s : State) (port : Nat) : Bool :=
  shaperOpen s ⟨2, port⟩ && (decide (port < 768) || port == 772 || (stlUp s (port - 768) && !flag s F.STL_PORT_STAT_XOFF_RX (port - 768) 0))

/-- Reserve receive descriptors for a CPU copy, in selection order (R268). -/
def reserveDescs (c : Copy) (s : State) : State :=
  if c.port ≠ 772 then s
  else
    let r := ringOf s c.node.ix
    let k := descsFor s r c
    { s with host := { s.host with pkt := tmod s.host.pkt r {} (fun x => { x with reserved := x.reserved ++ [(c.id, k)] }) } }

/-- A copy goes to its port's reader (R162, R193). -/
def handToReader (c : Copy) (s : State) : State :=
  let m := readerOf s c.port
  let s1 := setCopy { c with phase := .reading, selSeq := s.pal.selSeq } { s with pal := { s.pal with selSeq := s.pal.selSeq + 1 } }
  setReader m { reader s1 m with copies := (reader s1 m).copies ++ [c.id] } s1

/-- A decision for a port that is up (R193, R195): service node, queue, head copy; the charge falls on all three nodes, and a copy whose tail was bad is discarded at dequeue (R177). -/
def selectUp (port : Nat) (s0 : State) : State :=
  match chooseService 8192 port (beginPort port s0) with
  | none => s0
  | some (x, s) =>
    match pickChild s x.2.1 (headLen s) with
    | none => s
    | some y =>
      let q := y.2.1
      match queueOf s q with
      | [] => s
      | id :: _ =>
        match copyOf s id with
        | none => s
        | some c =>
          let len := headLen s q
          let s1 := applyPick x.2.1 y (applyPick ⟨2, port⟩ x s)
          let s2 := chargeNode ⟨2, port⟩ len (chargeNode x.2.1 len (chargeNode q len s1))
          let bad := match pktOf s2 c.pkt with
            | some p => p.tailBad
            | none => false
          if bad then discard c 3 0x10 s2
          else handToReader c (reserveDescs c (unqueue c s2))

/-- A decision for a port that is down (R196): the copy is discarded as PORT_DOWN without a charge to shapers or deficits. -/
def selectDown (port : Nat) (s0 : State) : State :=
  match chooseService 8192 port (beginPort port s0) with
  | none => s0
  | some (x, s) =>
    match queueFrom s x.2.1 with
    | none => s
    | some q =>
      match queueOf s q with
      | [] => s
      | id :: _ => match copyOf s id with
        | none => s
        | some c => discard c 3 0x07 s

/-- Whether a port node is eligible (R191, R196): it has an eligible service node and, while it is up, its shaper, its flow control and its lookahead let it give a copy. -/
def portEligible (s : State) (port : Nat) : Bool :=
  (nodeDown s port || (portOpen s port && lookRoom s port)) && (servicesOf s port).any (serviceEligible s)

/-- The port nodes of a reader (R161, R188). -/
def portsOf (s : State) (m : Nat) : List Nat := ((List.range 8).map (8 * m + ·) ++ [768, 769, 770, 771, 772]).filter (fun p => readerOf s p == m)

/-- Whether the next decision of a port's reader is offered to the port (R193): no other eligible port of the reader stands between the one that had the last decision and it, round robin by number. -/
def turnOf (s : State) (port : Nat) : Bool :=
  let m := readerOf s port
  let last := tgetD s.sched.lastPort m 1023
  let dist (p : Nat) : Nat := (p + 1023 - last) % 1024
  portEligible s port && (portsOf s m).all (fun p => p == port || !portEligible s p || decide (dist port < dist p))

/-- SCHED_SELECT (R191 to R196): one decision for a port node, where it is eligible and its reader's round robin offers it the decision. -/
def execSchedSelect (t port : Nat) (s : State) : Res :=
  need (decide (port < 773)) "port node" port <| live t (fun s =>
    let s1 := syncPort port s
    if !turnOf s1 port then s1
    else
      let s2 := { s1 with sched := { s1.sched with lastPort := tset s1.sched.lastPort (readerOf s1 port) port } }
      syncPort port (if nodeDown s2 port then selectDown port s2 else selectUp port s2)) s

/-! ### The timing wheel (R200, R201) -/

/-- The port node above a node. -/
def portAbove (s : State) (n : Node) : Nat := if n.kind = 2 then n.ix else if n.kind = 1 then portOfService s n.ix else portOfQueue s n

/-- An entry is released: its lateness is counted where it exceeds 64 ns.  The tokens are kept as of their last refresh, so that the fraction past zero is not lost. -/
def releaseEntry (w : WheelEnt) (s : State) : State :=
  let late := s.clk.mono - w.due
  let s1 := setWheel (s.sched.wheel.filter (fun x => x.node ≠ w.node)) s
  let s2 := if getF s F.SCH_LATE_MAX_LATE_NS 0 0 < late then setF F.SCH_LATE_MAX_LATE_NS 0 0 (min 1023 late) s1 else s1
  let s3 := if 64 < late then raise0 Ev.SCH_WHEEL_LATE (bump .SCH_LATE_CNT 0 0 1 s2) else s2
  syncPort (portAbove s w.node) s3

/-- SHAPER_RELEASE (R200, R201): a node's entry falls due; no entry due earlier may still stand.  A parked entry is entered afresh from its tokens. -/
def execShaperRelease (t kind index : Nat) (s : State) : Res :=
  need (decide (index < nodeCount kind)) "node" index <| live t (fun s =>
    match s.sched.wheel.find? (fun w => w.node == ⟨kind, index⟩) with
    | none => s
    | some w =>
      if s.clk.mono < w.due ∨ s.sched.wheel.any (fun x => decide (x.due < w.due)) then s
      else if w.parked then
        (if tokensAbove s w.node then releaseEntry w s else enterWheel w.node (refreshNode w.node s))
      else releaseEntry w s) s

/-! ### SHP_SET (R202) -/

/-- The setting of a shaper: tokens refreshed, reset and cut; the wheel entry anew. -/
def setShaper (p : ShpSet) (s : State) : State :=
  let n : Node := ⟨p.kind, p.index⟩
  let tokens := min (resetTokens p.tokenReset p.burst) ((p.burst * 256 * 1024 : Nat) : Int)
  let s1 := setNodeRt n { nodeRt s n with tokens := tokens, last := s.clk.mono } s
  let s2 := setF ⟨rateReg p.kind, 31, 1⟩ p.index 0 (b2n p.en) (setF ⟨rateReg p.kind, 0, 25⟩ p.index 0 p.rate (setF ⟨burstReg p.kind, 0, 16⟩ p.index 0 p.burst s1))
  let s3 := setWheel (s2.sched.wheel.filter (fun w => w.node ≠ n)) s2
  syncPort (portAbove s n) (if p.en && decide (tokens ≤ 0) then enterWheel n s3 else s3)

/-- SHP_SET (0x0301). -/
def execShpSet (h : Hdr) (p : ShpSet) (s : State) : Res :=
  runCmd 0x0301 h (fun _ => firstBad [resv (p.tokenReset = 0 || decide (2 < p.tokenReset)) 2 p.tokenReset, bad (decide (3 < p.kind)) 0,
      bad (decide (nodeCount p.kind ≤ p.index)) 4, bad (!rateOk p.rate) 8, bad (!burstOk p.burst) 12])
    (fun _ => some 2) (fun s => ok h 0x0301 (setShaper p s)) s

/-! ### SCH_NODE_SET (R189, R190, R203) -/

/-- Whether a service node has a child attached, or one that a waiting change is to bring to it (log 81). -/
def childAttached (s : State) (svc : Nat) : Bool :=
  s.sched.nodes.any (fun x => x.1.kind ≠ 1 && x.2.moves.any (fun m => m.1 == svc)) || s.rf.words.any fun x => (x.1.n = .SCH_NODE0_Q || x.1.n = .SCH_NODE0_C) && bit x.2.toNat 31 && bits x.2.toNat 0 13 == svc

/-- The commands of R189's first case: ranges of Table 8.5 and the port node a service node stands under. -/
def attachChecks (s : State) (p : NodeSet) : Chk :=
  let under := portOfService s p.parent
  firstBad [bad (decide (3 < p.band)) 2, bad (decide (7 < p.cls) || (p.kind ≠ 0 && p.cls ≠ 0)) 3,
    bad (decide ((if p.kind = 1 then 773 else 8192) ≤ p.parent)) 8, bad ((p.kind = 0 && under == 772) || (p.kind = 3 && under ≠ 772)) 8,
    bad (decide (p.weight < 1) || decide (4095 < p.weight)) 10, bad (!lenAdjOk p.lenAdj || (p.kind = 1 && p.lenAdj ≠ 0)) 12]

/-- A detach in progress is cancelled by an attach (R190): its final reply is OK with DETAIL 1. -/
def cancelDetach (n : Node) (s : State) : State :=
  let r := nodeRt s n
  let s1 := setF ⟨nodeReg0 n.kind, 30, 1⟩ n.ix 0 0 (setNodeRt n { r with detachCmd := none } s)
  match r.detachCmd with
  | some h => finishOpen h 0x0302 { detail := 1 } s1
  | none => s1

/-- Where a node stands once every change that waits has taken effect: its parent and its band. -/
def standing (s : State) (n : Node) : Nat × Nat := ((nodeRt s n).moves.getLast?).getD (getF s ⟨nodeReg0 n.kind, 0, 13⟩ n.ix 0, nodeBand s n)

/-- Whether a node waits in an active list of its parent, or will at the next decision (Table 8.4). -/
def waiting (s : State) (n : Node) : Bool := !(nodeRt s n).moves.isEmpty || s.sched.nodes.any (fun x => x.2.active.any (·.contains n))

/-- Whether a change of parent or band waits for a decision of the parent (R190, R203): a queue that holds copies moves to another service node, and a node in its parent's active list to another band, at the next one. -/
def defers (s : State) (n : Node) (parent : Nat) : Bool :=
  attached s n && (if parent ≠ (standing s n).1 then n.kind ≠ 1 && !(queueOf s n).isEmpty else waiting s n)

/-- A node's parent and band are changed: at once, or at a decision of its parent; a change of band takes it out of its list. -/
def moveNode (n : Node) (parent band : Nat) (s : State) : State :=
  if standing s n = (parent, band) then s
  else if defers s n parent then
    let s1 := setNodeRt n { nodeRt s n with moves := (nodeRt s n).moves ++ [(parent, band)] } s
    if betweenBands s1 n then leaveLists n s1 else s1
  else placeNode n parent band (leaveLists n (setNodeRt n { nodeRt s n with moves := [] } s))

/-- An attach (R189, R190, R203): the fields that act at once, then parent and band. -/
def attachNode (h : Hdr) (p : NodeSet) (s : State) : State :=
  let n : Node := ⟨p.kind, p.index⟩
  let newPort := if p.kind = 1 then p.parent else portOfService s p.parent
  let oldPort := portAbove s n
  let busy := newPort ≠ oldPort && (if p.kind = 1 then childAttached s p.index else decide (heldBy s n ≠ 0))
  if busy then failWith h 0x0302 0x24 0 s
  else
    let s1 := if detachPend s n then cancelDetach n s else s
    let s2 := moveNode n p.parent p.band s1
    let s3 := setF ⟨nodeReg0 p.kind, 31, 1⟩ p.index 0 1 (setF ⟨nodeReg0 p.kind, 16, 12⟩ p.index 0 p.weight s2)
    let s4 := setF ⟨nodeReg1 p.kind, 16, 8⟩ p.index 0 (unsignedOf 8 p.lenAdj) (setF ⟨nodeReg1 p.kind, 8, 3⟩ p.index 0 p.cls s3)
    ok h 0x0302 (syncPort newPort (syncPort oldPort s4))

/-- A node is out of the hierarchy: it leaves its list, and the changes that waited for it have nothing left to move, but stand. -/
def dropMoves (n : Node) (s : State) : State :=
  let at' := standing s n
  placeNode n at'.1 at'.2 (leaveLists n (setNodeRt n { nodeRt s n with moves := [] } s))

/-- A detach (R190): at once where the queue holds no copy, otherwise pending until it has drained; a service node with a child attached is BUSY, and so is a queue whose detach is pending already (log 26). -/
def detachNode (h : Hdr) (kind index : Nat) (s : State) : State :=
  let n : Node := ⟨kind, index⟩
  let off (z : State) : State := ok h 0x0302 (syncPort (portAbove z n) (dropMoves n (setF ⟨nodeReg0 kind, 31, 1⟩ index 0 0 z)))
  if kind = 1 then (if childAttached s index then failWith h 0x0302 0x24 0 s else off s)
  else if detachPend s n then failWith h 0x0302 0x24 0 s
  else if !attached s n || heldBy s n = 0 then off s
  else background h (setF ⟨nodeReg0 kind, 30, 1⟩ index 0 1 (setNodeRt n { nodeRt s n with detachN0 := heldBy s n, detachCmd := some h } s))

/-- Checks on KIND, ATTACH and INDEX. -/
def nodeChecks (kind attach index : Nat) : Chk :=
  firstBad [resv (decide (1 < attach)) 1 attach, bad (decide (kind = 2 ∨ 3 < kind)) 0, bad (decide (nodeCount kind ≤ index)) 4]

/-- SCH_NODE_SET (0x0302). -/
def execSchNodeSet (h : Hdr) (p : NodeSet) (s : State) : Res :=
  runCmd 0x0302 h (fun s => match nodeChecks p.kind p.attach p.index with
      | some e => some e
      | none => if p.attach = 1 then attachChecks s p else none)
    (fun _ => some 2) (fun s => if p.attach = 1 then attachNode h p s else detachNode h p.kind p.index s) s

/-- SCH_NODE_DETACH: SCH_NODE_SET with ATTACH = 0. -/
def execSchNodeDetach (h : Hdr) (kind index : Nat) (s : State) : Res :=
  runCmd 0x0302 h (fun _ => nodeChecks kind 0 index) (fun _ => some 2) (detachNode h kind index) s

/-- DETACH_DONE (R190): a queue whose detach is pending holds no copy any more. -/
def execDetachDone (t kind index : Nat) (s : State) : Res :=
  need (decide (index < nodeCount kind) && (kind == 0 || kind == 3)) "queue" index <| live t (fun s =>
    let n : Node := ⟨kind, index⟩
    if detachPend s n && heldBy s n == 0 then
      let r := nodeRt s n
      let s1 := setF ⟨nodeReg0 kind, 31, 1⟩ index 0 0 (setF ⟨nodeReg0 kind, 30, 1⟩ index 0 0 (setNodeRt n { r with detachCmd := none } s))
      let s2 := raise0 Ev.SCH_DETACH_DONE (dropMoves n s1)
      match r.detachCmd with
      | some h => finishOpen h 0x0302 {} s2
      | none => s2
    else s) s

end Sys2Proof.Machine
end

