-- ==== Sys2Proof/Machine/Counters.lean ====
section
/-! DEFINITION. Counters, flow scans, sampling rings, Swatch and metering (Chapter 10, R211 to R213), and what a step of TOD does to TOD-timed behaviour (R404). -/

namespace Sys2Proof.Machine

/-! ### The counter space (R232 to R236) -/

/-- The counter at an offset of the counter space that is a multiple of 8 (Tables 10.1 to 10.3, 10.7); what the tables do not assign reads zero. -/
def counterAt (s : State) (x : Nat) : Nat :=
  if x < 0x30500 then
    let src := x / 256
    let slot := x % 256 / 8
    let hidden := decide (768 ≤ src) && (decide (2 ≤ slot) && decide (slot ≤ 5) || slot == 8 || slot == 9 || decide (12 ≤ slot) && decide (slot ≤ 14))
    if decide (16 < slot) || hidden then 0 else ctr s 1 src slot
  else if 0x38000 ≤ x ∧ x < 0x38600 then ctr s 4 ((x - 0x38000) / 32) (x % 32 / 8)
  else if 0xF0000 ≤ x ∧ x < 0x2F0000 then ctr s 2 ((x - 0xF0000) / 32) (x % 32 / 8)
  else if 0x2F0000 ≤ x ∧ x < 0x3F0000 then (if x % 64 / 8 = 7 then 0 else ctr s 3 ((x - 0x2F0000) / 64) (x % 64 / 8))
  else 0

/-- One 32-bit half of a counter, at an offset that is a multiple of 4. -/
def counterHalf (s : State) (x : Nat) : Nat := bits (counterAt s (x / 8 * 8)) (x % 8 / 4 * 32) 32

/-- How many 64-bit values a Swatch section holds (Table 10.6). -/
def sectionLen (sect : Nat) : Nat :=
  match sect with
  | 2 => 32768
  | 3 => 262144
  | 4 => 131072
  | 5 => 786432
  | _ => 11534336

/-- A 64-bit value of a Swatch section by its index (Table 10.6). -/
def sectionValue (s : State) (sect i : Nat) : Nat :=
  match sect with
  | 2 => counterAt s (8 * i)
  | 3 => counterAt s (0xF0000 + 8 * i)
  | 4 => counterAt s (0x2F0000 + 8 * i)
  | 5 =>
    let p := policer s (i / 3 / 131072) (i / 3 / 4096 % 32) (i / 3 % 4096)
    if i % 3 = 0 then p.conf else if i % 3 = 1 then p.refused else p.refBytes
  | _ =>
    let pair := i / 2
    if pair < 3670016 then ctr s 5 (pair / 8192) (2 * (pair % 8192) + i % 2)
    else ctr s 6 ((pair - 3670016) / 8192) (2 * (pair % 8192) + i % 2)

/-- CNT_READ (0x0503, R236). -/
def execCntRead (h : Hdr) (sect count index : Nat) (s : State) : Res :=
  runCmd 0x0503 h (fun _ => firstBad [bad (decide (sect < 2) || decide (6 < sect)) 0, bad (count = 0 || decide (64 < count)) 1,
      bad (decide (sectionLen sect < index + count)) 4]) noCls (fun s =>
    finish h 0x0503 { data := (List.range count).flatMap (fun k => leBytes 8 (sectionValue s sect (index + k))) } s) s

/-! ### What a VF may read (R242, R243) -/

/-- CNT_VF_PERMIT (0x0504, R242). -/
def execCntVfPermit (h : Hdr) (vf entry : Nat) (en : Bool) (first count : Nat) (s : State) : Res :=
  runCmd 0x0504 h (fun _ => firstBad [bad (decide (63 < vf)) 0, bad (decide (15 < entry)) 1, bad (decide (1007 < first)) 4,
      bad (count = 0 || decide (1008 < count) || decide (1008 < first + count)) 6]) (fun _ => some 5) (fun s =>
    ok h 0x0504 { s with tele := { s.tele with vf := tset s.tele.vf (vf, entry) { en := en, first := first, count := count } } }) s

/-- An entry as CNT_VF_QUERY returns it. -/
def vfWord (e : VfPerm) : Nat := b2n e.en * 2 ^ 31 + e.count % 2048 * 2 ^ 20 + e.first % 1024 * 2 ^ 10

/-- CNT_VF_QUERY (0x0505, R242). -/
def execCntVfQuery (h : Hdr) (vf : Nat) (s : State) : Res :=
  runCmd 0x0505 h (fun _ => firstBad [bad (decide (63 < vf)) 0]) noCls (fun s =>
    finish h 0x0505 { data := (List.range 16).flatMap (fun k => leBytes 4 (vfWord (tgetD s.tele.vf (vf, k) {}))) } s) s

/-- Whether an enabled entry of a VF covers a page. -/
def vfCovers (s : State) (vf page : Nat) : Bool :=
  (List.range 16).any fun k =>
    let e := tgetD s.tele.vf (vf, k) {}
    e.en && decide (e.first ≤ page) && decide (page < e.first + e.count)

/-! ### Flow cache scans (R211, R212) -/

/-- A flush's visits to up to `m` of the entries that it has still to visit, cluster by cluster: each is flushed with reason 4. -/
def flushVisit (m : Nat) (f : FlowFlush) (s : State) : FlowFlush × State :=
  let x := (List.range 8).foldl (fun (a : Nat × List Nat × State) n =>
    let left := (f.left[n]?).getD 0
    let k := min a.1 left
    let l := tgetD a.2.2.tele.flows n []
    (a.1 - k, a.2.1 ++ [left - k], if k = 0 then a.2.2 else setFlows n (l.drop k) ((l.take k).foldl (fun y e => flushFlow n 4 e y) a.2.2))) (m, [], s)
  ({ f with left := x.2.1 }, x.2.2)

/-- A flush goes on by up to `m` entries: it reports the per-mille visited, and answers once it has visited all. -/
def flushOn (m : Nat) (f : FlowFlush) (s : State) : State :=
  let others := s.tele.flushes.filter (fun x => x.cmd.serial ≠ f.cmd.serial)
  let r := flushVisit m f s
  let left := r.1.left.sum
  if left = 0 then finishOpen f.cmd 0x0502 {} { r.2 with tele := { r.2.tele with flushes := others } }
  else modOut f.cmd.serial (fun o => { o with permille := 1000 * (f.total - left) / f.total }) { r.2 with tele := { r.2.tele with flushes := others ++ [r.1] } }

/-- A turn of the flush that a command runs, if it runs one.  How many entries a flush visits between two rows the spec does not state: a free value (place 1410; log 82). -/
def flushTurn (serial : Nat) (s : State) : State :=
  match s.tele.flushes.find? (fun f => f.cmd.serial == serial) with
  | some f => drawn (flushOn (freeAt 1410 s % (f.left.sum + 1)) f s)
  | none => s

/-- TEL_FLOW_FLUSH (0x0502, R212, R213): every entry that the caches hold now is flushed with reason 4, with per-mille progress; it runs on until the scanner's next visit of the caches has met every entry. -/
def execTelFlowFlush (h : Hdr) (s : State) : Res :=
  runCmd 0x0502 h noChk (fun _ => some 5) (fun s =>
    let left := (List.range 8).map fun n => (tgetD s.tele.flows n []).length
    if left.sum = 0 then ok h 0x0502 s
    else flushTurn h.serial (background h { s with tele := { s.tele with flushes := s.tele.flushes ++ [⟨h, left.sum, left⟩] } })) s

/-- PROGRESS_REPLY (R278): an interim reply of a kind L command with PROGRESS, when PERMILLE has passed a multiple of 100 or 100 ms have gone by, no more than once a millisecond. -/
def execProgressReply (t serial : Nat) (s : State) : Res :=
  live t (fun s0 =>
    let s := flushTurn serial s0
    match outCmd s serial with
    | none => s
    | some o =>
      let isL := match opInfo o.opcode with
        | some i => i.prog
        | none => false
      let dt := s.clk.mono - o.lastInterim
      if o.prog && isL && o.dispatched && decide (1000000 ≤ dt) && (decide (o.lastPermille / 100 < o.permille / 100) || decide (100000000 ≤ dt)) then interimReply o s
      else s) s

/-- One entry at a scan (R212): flushed and freed when idle, flushed and cleared when active too long, otherwise as it is. -/
def scanFlow (cluster : Nat) (e : FlowEnt) (s : State) : List FlowEnt × State :=
  let now := s.clk.mono
  if e.lastMono + getF s F.FLOW_CFG_IDLE_S 0 0 * 1000000000 < now then ([], flushFlow cluster 1 e s)
  else if e.firstMono.getD now + getF s F.FLOW_CFG_ACTIVE_S 0 0 * 1000000000 < now then
    ([{ set := e.set, tac := e.tac, port := e.port, imgKey := e.imgKey, partialKey := e.partialKey, lastTs := e.lastTs, lastMono := e.lastMono, lastEgress := e.lastEgress, lastDrop := e.lastDrop }], flushFlow cluster 2 e s)
  else ([e], s)

/-- A cluster's cache scanned in order. -/
def scanCluster (cluster : Nat) (s : State) : State :=
  let x := (tgetD s.tele.flows cluster []).foldl (fun a e =>
    let r := scanFlow cluster e a.2
    (a.1 ++ r.1, r.2)) (([] : List FlowEnt), s)
  setFlows cluster x.1 x.2

/-- FLOW_SCAN (R212, R213): the scanner visits every entry, every 100 ms; a flush that runs ends with its visit. -/
def execFlowScan (t : Nat) (s : State) : Res :=
  live t (fun s =>
    if s.tele.scanAt + 100000000 ≤ s.clk.mono then
      let s0 := s.tele.flushes.foldl (fun z f => flushOn f.left.sum f z) s
      let s1 := (List.range 8).foldl (fun z n => scanCluster n z) s0
      { s1 with tele := { s1.tele with scanAt := s1.clk.mono } }
    else s) s

/-! ### Rate windows (R234) -/

/-- The bytes a source has received and transmitted, export frames included. -/
def rateBytes (s : State) (src : Nat) : Nat × Nat := (ctr s 1 src 1, ctr s 1 src 7 + ctr s 1 src 11)

/-- Raise a peak to a value. -/
def peak (src slot v : Nat) (s : State) : State :=
  { s with tele := { s.tele with ctr := tset s.tele.ctr (1, src, slot) (max (ctr s 1 src slot) v) } }

/-- RATE_WINDOW_END (R234): at a multiple of the source's window, the window in progress is compared with the peaks and the next begins; a discarded window enters no peak. -/
def execRateWindowEnd (t src : Nat) (s : State) : Res :=
  need (decide (src < 773)) "source" src <| live t (fun s =>
    if s.clk.tod % (getF s F.PORT_RATE_CFG_WINDOW_US src 0 * 1000) = 0 then
      let now := rateBytes s src
      let s1 := match tget s.tele.winStart src with
        | some (_, rx, tx) => peak src 15 (now.1 - rx) (peak src 16 (now.2 - tx) s)
        | none => s
      { s1 with tele := { s1.tele with winStart := tset s1.tele.winStart src (s1.clk.tod, now.1, now.2) } }
    else s) s

/-- A new WINDOW_US (R234, R252): out of range it leaves the field unchanged; a change discards the window in progress. -/
def writeWindow (src v : Nat) (s : State) : State :=
  if v = 0 ∨ 60000000 < v ∨ v = getF s F.PORT_RATE_CFG_WINDOW_US src 0 then s
  else setF F.PORT_RATE_CFG_WINDOW_US src 0 v { s with tele := { s.tele with winStart := terase s.tele.winStart src } }

/-! ### Sample rings (R239) -/

/-- SMP_RING_CFG written: EN from 0 to 1 zeroes PROD and CONS; SIZE_LOG2 changes only while EN is 0 and within 6 to 16 (R239, R252). -/
def writeSampleCfg (n v : Nat) (s : State) : State :=
  let was := flag s F.SMP_RING_CFG_EN n 0
  let size := v % 32
  let s1 := if !was && decide (6 ≤ size) && decide (size ≤ 16) then setF F.SMP_RING_CFG_SIZE_LOG2 n 0 size s else s
  let s2 := setF F.SMP_RING_CFG_EN n 0 (b2n (bit v 31)) (setF F.SMP_RING_CFG_VECTOR n 0 (bits v 16 8) s1)
  if !was && bit v 31 then setReg .PROD n 0 0 (setReg .CONS n 0 0 s2) else s2

/-- How many records a host ring has room for. -/
def sampleRoom (s : State) (n : Nat) : Nat :=
  let used := ((reg s .PROD n 0).toNat + 2 ^ 32 - (reg s .CONS n 0).toNat) % 2 ^ 32
  2 ^ getF s F.SMP_RING_CFG_SIZE_LOG2 n 0 - used

/-- SAMPLE_DMA (R239): waiting records move into the host ring while it has room, then PROD is written back and the vector is raised. -/
def execSampleDma (t ring : Nat) (s : State) : Res :=
  need (decide (ring < 8)) "sample ring" ring <| live t (fun s =>
    let l := tgetD s.tele.devRing ring []
    let k := min l.length (sampleRoom s ring)
    if flag s F.SMP_RING_CFG_EN ring 0 && k ≠ 0 && dmaOn s then
      let prod := (reg s .PROD ring 0).toNat
      let size := 2 ^ getF s F.SMP_RING_CFG_SIZE_LOG2 ring 0
      let base := wide s .SMP_RING_BASE ring 2
      let s1 := (List.range k).foldl (fun z i => match l[i]? with
        | some r => emit (.dma (base + (prod + i) % size * 256) r.bytes) z
        | none => z) s
      let s2 := setReg .PROD ring 0 (BitVec.ofNat 32 (prod + k)) { s1 with tele := { s1.tele with devRing := tset s1.tele.devRing ring (l.drop k) } }
      let s3 := setF F.DEV_LEVEL_DEV_LEVEL ring 0 (l.length - k) s2
      raiseVector (getF s3 F.SMP_RING_CFG_VECTOR ring 0) (emit (.dma (wide s3 .SMP_WB_ADDR ring 2) (leBytes 4 (prod + k))) s3)
    else s) s

/-! ### Swatch (R244 to R246) -/

/-- The 32-bit registers taken in section 1 (R246 and the chapters' own sentences). -/
def swatchRegs : List RegName :=
  [.PIPE_PARSE_CNT, .PIPE_LIMIT_CNT, .LEARN_APPLIED, .LEARN_MOVE, .LEARN_DUP, .LEARN_FIFO_OVF, .LEARN_ENG_OVF, .LEARN_TABLE_FULL, .LEARN_STATIC, .AGED_OUT, .AGE_RACE,
   .AGE_OVERRUN, .OVF_DRAIN, .FALSE_HIT_CNT, .SCRUB_FIX_CNT, .SCRUB_SWEEPS, .EPOCH_EXPIRE_DROPS, .PIPE_TCAM_WAIT, .PIPE_TCAM_RETRY]
  ++ [.PAL_STAT0, .PAL_STAT1, .PAL_POOL_USED, .PAL_HP_USED, .PAL_DROP_CNT, .FIFO_DROP_LOSSY, .FIFO_DROP_LOSSLESS, .FIFO_DROP_CONTROL, .SCH_PARK_CNT, .SCH_LATE_CNT,
   .BATCHES, .BATCH_LATE_CNT, .REC_SENT, .REC_LATE, .REC_OVF, .FLOW_EXPORTED, .FLOW_EVICT, .PC_SENT, .PC_LIMITED, .IOAM_INSERT, .IOAM_FILL, .IOAM_DECAP, .IOAM_SKIP]
  ++ [.SMP_DROP, .TRACE_TAGGED, .SWATCH_SKIP_CNT, .VF_DENIED_CNT, .METER_MERGED_CNT, .DROP_CNT, .ABORT_CNT, .CMD_CNT, .REFUSED_CNT,
   .IB_AUTH_FAIL_CNT, .IB_REPLAY_CNT, .CMD_REFUSED_CNT, .CMD_REISSUED_CNT, .ENG_TRAPS, .ENG_OVERRUN]
  ++ [.CW_CORR, .CW_UNCORR, .BAD_BLOCK, .STUFF_VIOL, .FRAME_ERR, .LOCK_LOSS_CNT, .HB_MISS_CNT, .PEER_LOST_CNT, .BKP_REJECT_CNT, .CHAIN_TRANSIT_CNT, .CHAIN_WRAP_CNT,
   .CHAIN_TTL_DROP, .CHAIN_BAD_CNT, .BELOW_BASE_MS, .CAP_UNMET_MS, .DROOP_CNT, .STEP_CNT, .CLASS_CNT, .HIST_TOTAL, .QUAR_RX_DROP, .TILE_LINK_DROP, .BANK_UE_CNT]

/-- Every place of a register of one word: its offset and its two numbers. -/
def regPlaces (n : RegName) : List (Nat × Nat × Nat) :=
  (regRow n).steps.foldl (fun l st => l.flatMap fun x => (List.range st.2.1).map fun k =>
    (x.1 + st.1 * k, x.2.1 + st.2.2.1 * k, x.2.2 + st.2.2.2 * k)) [((regRow n).base, 0, 0)]

/-- The offset that section 1 gives a register: its BAR0 offset; for a register of a BAR2 ring page, which has no BAR0 offset, a free value (place by offset; log 2). -/
def swatchOffset (o : Nat) : Nat := if o < 0x10000000 then o else Config.freeValue o 0

/-- Section 1: pairs of offset and value, ascending. -/
def swatchPairs (s : State) : List (Nat × Nat) :=
  (sortBy (fun x => x.1) (swatchRegs.flatMap fun n => (regPlaces n).map fun p => (p.1, (reg s n p.2.1 p.2.2).toNat))).map fun x => (swatchOffset x.1, x.2)

/-- Buffer offset of a 64-bit counter by family, unit and slot (Table 10.6). -/
def swatchPlace (fam unit slot : Nat) : Nat :=
  match fam with
  | 1 => 0x10000 + 256 * unit + 8 * slot
  | 4 => 0x48000 + 32 * unit + 8 * slot
  | 2 => 0x100000 + 32 * unit + 8 * slot
  | 3 => 0x300000 + 64 * unit + 8 * slot
  | 5 => 0x1000000 + 131072 * unit + 8 * slot
  | _ => 0x4800000 + 131072 * unit + 8 * slot

/-- The section a family lies in. -/
def swatchSection (fam : Nat) : Nat :=
  match fam with
  | 1 => 2
  | 4 => 2
  | 2 => 3
  | 3 => 4
  | _ => 6

/-- The nonzero 64-bit values of the chosen sections 2 to 6, by buffer offset. -/
def swatchVals (s : State) (mask : Nat) : List (Nat × Nat) :=
  let a := (s.tele.ctr.filter (fun e => bit mask (swatchSection e.1.1))).map fun e => (swatchPlace e.1.1 e.1.2.1 e.1.2.2, e.2)
  let b := if bit mask 5 then s.sched.policers.flatMap fun e =>
      let o := 0x400000 + ((e.1.1 * 32 + e.1.2.1) * 4096 + e.1.2.2) * 24
      [(o, e.2.conf), (o + 8, e.2.refused), (o + 16, e.2.refBytes)]
    else []
  sortBy (fun x => x.1) ((a ++ b).filter (fun x => x.2 ≠ 0))

/-- Whether capture `k` cannot start: the previous snapshot is being written, or its buffer is held (R245). -/
def swatchBlocked (s : State) (k : Nat) : Bool :=
  s.tele.writing.isSome || (if k % 2 = 0 then flag s F.SWATCH_STAT_HELD_A 0 0 else flag s F.SWATCH_STAT_HELD_B 0 0)

/-- A periodic capture is skipped (R245). -/
def swatchSkip (s : State) : State :=
  raise0 Ev.CNT_SWATCH_SKIP (bump .SWATCH_SKIP_CNT 0 0 1 { s with tele := { s.tele with swatchK := s.tele.swatchK + 1 } })

/-- The period of periodic captures in ns. -/
def swatchPeriod (s : State) : Nat := getF s F.SWATCH_CFG_PERIOD_MS 0 0 * 1000000

/-- The next periodic instant after a TOD, zero with periods off. -/
def swatchAfter (s : State) (tod : Nat) : Nat := if swatchPeriod s = 0 then 0 else (tod / swatchPeriod s + 1) * swatchPeriod s

/-- Periodic instants that have passed without a capture because each was blocked count as skipped (R245), `n` of them at most. -/
def skipDue : Nat → State → State
  | 0, s => s
  | n + 1, s =>
    let at' := s.tele.swatchNext
    if at' = 0 ∨ s.clk.tod ≤ at' ∨ swatchPeriod s = 0 then s
    else
      let s1 := { s with tele := { s.tele with swatchNext := at' + swatchPeriod s } }
      skipDue n (if swatchBlocked s (s.tele.swatchK + 1) then swatchSkip s1 else s1)

/-- The passed instants, all of them. -/
def skipPassed (s : State) : State := skipDue ((s.clk.tod - s.tele.swatchNext) / max 1 (swatchPeriod s) + 1) s

/-- Take a capture (R244, R245): registers and counters as they stand, and the peaks set to zero.  It completes within 2 ms, at an instant that the spec leaves open (place 1411; log 83), and its DMA then begins. -/
def capture (k time : Nat) (s : State) : State :=
  let mask := putBit (getF s F.SWATCH_CFG_SECTION_MASK 0 0) 0 true
  let c : Capture := { seq := k, time := time, mask := mask, regs := if bit mask 1 then swatchPairs s else [], vals := swatchVals s mask, doneAt := s.clk.mono + freeAt 1411 s % 2000001 }
  setF F.SWATCH_STAT_CAPTURING 0 0 1 <| drawn
    { s with tele := { s.tele with writing := some c, ctr := s.tele.ctr.filter (fun e => !(e.1.1 == 1 && (e.1.2.2 == 15 || e.1.2.2 == 16))) } }

/-- The captures that SWATCH_TAKE asked for, at their instants: one that is blocked then does not start, and is no periodic capture that SWATCH_SKIP would count (R245; log 83). -/
def captureAsked (s : State) : State :=
  (s.tele.asked.filter (fun c => decide (c.time ≤ s.clk.tod))).foldl
    (fun z c => if swatchBlocked z c.seq then z else capture c.seq c.time z)
    { s with tele := { s.tele with asked := s.tele.asked.filter (fun c => decide (s.clk.tod < c.time)) } }

/-- SWATCH_TAKE (0x0506, R245). -/
def execSwatchTake (h : Hdr) (time : Nat) (s : State) : Res :=
  runCmd 0x0506 h noChk (fun _ => some 5) (fun s0 =>
    let s := skipPassed s0
    let k := s.tele.swatchK + 1
    let T := if time < s.clk.tod + 10000 then cdiv (s.clk.tod + 10000) 1000 * 1000 else time
    if swatchBlocked s k then failWith h 0x0506 0x24 0 s
    else finish h 0x0506 { data := leBytes 4 k ++ zeros 4 ++ leBytes 8 T }
      { s with tele := { s.tele with swatchK := k, asked := s.tele.asked ++ [{ seq := k, time := T }] } }) s

/-- SWATCH_CAPTURE (R244, R245): the instant asked for, or a multiple of the period. -/
def execSwatchCapture (t : Nat) (s : State) : Res :=
  live t (fun s =>
    let s1 := captureAsked s
    if swatchPeriod s1 ≠ 0 ∧ s1.clk.tod % swatchPeriod s1 = 0 ∧ s1.tele.swatchNext ≤ s1.clk.tod then
      let s2 := skipPassed s1
      let k := s2.tele.swatchK + 1
      let s3 := { s2 with tele := { s2.tele with swatchNext := s2.clk.tod + swatchPeriod s2 } }
      if swatchBlocked s3 k then swatchSkip s3 else capture k s3.clk.tod { s3 with tele := { s3.tele with swatchK := k } }
    else s1) s

/-- The header of a snapshot without its zero fill (Table 10.9). -/
def swatchHeader (c : Capture) (done : Nat) : List Byte :=
  leBytes 4 0x53574331 ++ leBytes 4 c.seq ++ leBytes 8 c.time ++ leBytes 4 c.mask ++ leBytes 4 c.regs.length ++ leBytes 8 done

/-- SWATCH_DONE (R245): the snapshot of a complete capture is written, its header last, and its buffer is held; while the host has DMA stopped it waits (R256). -/
def execSwatchDone (t : Nat) (s : State) : Res :=
  live t (fun s0 =>
    let s := skipPassed s0
    match s.tele.writing with
    | none => s
    | some c => if s.clk.mono < c.doneAt ∨ dmaOn s = false then s else
      let even := decide (c.seq % 2 = 0)
      let buf := wide s (if even then .SWATCH_BUF_A else .SWATCH_BUF_B) 0 2
      let s1 := emit (.snapshot buf c.mask (swatchHeader c s.clk.tod) c.regs c.vals) { s with tele := { s.tele with writing := none } }
      let s2 := if even then setF F.SWATCH_STAT_HELD_A 0 0 1 { s1 with tele := { s1.tele with heldA := c.seq } }
        else setF F.SWATCH_STAT_HELD_B 0 0 1 { s1 with tele := { s1.tele with heldB := c.seq } }
      raise0 Ev.CNT_SWATCH_DONE (setReg .SWATCH_SEQ 0 0 (BitVec.ofNat 32 c.seq) (setF F.SWATCH_STAT_CAPTURING 0 0 0 s2))) s

/-- SWATCH_RELEASE (0x0507, R245): the buffer held under a sequence number is released. -/
def execSwatchRelease (h : Hdr) (seq : Nat) (s : State) : Res :=
  runCmd 0x0507 h noChk (fun _ => some 5) (fun s0 =>
    let s := skipPassed s0
    if flag s F.SWATCH_STAT_HELD_A 0 0 && s.tele.heldA % 2 ^ 32 = seq then ok h 0x0507 (setF F.SWATCH_STAT_HELD_A 0 0 0 s)
    else if flag s F.SWATCH_STAT_HELD_B 0 0 && s.tele.heldB % 2 ^ 32 = seq then ok h 0x0507 (setF F.SWATCH_STAT_HELD_B 0 0 0 s)
    else failWith h 0x0507 0x21 0 s) s

/-! ### Metering (R250, R251) -/

/-- The seven counters a meter record covers (Table 10.7); for the device record (key 16,384) the static energy stands under ENERGY. -/
def meterVals (s : State) (tac : Nat) : List Nat :=
  if tac = 16384 then [0, 0, 0, 0, 0, 0, wide s .METER_STATIC_UJ 0 2] else (List.range 7).map (fun k => ctr s 3 tac k)

/-- The base of a TAC: while it has had no record since reset, the counters' zeros at the end of boot (R250; log 83). -/
def meterBase (s : State) (tac : Nat) : MeterBase := (tget s.tele.meter tac).getD { start := s.clk.bootEnd }

/-- The TACs that may differ from their bases, in order, and the device record last. -/
def meterTacs (s : State) : List Nat :=
  sortBy id (((s.tele.ctr.filterMap fun e => if e.1.1 = 3 then some e.1.2.1 else none) ++ s.tele.meter.map Prod.fst).eraseDups.filter (fun t => decide (t < 16384))) ++ [16384]

/-- One TAC at a close (R250): a record of its differences, or its base moves; the base before the first record stays at the end of boot. -/
def meterClose (stop : Nat) (step : Bool) (tac : Nat) (s : State) : State :=
  let b := meterBase s tac
  let v := meterVals s tac
  let d := (List.range 7).map fun k => (v[k]?).getD 0 - (b.vals[k]?).getD 0
  if tac ≠ 16384 ∧ d.all (· = 0) then { s with tele := { s.tele with meter := tset s.tele.meter tac { b with start := if b.restart then b.start else stop } } }
  else
    let flags := b2n b.merged + 2 * b2n (tac == 16384) + 4 * b2n b.restart + 8 * b2n step
    { s with tele := { s.tele with meter := tset s.tele.meter tac b
                                   offers := s.tele.offers ++ [{ tac := tac, flags := flags, start := b.start, stop := stop, diffs := d, ends := v }] } }

/-- A minute closes (R250): records not yet offered are lost, every changed TAC yields a record, and the engines begin to offer them. -/
def closeMinute (stop : Nat) (step : Bool) (s : State) : State :=
  let s1 := s.tele.offers.foldl (fun z m => meterLost m z) { s with tele := { s.tele with offers := [] } }
  let s2 := (meterTacs s1).foldl (fun z t => meterClose stop step t z) s1
  offerMeters s2.tele.offers.length (setWide .METER_LAST_END 0 stop 2 s2)

/-- The minute boundary at or before a TOD (R250): TOD seconds less UTC_OFFSET a multiple of 60. -/
def minuteAt (s : State) (tod : Nat) : Nat :=
  let off := getF s F.TEL_CFG_UTC_OFFSET 0 0
  let secs := tod / 1000000000
  (secs - (secs + 300 - off) % 60) * 1000000000

/-- MINUTE_CLOSE (R250, R404): TOD stands on a minute boundary after METER_LAST_END. -/
def execMinuteClose (t : Nat) (s : State) : Res :=
  live t (fun s =>
    if minuteAt s s.clk.tod = s.clk.tod ∧ wide s .METER_LAST_END 0 2 < s.clk.tod then closeMinute s.clk.tod false s else s) s

/-! ### A step of TOD (R403, R404) -/

/-- TOD steps to a value: the backup is set, filling batches close, rate windows in progress are discarded, periodic instants are taken afresh, a capture asked for and passed over is taken, and a forward step over a minute boundary brings one close. -/
def stepTod (new : Nat) (s : State) : State :=
  let old := s.clk.tod
  let s1 := { s with clk := { s.clk with tod := new % 2 ^ 64, aonTod := new % 2 ^ 64, aonMono := s.clk.mono, stepAt := some s.clk.mono } }
  let s2 := (List.range 16).foldl (fun z n => targetStep n z) s1
  let s3 := captureAsked { s2 with tele := { s2.tele with winStart := [], swatchNext := swatchAfter s2 s2.clk.tod } }
  let m := minuteAt s3 s3.clk.tod
  if old < s3.clk.tod ∧ wide s3 .METER_LAST_END 0 2 < m ∧ old < m then closeMinute m true s3 else s3

end Sys2Proof.Machine
end

