-- ==== Sys2Proof/Machine/Rings.lean ====
section
/-! DEFINITION. The packet rings of the CPU path (R266 to R271) and the moves of source attachments (R16, R17).  Ring numbers are 0 to 31 for receive and 32 to 63 for transmit. -/

namespace Sys2Proof.Machine

/-- A packet ring beside its registers. -/
def pktRing (s : State) (r : Nat) : PktRing := tgetD s.host.pkt r {}

/-- Set it. -/
def setPktRing (r : Nat) (x : PktRing) (s : State) : State := { s with host := { s.host with pkt := tset s.host.pkt r x } }

/-- Descriptors of a ring. -/
def ringSize (s : State) (r : Nat) : Nat := 2 ^ getF s F.PKT_RING_CFG_SIZE_LOG2 r 0

/-- The address of the slot `k` after HEAD. -/
def slotAddr (s : State) (r k : Nat) : Nat :=
  wide s .PKT_RING_BASE r 2 + 32 * ((getF s F.RING_HEAD_HEAD r 0 + k) % ringSize s r)

/-- HEAD advances past `k` completed descriptors and is written back (R267). -/
def advanceHead (r k : Nat) (s : State) : State :=
  let h := (getF s F.RING_HEAD_HEAD r 0 + k) % ringSize s r
  let s1 := setPktRing r { pktRing s r with posted := (pktRing s r).posted.drop k } (setF F.RING_HEAD_HEAD r 0 h s)
  emit (.dma (wide s1 .PKT_WB_ADDR r 2) (leBytes 4 h)) s1

/-- One more frame has completed: the vector under the ring's coalescing (R266, R267). -/
def ringVector (r : Nat) (s : State) : State :=
  let x := coalesce (pktRing s r).coal (getF s F.PKT_RING_TIME_COAL_CNT r 0) (getF s F.PKT_RING_TIME_COAL_US r 0) s.clk.mono
  let s1 := setPktRing r { pktRing s r with coal := x.1 } s
  if x.2 then raiseVector (getF s1 F.PKT_RING_CFG_VECTOR r 0) s1 else s1

/-- After a change that may free or take descriptors, the CPU port's queues are looked at again (R268, R269). -/
def ringsChanged (s : State) : State := syncPort 772 s

/-! ### Ring settings (R267, R270) -/

/-- HEAD and TAIL 0, RST_DONE clear: EN goes from 0 to 1. -/
def ringOn (r : Nat) (s : State) : State :=
  setF F.RING_HEAD_HEAD r 0 0 s |> setF F.RING_TAIL_TAIL r 0 0 |> setF F.PKT_RING_CFG_RST_DONE r 0 0 |> setF F.PKT_RING_CFG_EN r 0 1 |> setPktRing r {}

/-- A completed receive descriptor (Table 11.5). -/
def rxDesc (c : Copy) (p : Pkt) (len flags : Nat) : List Byte :=
  leBytes 2 len ++ leBytes 2 c.img.bytes.length ++ leBytes 1 flags ++ leBytes 1 (c.node.ix % 64) ++ leBytes 2 (p.src % 1024) ++ leBytes 2 (p.dec.tac % 16384)
    ++ leBytes 1 (p.epoch % 16) ++ [0] ++ leBytes 4 c.img.cpuMeta ++ leBytes 8 p.ts ++ zeros 8

/-- The descriptors of a frame whose buffers have been written before a reset: ABORT = 1, EOF = 0, the other fields as of a frame that is complete (R270, Table 11.5). -/
def abortDescs (r n : Nat) (c : Copy) (p : Pkt) (s : State) : State :=
  let buf := 1024 * getF s F.PKT_RING_CFG_BUF_KB r 0
  (List.range n).foldl (fun z k => emit (.dma (slotAddr s r k) (rxDesc c p (min buf (c.img.bytes.length - k * buf)) (b2n (k == 0) + 4))) z) s

/-- Reset of a receive ring (R270): the frame being written ends with ABORT, other reserved copies are discarded at dequeue. -/
def resetRx (r : Nat) (s : State) : State :=
  let x := pktRing s r
  let one (i : Nat) (z : State) (e : Nat × Nat) : State :=
    match copyOf z e.1 with
    | none => z
    | some c =>
      if i = 0 ∧ 0 < x.written then
        let z1 := advanceHead r x.written (match pktOf z c.pkt with
          | some p => abortDescs r x.written c p z
          | none => z)
        raise0 Ev.HIF_RX_ABORT (bump .ABORT_CNT r 0 1 (discard c 5 0x11 z1))
      else bump .DROP_CNT r 0 1 (discard c 3 0x11 z)
  let s1 := (x.reserved.zip (List.range x.reserved.length)).foldl (fun z e => one e.2 z e.1) s
  setPktRing r { pktRing s1 r with reserved := [], written := 0 } s1

/-- Reset of a transmit ring (R271): a staged frame is discarded with STATUS 0x02. -/
def resetTx (r : Nat) (s : State) : State :=
  match (pktRing s r).staged with
  | none => s
  | some (_, n) =>
    let s1 := emit (.dma (slotAddr s r (n - 1) + 11) [2]) s
    bump .ABORT_CNT r 0 1 (advanceHead r n (setPktRing r { pktRing s1 r with staged := none } s1))

/-- A write of RESET = 1: no descriptor is reserved from now on (R270). -/
def ringReset (r : Nat) (s : State) : State :=
  ringsChanged (setF F.PKT_RING_CFG_RESET r 0 1 (if r < 32 then resetRx r s else resetTx r s))

/-- The end of a ring reset: EN 0 and RST_DONE 1 (R270). -/
def ringResetDone (r : Nat) (s : State) : State :=
  ringsChanged (setF F.PKT_RING_CFG_EN r 0 0 s |> setF F.PKT_RING_CFG_RST_DONE r 0 1 |> setF F.PKT_RING_CFG_RESET r 0 0 |> fun z => setPktRing r { pktRing z r with posted := [] } z)

/-- A write of a packet ring's RING_CFG (R267, R270, Table 11.4): SIZE_LOG2 and BUF_KB change only while EN is 0 and within their ranges; BUF_KB of a transmit ring reads 0. -/
def writePktRingCfg (r v : Nat) (s : State) : State :=
  let en := flag s F.PKT_RING_CFG_EN r 0
  let s1 := setF F.PKT_RING_CFG_VECTOR r 0 (bits v 16 8) s
  let s2 := if !en && decide (6 ≤ v % 16) then setF F.PKT_RING_CFG_SIZE_LOG2 r 0 (v % 16) s1 else s1
  let s3 := if !en && decide (r < 32) && decide (2 ≤ bits v 8 5) && decide (bits v 8 5 ≤ 16) then setF F.PKT_RING_CFG_BUF_KB r 0 (bits v 8 5) s2 else s2
  if bit v 30 then ringReset r s3
  else if bit v 31 && !en then ringsChanged (ringOn r s3)
  else ringsChanged (setF F.PKT_RING_CFG_EN r 0 (b2n (bit v 31)) s3)

/-- RING_RESET (R270). -/
def execRingReset (t ring : Nat) (s : State) : Res :=
  need (decide (ring < 64)) "packet ring" ring <| live t (ringReset ring) s

/-- RING_RESET_DONE (R270): the reset of a ring completes. -/
def execRingResetDone (t ring : Nat) (s : State) : Res :=
  need (decide (ring < 64)) "packet ring" ring <| live t (fun s =>
    if flag s F.PKT_RING_CFG_RESET ring 0 then ringResetDone ring s else s) s

/-- What a slot's read returns where the row carries nothing for it: a free value, since host memory is outside the device (place 1110; log 27). -/
def slotBytes (s : State) (k : Nat) : List Byte := leBytes 32 (Config.freeValue 1110 (s.free * 32768 + k))

/-- TAIL is written (R266 to R268, R271): `slots` are what the device's reads of the newly filled slots return. -/
def writeTail (r tail : Nat) (slots : List (List Byte)) (s : State) : State :=
  let size := ringSize s r
  let n := (tail % size + size - getF s F.RING_TAIL_TAIL r 0 % size) % size
  let new := (List.range n).map fun k => (slots[k]?).getD (slotBytes s k)
  ringsChanged (drawn (setPktRing r { pktRing s r with posted := (pktRing s r).posted ++ new } (setF F.RING_TAIL_TAIL r 0 (tail % size) s)))

/-- RING_TAIL_WRITE (R268, R271). -/
def execRingTailWrite (t ring tail : Nat) (frames : List (List Byte)) (s : State) : Res :=
  need (decide (ring < 64)) "packet ring" ring <| live t (writeTail ring tail frames) s

/-- COAL_TIMER (R267, R286): COAL_US has passed since the first completion after the ring's last message. -/
def execCoalTimer (t : Nat) (cmd : Bool) (ring : Nat) (s : State) : Res :=
  need (decide (ring < if cmd then 16 else 64)) "ring" ring <| live t (fun s =>
    let c := if cmd then (cmdRing s ring).coal else (pktRing s ring).coal
    let us := if cmd then getF s F.CMD_RING_TIME_COAL_US ring 0 else getF s F.PKT_RING_TIME_COAL_US ring 0
    if c.count ≠ 0 ∧ us ≠ 0 ∧ c.first + us * 1000 ≤ s.clk.mono then
      if cmd then raiseVector (getF s F.CMD_RING_CFG_VECTOR ring 0) (setCmdRing ring { cmdRing s ring with coal := {} } s)
      else raiseVector (getF s F.PKT_RING_CFG_VECTOR ring 0) (setPktRing ring { pktRing s ring with coal := {} } s)
    else s) s

/-! ### Receive (R268, R269) -/

/-- Bytes of a frame in its `k`th buffer. -/
def inBuffer (s : State) (r : Nat) (c : Copy) (k : Nat) : List Byte :=
  let buf := 1024 * getF s F.PKT_RING_CFG_BUF_KB r 0
  slice c.img.bytes (k * buf) buf

/-- The frame is wholly in its buffers: its descriptors complete, HEAD advances, and its record closes at point 0 (R235, R268). -/
def completeRx (r k : Nat) (c : Copy) (p : Pkt) (s : State) : State :=
  let s1 := (List.range k).foldl (fun z i => emit (.dma (slotAddr s r i) (rxDesc c p (inBuffer s r c i).length (b2n (i == 0) + 2 * b2n (i + 1 == k)))) z) s
  let s2 := ringVector r (advanceHead r k (setPktRing r { pktRing s1 r with written := 0 } s1))
  let out := c.img.bytes.length + 4
  let s3 := addCtr 1 772 6 1 (addCtr 1 772 7 out s2)
  let g := { copyGlaze s3 p c 0 0 with latency := latency32 s3 s3.clk.tod p, outLen := out }
  ringsChanged (closeCopy c (closeRecord ⟨g, p, copyCluster s3 c, c.img.key, c.egStamps, false⟩ s3))

/-- CPU_RX_DELIVER (R268): up to `count` more buffers of the ring's oldest reserved copy are written, once its bytes are ready; with the last one the frame completes. -/
def execCpuRxDeliver (t ring count : Nat) (s : State) : Res :=
  need (decide (ring < 32)) "receive ring" ring <| live t (fun s =>
    let x := pktRing s ring
    match x.reserved with
    | [] => s
    | (id, _) :: _ =>
      match copyOf s id with
      | none => s
      | some c =>
        match pktOf s c.pkt with
        | none => s
        | some p =>
          if c.phase = .ready ∧ allRead s c ∧ !flag s F.PKT_RING_CFG_RESET ring 0 then
            let k := max 1 (cdiv c.img.bytes.length (1024 * getF s F.PKT_RING_CFG_BUF_KB ring 0))
            let n := min k (x.written + count)
            let s1 := ((List.range n).drop x.written).foldl (fun z i =>
              emit (.dma (leAt ((x.posted[i]?).getD (slotBytes s i)) 0 8 / 64 * 64) (inBuffer s ring c i)) z) s
            let s2 := setPktRing ring { pktRing s1 ring with written := n } s1
            if n = k then completeRx ring k c p s2 else s2
          else s) s

/-- RX_HOLD_EXPIRE (R269): the head copy has lacked descriptors for HOLD_US. -/
def execRxHoldExpire (t queue : Nat) (s : State) : Res :=
  need (decide (queue < 48)) "CPU queue" queue <| live t (fun s0 =>
    let s := syncHold s0
    match tget s.host.hold queue with
    | some (id, n, some f) =>
      let r := ringOf s queue
      if getF s F.PKT_RING_TIME_HOLD_US r 0 * 1000 ≤ n + (s.clk.mono - f) then
        match copyOf s id with
        | some c => ringsChanged (raise0 Ev.HIF_RX_RING_EMPTY (bump .DROP_CNT r 0 1 (discard c 3 0x11 s)))
        | none => s
      else s
    | _ => s) s

/-! ### Transmit (R271) -/

/-- FLAGS bits of a transmit descriptor. -/
def txSof (d : List Byte) : Bool := bit (leAt d 10 1) 0
/-- EOF. -/
def txEof (d : List Byte) : Bool := bit (leAt d 10 1) 1

/-- The descriptors of the next frame, up to its EOF; none while no EOF stands before TAIL. -/
def nextFrame (l : List (List Byte)) : Option (List (List Byte)) :=
  let n := (l.takeWhile (fun d => !txEof d)).length
  if n < l.length then some (l.take (n + 1)) else none

/-- The buffer bytes of a transmit slot: LEN bytes. -/
def txBuffer (d : List Byte) : List Byte :=
  let n := leAt d 8 2
  (slice d 32 n) ++ zeros (n - (d.length - 32))

/-- Whether a frame is malformed (R271). -/
def txMalformed (l : List (List Byte)) : Bool :=
  !(match l with
    | d :: _ => txSof d
    | [] => false)
  || (l.drop 1).any txSof
  || l.any (fun d => leAt d 8 2 == 0 || leAt d 10 1 / 4 ≠ 0 || (slice d 12 20).any (· ≠ 0) || decide (16384 < leAt d 8 2))
  || decide (16348 < (l.map (fun d => leAt d 8 2)).sum) || decide (64 < l.length)

/-- Whether a staged frame may enter the FIFO now: room within its class's limit, and its class is not paused (R179, R182, R271). -/
def txRoom (s : State) (f : List Byte) : Bool :=
  let ic := frameIclass s hostSrc f
  let pipe := ingressPipe s hostSrc
  decide (getF s F.FIFO_STAT_LEVEL pipe 0 + f.length + 4 ≤ fifoLimit s pipe (admClass s hostSrc ic f))
    && !hostPaused s ic && (movingFrom s hostSrc).isNone

/-- The frame enters the FIFO as source 772 and its descriptors complete with STATUS 0x00. -/
def enterTx (r : Nat) (f : List Byte) (n : Nat) (s : State) : State :=
  let s1 := offer hostSrc (frameIclass s hostSrc f) f true s.clk.tod (rxGood hostSrc (f.length + 4) s)
  let s2 := emit (.dma (slotAddr s1 r (n - 1) + 11) [0]) (setPktRing r { pktRing s1 r with staged := none } s1)
  let s3 := ringVector r (advanceHead r n s2)
  { s3 with host := { s3.host with txRr := r - 32 } }

/-- Serve one ring, where it has anything to serve: a staged frame that now fits, or its next frame. -/
def serveTx (r : Nat) (s : State) : Option State :=
  if !flag s F.PKT_RING_CFG_EN r 0 || flag s F.PKT_RING_CFG_RESET r 0 then none
  else match (pktRing s r).staged with
    | some (f, n) => if txRoom s f then some (enterTx r f n s) else none
    | none => match nextFrame (pktRing s r).posted with
      | none => none
      | some l =>
        if txMalformed l then
          let s1 := emit (.dma (slotAddr s r (l.length - 1) + 11) [1]) s
          let s2 := ringVector r (advanceHead r l.length (raise0 Ev.HIF_TX_BAD (bump .DROP_CNT r 0 1 s1)))
          some { s2 with host := { s2.host with txRr := r - 32 } }
        else
          let raw := l.flatMap txBuffer
          let f := raw ++ zeros (60 - raw.length)
          if txRoom s f then some (enterTx r f l.length s)
          else some { setPktRing r { pktRing s r with staged := some (f, l.length) } s with host := { (setPktRing r { pktRing s r with staged := some (f, l.length) } s).host with txRr := r - 32 } }

/-- The first of some rings that has anything to serve. -/
def serveFirst : List Nat → State → State
  | [], s => s
  | r :: rs, s => match serveTx r s with
    | some s1 => s1
    | none => serveFirst rs s

/-- TX_FRAME_SERVE (R271): one frame, in round-robin order from the ring after the one served last. -/
def execTxFrameServe (t : Nat) (s : State) : Res :=
  live t (fun s => serveFirst ((List.range 32).map (fun k => 32 + (s.host.txRr + 1 + k) % 32)) s) s

/-! ### Source attachments (R16, R17) -/

/-- The field of GLB_SRC_MAP0 and GLB_SRC_MAP1 that names a source's pipeline: sources 0 to 3 are SL0 to SL3, 4 is the host path. -/
def srcField (k : Nat) : Fld := if k < 4 then ⟨.GLB_SRC_MAP0, 8 * k, 5⟩ else F.GLB_SRC_MAP1_HOST_PIPE

/-- PEND of a source. -/
def setPend (k : Nat) (b : Bool) (s : State) : State := setF ⟨.GLB_SRC_MAP1, 16 + k, 1⟩ 0 0 (b2n b) s

/-- A move begins: a drain marker enters the old pipeline's FIFO, and new frames are held (R17). -/
def startMove (k old new : Nat) (s : State) : State :=
  let p := servingPipe s 0 old
  let m : FifoEnt := { id := s.pal.nextId, frame := [], len := 0, ended := true, tailBad := false, src := 768 + k, admClass := 0, iclass := 0, ts := 0, tsMono := 0, marker := true }
  setPend k true (setFifo p (fifo s p ++ [m])
    { s with port := { s.port with srcOld := tset s.port.srcOld k old, srcTo := tset s.port.srcTo k new }, pal := { s.pal with nextId := s.pal.nextId + 1 } })

/-- A source's field is written: it reads as written at once, and a move begins unless one is in progress (R17). -/
def mapSource (k new : Nat) (s : State) : State :=
  let old := getF s (srcField k) 0 0
  let s1 := setF (srcField k) 0 0 new s
  if old = new ∨ (tget s.port.srcOld k).isSome then s1 else startMove k old new s1

/-- GLB_SRC_MAP0 or GLB_SRC_MAP1 written. -/
def writeSrcMap (index v : Nat) (s : State) : State :=
  if index = 0 then [0, 1, 2, 3].foldl (fun z k => mapSource k (bits v (8 * k) 5) z) s else mapSource 4 (bits v 0 5) s

/-- Whether a moving source's drain marker has left its old pipeline (R17): in the FIFO with nothing ahead of it and the pipeline empty, or in the pipeline with every packet that was ahead of it gone. -/
def markerOut (s : State) (p k : Nat) : Bool :=
  let mine (e : FifoEnt) : Bool := e.marker && e.src == 768 + k
  let inside := tgetD s.pal.inPipe p []
  if (fifo s p).any mine then ((fifo s p).takeWhile (fun e => !mine e)).all FifoEnt.marker && inside.isEmpty
  else !inside.any (fun x => (tgetD s.port.srcAhead k []).contains x.id)

/-- The entries scoped to a port in the policy tables of a direction (R120) that have a row: of one invalidated under R124 the device holds no other copy. -/
def scopedIn (s : State) (dir port : Nat) : List TcamEnt :=
  s.tbl.tcam.filter fun e => e.scope == port && !e.pipes.isEmpty && (match polDef s e.table with
    | some d => d.egress == (dir == 1)
    | none => false)

/-- The pipeline that is to serve a moving source in a direction. -/
def moveTarget (s : State) (dir to' : Nat) : Nat := servingPipe s dir to'

/-- Whether a moving source's scoped rows all lie in the new pipeline (R121). -/
def scopeReady (s : State) (src to' : Nat) : Bool :=
  [0, 1].all fun dir => (scopedIn s dir (768 + src)).all fun e => e.pipes.contains (moveTarget s dir to')

/-- The old rows of ports whose move is complete are freed: the row written last stays (R121). -/
def freeScope (ports : List Nat) (s : State) : State :=
  setTcam (s.tbl.tcam.map fun e => if ports.contains e.scope then { e with pipes := e.pipes.take 1 } else e) s

/-- SRC_MOVE_DONE (R17, R121): the source's scoped rows lie in the new pipeline, and the marker has left the old pipeline; held frames enter the new one, and a newer value starts the next move behind a new marker. -/
def execSrcMoveDone (t src : Nat) (s : State) : Res :=
  need (decide (src < 5)) "source" src <| live t (fun s =>
    match tget s.port.srcOld src, tget s.port.srcTo src with
    | some old, some to' =>
      let p := servingPipe s 0 old
      if !markerOut s p src || !scopeReady s src to' then s
      else
        let s1 := setFifo p ((fifo s p).filter (fun e => !(e.marker && e.src == 768 + src))) s
        let held := tgetD s1.port.srcHeld src []
        let s2 := setPend src false <| freeScope [768 + src] { s1 with port := { s1.port with srcOld := terase s1.port.srcOld src, srcTo := terase s1.port.srcTo src, srcHeld := terase s1.port.srcHeld src, srcAhead := terase s1.port.srcAhead src } }
        let s3 := held.foldl (fun z e => fifoOffer (servingPipe z 0 to') e z) s2
        let now := getF s3 (srcField src) 0 0
        if now = to' then s3 else startMove src to' now s3
    | _, _ => s) s

end Sys2Proof.Machine
end

