-- ==== Sys2Proof/Machine/Power.lean ====
section
/-! DEFINITION. Power, thermal and ageing (Chapter 16): the capping loop, boost, sensors and throttles, the thermal trip, droop, sleep and wake, energy coefficients, and the power commands. -/

namespace Sys2Proof.Machine

/-! ### Throttle, alert and clocks -/

/-- The effective TCAM throttle (R355): the greater of THR_CAP and THR_THERM; a change is raised (R125). -/
def syncThrottle (s : State) : State :=
  let v := max (getF s F.PWR_STAT1_THR_CAP 0 0) (getF s F.PWR_STAT1_THR_THERM 0 0)
  if getF s F.TCAM_STAT_THROTTLE 0 0 = v then s else raise0 Ev.TCAM_THROTTLE_CHANGE (setF F.TCAM_STAT_THROTTLE 0 0 v s)

/-- PWR_ALERT_N (R363). -/
def alertLow (s : State) : Bool := flag s F.PWR_STAT0_BELOW_BASE 0 0 || flag s F.PWR_STAT0_CAP_UNMET 0 0 || flag s F.PWR_STAT2_T_OVER 0 0

/-- After a change from `old`, PWR_ALERT_N is driven where its level changes. -/
def syncAlert (old : State) (s : State) : State :=
  if alertLow old = alertLow s then s else emit (.pin 4 (b2n (!alertLow s))) s

/-- FIXED_DEV (R358): only in MODE 1, while CAP_STEP is 7 or more or THR_THERM is not 0. -/
def syncFixed (s : State) : State :=
  setF F.PWR_STAT0_FIXED_DEV 0 0
    (b2n (flag s F.PWR_CTL_MODE 0 0 && (decide (7 ≤ getF s F.PWR_STAT0_CAP_STEP 0 0) || getF s F.PWR_STAT1_THR_THERM 0 0 ≠ 0))) s

/-- V_BASE, fused per part (log 4). -/
def vBase : Nat := Config.fuseWord 4 % 1024

/-- VDD_CORE in mV for a core clock (Table 16.1), rounded down. -/
def vddFor (mhz : Nat) : Nat :=
  if 2100 ≤ mhz then min (vBase + 40) 780
  else if 1800 ≤ mhz then vBase + (mhz - 1800) * 40 / 300
  else if 1200 ≤ mhz then vBase - (1800 - mhz) * (vBase - 620) / 600
  else 620

/-- Show a core clock (R352, Table 16.5). -/
def setClock (mhz : Nat) (s : State) : State :=
  setF F.PWR_STAT1_CORE_MHZ 0 0 mhz s |> setF F.PWR_STAT0_BOOST 0 0 (b2n (decide (1800 < mhz)))

/-- Move the core clock toward a target (R352): down at once with the voltage after it, up only once the regulator confirms the voltage asked for first. -/
def aimClock (mhz : Nat) (s : State) : State :=
  let now := getF s F.PWR_STAT1_CORE_MHZ 0 0
  let want (w : Option Nat) (z : State) : State := { z with pwr := { z.pwr with wantMhz := w } }
  if mhz < now then want none (setClock mhz (emit (.pin 3 (vddFor mhz)) s))
  else if now < mhz then (if s.pwr.wantMhz = some mhz then s else want (some mhz) (emit (.pin 3 (vddFor mhz)) s))
  else want none s

/-- VOLTAGE_CONFIRMED (R352). -/
def execVoltageConfirmed (t : Nat) (s : State) : Res :=
  live t (fun s => match s.pwr.wantMhz with
    | some m => { setClock m s with pwr := { (setClock m s).pwr with wantMhz := none } }
    | none => s) s

/-! ### The cap ladder (R353, Table 16.2) -/

/-- Whether boost is permitted (R358). -/
def boostPermitted (s : State) : Bool :=
  !s.fuse.gradeS && !flag s F.PWR_CTL_MODE 0 0 && bootStage s = 6 && !s.pwr.heldRegion
    && decide (signed 16 (getF s F.PWR_STAT2_HOT_T 0 0) < ((16 * getF s F.PWR_THRESH_T1 0 0 : Nat) : Int))

/-- The clock of a ladder position. -/
def stepClock (boost : Bool) (step : Nat) : Nat :=
  if step ≤ 6 then (if boost then 2100 - 50 * step else 1800)
  else if step ≤ 13 then 1800
  else 1800 - 100 * (step - 13)

/-- THR_CAP of a ladder position. -/
def stepThr (step : Nat) : Nat := if step < 7 then 0 else min 3 (step - 6)

/-- DUTY_OFF of a ladder position. -/
def stepDuty (step : Nat) : Nat := if step < 10 then 0 else 2 * (min 13 step - 9)

/-- What a position does in the present state: clock, effective throttle, duty. -/
def stepEffect (s : State) (step : Nat) : Nat × Nat × Nat :=
  (stepClock (boostPermitted s) step, max (stepThr step) (getF s F.PWR_STAT1_THR_THERM 0 0), stepDuty step)

/-- The position a tightening reaches: steps that change nothing are passed over, up to 22. -/
def tighter (s : State) : Nat → Nat → Nat
  | 0, step => step
  | n + 1, step => if 22 ≤ step then step else if stepEffect s (step + 1) = stepEffect s step then tighter s n (step + 1) else step + 1

/-- The position a relaxation reaches, down to 0. -/
def looser (s : State) : Nat → Nat
  | 0 => 0
  | step + 1 => if stepEffect s step = stepEffect s (step + 1) then looser s step else step

/-- Put a ladder position into force. -/
def setStep (step : Nat) (s : State) : State :=
  let s1 := setF F.PWR_STAT0_CAP_STEP 0 0 step s |> setF F.PWR_STAT1_THR_CAP 0 0 (stepThr step) |> setF F.PWR_STAT1_DUTY_OFF 0 0 (stepDuty step)
  let was := flag s F.PWR_STAT0_BELOW_BASE 0 0
  let s2 := setF F.PWR_STAT0_BELOW_BASE 0 0 (b2n (decide (14 ≤ step))) (syncFixed (syncThrottle s1))
  let s3 := if !was && decide (14 ≤ step) then raise0 Ev.PWR_BELOW_BASE s2 else s2
  aimClock (stepClock (boostPermitted s3) step) s3

/-- A change of position and its moment. -/
def moveStep (step : Nat) (s : State) : State :=
  let s1 := setStep step s
  { s1 with pwr := { s1.pwr with changedAt := s1.clk.mono } }

/-- Count whole milliseconds of a condition (BELOW_BASE_MS, CAP_UNMET_MS): the new remainder and the register. -/
def countMs (n : RegName) (on : Bool) (rem elapsed : Nat) (s : State) : Nat × State :=
  if on then ((rem + elapsed) % 1000000, bump n 0 0 ((rem + elapsed) / 1000000) s) else (rem, s)

/-- The settings that wait for a pass take effect (R357). -/
def applySettings (s : State) : State :=
  let s1 := match s.pwr.cap with
    | some c => setF F.PWR_CTL_CAP_W 0 0 c s
    | none => s
  let s2 := match s.pwr.mode with
    | some m => setF F.PWR_CTL_MODE 0 0 m s1
    | none => s1
  let s3 := match s.pwr.thresh with
    | some (a, b, c, h) => setF F.PWR_THRESH_T1 0 0 a s2 |> setF F.PWR_THRESH_T2 0 0 b |> setF F.PWR_THRESH_T3 0 0 c |> setF F.PWR_THRESH_HYST 0 0 h
    | none => s2
  { s3 with pwr := { s3.pwr with cap := none, mode := none, thresh := none } }

/-- The estimate and its mean over the last 16 passes (R350), whole watts, saturating at 2,047. -/
def estimate (est : Nat) (s : State) : State :=
  let l := (min 2047 est :: s.pwr.last).take 16
  setF F.PWR_STAT0_PWR_EST_W 0 0 (min 2047 est) { s with pwr := { s.pwr with last := l } }
    |> setF F.PWR_STAT0_PWR_AVG_W 0 0 (l.sum / max 1 l.length)

/-- The energy coefficients of a pass (R367): bases in fJ times the square of VDD_CORE over V_BASE, rounded down; class 7 reads zero. -/
def rescale (vr : Nat) (s : State) : State :=
  let sq (x : Nat) : Nat := x * vr * vr / max 1 (vBase * vBase)
  (List.range 7).foldl (fun z c => setReg .PKT_COEF c 0 (BitVec.ofNat 32 (sq (Config.fuseWord (16 + c))))
    (setReg .BYTE_COEF c 0 (BitVec.ofNat 32 (Config.fuseWord (24 + c) + sq (Config.fuseWord (32 + c)))) z)) s

/-- METER_STATIC_UJ grows by the static energy of a pass (R368), in fJ. -/
def growStatic (fj : Nat) (s : State) : State :=
  let e := s.pwr.staticFj + fj
  setWide .METER_STATIC_UJ 0 (wide s .METER_STATIC_UJ 0 2 + e / 1000000000) 2 { s with pwr := { s.pwr with staticFj := e % 1000000000 } }

/-- CAP_UNMET (R356): set after 1 ms above the cap at CAP_STEP 22, cleared after 1 ms within it. -/
def unmet (avg cap : Nat) (s : State) : State :=
  let p := s.pwr
  let now := s.clk.mono
  if cap < avg then
    let since := if getF s F.PWR_STAT0_CAP_STEP 0 0 = 22 then some (p.unmetSince.getD now) else none
    let s1 := { s with pwr := { p with unmetSince := since, metSince := none } }
    if !flag s F.PWR_STAT0_CAP_UNMET 0 0 && (match since with
      | some a => decide (a + 1000000 ≤ now)
      | none => false) then raise0 Ev.PWR_CAP_UNMET (setF F.PWR_STAT0_CAP_UNMET 0 0 1 s1) else s1
  else
    let since := p.metSince.getD now
    let s1 := { s with pwr := { p with unmetSince := none, metSince := some since } }
    if since + 1000000 ≤ now then setF F.PWR_STAT0_CAP_UNMET 0 0 0 s1 else s1

/-- Boost permission at a pass (R358): when it ends, the clock falls to 1.8 GHz; when it comes back, the position stands at the last boost step, so that the clock rises only by relaxation (log 30). -/
def syncBoost (s : State) : State :=
  let ok := boostPermitted s
  let was := flag s F.PWR_STAT0_BOOST_OK 0 0
  let s1 := setF F.PWR_STAT0_BOOST_OK 0 0 (b2n ok) s
  let step := getF s F.PWR_STAT0_CAP_STEP 0 0
  if ok && !was then
    let s2 := { s1 with pwr := { s1.pwr with boosted := true } }
    if s.pwr.boosted && decide (step < 6) then setStep 6 s2 else setStep step s2
  else if was && !ok then setStep step s1
  else s1

/-- Tighten or relax (R353, R362, R365). -/
def ladder (avg cap proj : Nat) (s : State) : State :=
  let step := getF s F.PWR_STAT0_CAP_STEP 0 0
  let hot := decide (((1696 : Nat) : Int) ≤ signed 16 (getF s F.PWR_STAT2_HOT_T 0 0))
  let low := decide (avg + 40 ≤ cap)
  let s1 := { s with pwr := { s.pwr with lowSince := if low then some (s.pwr.lowSince.getD s.clk.mono) else none, sinceTight := min 16 (s.pwr.sinceTight + 1) } }
  let tight := tighter s1 22 step
  if (s.pwr.droopTight || ((decide (cap < avg) || hot) && decide (16 ≤ s1.pwr.sinceTight))) && decide (step < 22) then
    let s2 := bump .STEP_CNT 0 0 1 (moveStep tight s1)
    { s2 with pwr := { s2.pwr with sinceTight := 0, droopTight := false } }
  else
    let s2 := { s1 with pwr := { s1.pwr with droopTight := false } }
    let loose := looser s2 step
    let raises := decide (stepClock (boostPermitted s2) step < stepClock (boostPermitted s2) loose)
    let held := match s2.pwr.lowSince with
      | some a => decide (a + 1000000 ≤ s2.clk.mono)
      | none => false
    if held && decide (s2.pwr.changedAt + 1000000 ≤ s2.clk.mono) && decide (0 < step) && !flag s2 F.PWR_STAT2_T_OVER 0 0 && (!raises || decide (proj + 40 ≤ cap)) then moveStep loose s2
    else s2

/-- POWER_LOOP_PASS (R350, R353 to R359, R367, R368): `vr` is the measured VDD_CORE in mV; `est` the estimate in W that the pass forms from the activity counters and fused tables, `static` its static energy in fJ, and `proj` the power in W it projects for a relaxation that raises the clock (log 28).  Before Ready the loop does not act (R370). -/
def execPowerLoopPass (t vr est static proj : Nat) (s : State) : Res :=
  live t (fun s =>
    if bootStage s ≠ 6 then s
    else
      let dt := s.clk.mono - s.pwr.passAt
      let s1 := applySettings (setF F.PWR_STAT1_VCORE_MV 0 0 vr s)
      let b := countMs .BELOW_BASE_MS (flag s1 F.PWR_STAT0_BELOW_BASE 0 0) s1.pwr.belowNs dt s1
      let u := countMs .CAP_UNMET_MS (flag b.2 F.PWR_STAT0_CAP_UNMET 0 0) b.2.pwr.unmetNs dt b.2
      let s2 := { u.2 with pwr := { u.2.pwr with belowNs := b.1, unmetNs := u.1, passAt := s.clk.mono, stalled := false } }
      let s3 := growStatic static (rescale vr (estimate est s2))
      let resumed := if s.pwr.stalled then setStep (getF s3 F.PWR_STAT0_CAP_STEP 0 0) s3 else s3
      let s4 := syncBoost resumed
      let avg := getF s4 F.PWR_STAT0_PWR_AVG_W 0 0
      let cap := getF s4 F.PWR_CTL_CAP_W 0 0
      syncAlert s (syncFixed (unmet avg cap (ladder avg cap proj s4)))) s

/-- LOOP_STALL (R359): no pass for 64 µs; the AON island limits the clock to 1.8 GHz. -/
def execLoopStall (t : Nat) (s : State) : Res :=
  live t (fun s =>
    if s.pwr.stalled || decide (s.clk.mono < s.pwr.passAt + 64000) then s
    else
      let s1 := { s with pwr := { s.pwr with stalled := true, wantMhz := none } }
      let s2 := if 1800 < getF s1 F.PWR_STAT1_CORE_MHZ 0 0 then setClock 1800 (emit (.pin 3 (vddFor 1800)) s1) else s1
      raise0 Ev.PWR_LOOP_STALL s2) s

/-! ### Temperature (R360 to R364) -/

/-- The sensors of the region a sensor lies in (R360). -/
def regionOf (i : Nat) : List Nat :=
  if i < 32 then (List.range 4).map (i / 4 * 4 + ·)
  else if i < 40 then (List.range 8).map (32 + ·)
  else (List.range 3).map ((i - 40) / 3 * 3 + 40 + ·)

/-- Twice the median of some readings. -/
def median2 (l : List Int) : Int :=
  let v := sortBy (fun x => (x + 32768).toNat) l
  ((v[(v.length - 1) / 2]?).getD 0) + ((v[v.length / 2]?).getD 0)

/-- Whether a reading is valid (R360): within −50 °C to 150 °C and 15 °C of its region's median. -/
def sensorOk (temps : List Int) (i : Nat) : Bool :=
  let x := (temps[i]?).getD 0
  let m := median2 ((regionOf i).map (fun k => (temps[k]?).getD 0))
  decide (-800 ≤ x) && decide (x ≤ 2400) && decide ((2 * x - m).natAbs ≤ 480)

/-- The check of every sensor (R360): one that becomes invalid, or is so at the first check, is raised; a region with none valid holds THR_THERM at 3. -/
def checkSensors (temps : List Int) (s : State) : State :=
  let s1 := (List.range 64).foldl (fun z i =>
    let ok := sensorOk temps i
    let was := flag z F.TEMP_VALID i 0 || !z.pwr.checked
    let z1 := setF F.TEMP_VALID i 0 (b2n ok) z
    if was && !ok then raise0 Ev.PWR_SENSOR_FAIL z1 else z1) s
  let dead := (List.range 64).any (fun i => (regionOf i).all (fun k => !flag s1 F.TEMP_VALID k 0))
  { s1 with pwr := { s1.pwr with checked := true, heldRegion := s1.pwr.heldRegion || dead } }

/-- The hottest valid sensor, the lowest-numbered of equal ones. -/
def hottest (temps : List Int) (s : State) : Option (Nat × Int) :=
  (List.range 64).foldl (fun a i =>
    let x := (temps[i]?).getD 0
    if !flag s F.TEMP_VALID i 0 then a
    else match a with
      | some (_, y) => if y < x then some (i, x) else a
      | none => some (i, x)) none

/-- The thermal level after a sample at temperature `T`, in 1/16 °C (R361). -/
def thermLevel (s : State) (T : Int) : Nat :=
  let l := getF s F.PWR_STAT1_THR_THERM 0 0
  let thr (k : Nat) : Int := ((16 * getF s (if k = 1 then F.PWR_THRESH_T1 else if k = 2 then F.PWR_THRESH_T2 else F.PWR_THRESH_T3) 0 0 : Nat) : Int)
  let up := if thr 3 ≤ T then 3 else if thr 2 ≤ T then 2 else if thr 1 ≤ T then 1 else 0
  if s.pwr.heldRegion then 3
  else if l < up then up
  else if 0 < l ∧ T < thr l - ((16 * getF s F.PWR_THRESH_HYST 0 0 : Nat) : Int) then l - 1
  else l

/-- The thermal trip (R364): drivers off, every clock but AON stopped, FAULT_N and THERMTRIP_N asserted; no LAST_GASP. -/
def thermalTrip (s : State) : State :=
  let s1 := (List.range 96).foldl (fun z m => (List.range 8).foldl (fun y l => if (tget y.rf.words ⟨.LANE_TXCTL, m, l⟩).isSome then setF F.LANE_TXCTL_TX_STATE m l 0 y else y) z) s
  let s2 := (List.range 4).foldl (fun z n => (List.range 8).foldl (fun y l => setF F.STL_LANE_TXCTL_TX_STATE n l 0 y) z) s1
  let s3 := setF F.PWR_STAT2_TRIP_SEEN 0 0 1 s2
  emit (.pin 1 0) (emit (.pin 0 0) { s3 with flt := { s3.flt with tripped := true } })

/-- THERM_SAMPLE (R360 to R364): every 20 µs the AON island samples the 64 sensors, in 1/16 °C.  The first sample after a reset is also the first check (log 29). -/
def execThermSample (t : Nat) (temps : List Int) (s : State) : Res :=
  aon t (fun s0 =>
    if s0.flt.tripped then s0
    else
      let s := (List.range 64).foldl (fun z i => setF F.TEMP_TEMP i 0 (unsignedOf 16 ((temps[i]?).getD 0)) z) s0
      let s1 := if s.pwr.checked then s else checkSensors temps s
      match hottest temps s1 with
      | none => if s1.pwr.heldRegion then syncFixed (syncThrottle (setF F.PWR_STAT1_THR_THERM 0 0 3 s1)) else s1
      | some (i, T) =>
        let s2 := setF F.PWR_STAT2_HOT_T 0 0 (unsignedOf 16 T) s1 |> setF F.PWR_STAT2_HOT_SENSOR 0 0 i
        let l := thermLevel s2 T
        let s3 := if l = getF s2 F.PWR_STAT1_THR_THERM 0 0 then s2 else raise0 Ev.PWR_THERM_CHANGE (syncFixed (syncThrottle (setF F.PWR_STAT1_THR_THERM 0 0 l s2)))
        let s4 := if T < 1664 then setF F.PWR_STAT2_T_OVER 0 0 0 s3
          else if 1696 ≤ T ∧ !flag s3 F.PWR_STAT2_T_OVER 0 0 then raise0 Ev.PWR_T_OVER (setF F.PWR_STAT2_T_OVER 0 0 1 s3) else s3
        let hot := (List.range 64).filter (fun k => flag s4 F.TEMP_VALID k 0 && decide (1840 ≤ (temps[k]?).getD 0))
        let s5 := syncAlert s0 { s4 with pwr := { s4.pwr with tooHot := hot } }
        if hot.any (s0.pwr.tooHot.contains ·) then thermalTrip s5 else s5) s

/-- SENSOR_CHECK (R360): once a second. -/
def execSensorCheck (t : Nat) (temps : List Int) (s : State) : Res :=
  aon t (fun s => if s.flt.tripped then s else
    let s1 := checkSensors temps s
    if s1.pwr.heldRegion && getF s1 F.PWR_STAT1_THR_THERM 0 0 ≠ 3 then raise0 Ev.PWR_THERM_CHANGE (syncFixed (syncThrottle (setF F.PWR_STAT1_THR_THERM 0 0 3 s1))) else s1) s

/-! ### Droop and ageing (R365, R369) -/

/-- DROOP_DETECT (R365): one stretched cycle of a domain; more than 1,000 within 1 ms raise DROOP_BURST and tighten at the next pass. -/
def execDroopDetect (t domain : Nat) (s : State) : Res :=
  need (decide (2 ≤ domain) && decide (domain ≤ 10) || domain == 20) "droop domain" domain <| live t (fun s =>
    let l := s.clk.mono :: s.pwr.droops.filter (fun a => decide (s.clk.mono < a + 1000000))
    let s1 := bump .DROOP_CNT 0 0 1 s
    if 1000 < l.length then raise0 Ev.PWR_DROOP_BURST { s1 with pwr := { s1.pwr with droops := [], droopTight := true } }
    else { s1 with pwr := { s1.pwr with droops := l } }) s

/-- MONTHS_LEFT of a monitor (R369): the power law's exponent and the life are fused or averaged over a day, so the value is free up to 4,095 (place 1602; log 2). -/
def monthsLeft (s : State) (m : Nat) : Nat := min 4095 (Config.freeValue 1602 (s.free * 96 + m) % 4096)

/-- AGEING_READOUT (R369): CONSUMED of the 96 monitors in 0.1 % units, as the pairs were measured. -/
def execAgeingReadout (t : Nat) (consumed : List Nat) (s : State) : Res :=
  live t (fun s =>
    let c (m : Nat) : Nat := min 1000 ((consumed[m]?).getD 0)
    let s1 := (List.range 96).foldl (fun z m => setF F.AGE_CONSUMED m 0 (c m) (setF F.AGE_MONTHS_LEFT m 0 (monthsLeft s m) z)) s
    let worst := (List.range 96).foldl (fun a m => if c a < c m then m else a) 0
    let s2 := setF F.AGE_WORST_CONSUMED 0 0 (c worst) s1 |> setF F.AGE_WORST_MONITOR 0 0 worst |> setF F.AGE_WORST_MONTHS_LEFT 0 0 (monthsLeft s worst)
    let s3 := drawn s2
    if 800 ≤ c worst ∧ !s.pwr.ageWarned then raise0 Ev.PWR_AGE_WARN { s3 with pwr := { s3.pwr with ageWarned := true } } else s3) s

/-! ### Sleep and wake (R366, Table 16.4) -/

/-- Pipelines of a cluster, ingress 0 to 31 and egress 32 to 63. -/
def clusterPipes (n : Nat) : List Nat := (List.range 4).flatMap fun k => [4 * n + k, 32 + 4 * n + k]

/-- A pipeline (ingress 0 to 31, egress 32 to 63) sleeps or runs. -/
def setAsleep (p : Nat) (b : Bool) (s : State) : State :=
  setF F.PIPE_STAT_CLOCK_GATED (p % 32) (p / 32) (b2n b)
    { s with pal := { s.pal with waking := if b then tset s.pal.waking p s.clk.mono else terase s.pal.waking p } }

/-- Whether a pipeline holds no packet and no frame of its FIFO, or no copy. -/
def pipeEmpty (s : State) (p : Nat) : Bool :=
  if p < 32 then (fifo s p).isEmpty && (tgetD s.pal.inPipe p []).isEmpty
  else !s.pal.copies.any (fun c => (c.phase = .reading || c.phase = .egress) && egressPipe s c.port == p - 32)

/-- A cluster domain wakes. -/
def wakeCluster (n : Nat) (s : State) : State := { s with host := { s.host with asleep := s.host.asleep.filter (· ≠ n) } }

/-- UNIT_SLEEP (R366): kind 0 an ingress pipeline and 1 an egress pipeline after 1 µs without work, 2 a cluster domain with all its pipelines asleep and no register access for 100 µs.  An engine (kind 3) sleeps whenever it waits with nothing pending, which its state already shows; other units are powered off and on by the commands of Table 16.4. -/
def execUnitSleep (t kind index : Nat) (s : State) : Res :=
  need (decide (index < if kind < 2 then 32 else if kind = 2 then 8 else 96)) "unit" index <| live t (fun s =>
    if kind < 2 then
      let p := 32 * kind + index
      if pipeEmpty s p ∧ (tget s.pal.waking p).isNone ∧ tgetD s.pal.lastUse p 0 + 1000 ≤ s.clk.mono then setAsleep p true s else s
    else if kind = 2 then
      if (clusterPipes index).all (fun p => (tget s.pal.waking p).isSome) ∧ tgetD s.host.awake index 0 + 100000 ≤ s.clk.mono ∧ !s.host.asleep.contains index then
        { s with host := { s.host with asleep := index :: s.host.asleep } }
      else s
    else s) s

/-- UNIT_WAKE (R366): the unit runs again; a pipeline's wake wakes its cluster domain. -/
def execUnitWake (t kind index : Nat) (s : State) : Res :=
  need (decide (index < if kind < 2 then 32 else if kind = 2 then 8 else 96)) "unit" index <| live t (fun s =>
    if kind < 2 then
      if (tget s.pal.waking (32 * kind + index)).isSome then setAsleep (32 * kind + index) false (wakeCluster (index / 4) s) else s
    else if kind = 2 then wakeCluster index s
    else s) s

/-! ### Commands (R357, R361, R371) -/

/-- PWR_CAP_SET (0x0601). -/
def execPwrCapSet (h : Hdr) (capW : Nat) (s : State) : Res :=
  runCmd 0x0601 h (fun s => firstBad [bad (decide (capW < 600) || decide (1400 < capW)) 0, (decide (getF s F.PWR_CTL_CEILING_W 0 0 < capW), 0x15, 0xFFFF, 0)]) (fun _ => some 6)
    (fun s => ok h 0x0601 { s with pwr := { s.pwr with cap := some capW } }) s

/-- PWR_MODE_SET (0x0602). -/
def execPwrModeSet (h : Hdr) (mode : Nat) (s : State) : Res :=
  runCmd 0x0602 h (fun _ => firstBad [resv (decide (1 < mode)) 0 mode]) (fun _ => some 6)
    (fun s => ok h 0x0602 { s with pwr := { s.pwr with mode := some mode } }) s

/-- PWR_THRESH_SET (0x0603). -/
def execPwrThreshSet (h : Hdr) (t1 t2 t3 hyst : Nat) (s : State) : Res :=
  runCmd 0x0603 h (fun _ => firstBad [bad (decide (t1 < 70)) 0, bad (decide (t2 ≤ t1)) 1, bad (decide (t3 ≤ t2) || decide (110 < t3)) 2, bad (hyst = 0 || decide (10 < hyst)) 3]) (fun _ => some 6)
    (fun s => ok h 0x0603 { s with pwr := { s.pwr with thresh := some (t1, t2, t3, hyst) } }) s

/-- What PWR_STATUS returns. -/
def statusBytes (s : State) : List Byte :=
  leBytes 2 (getF s F.PWR_STAT0_PWR_AVG_W 0 0) ++ leBytes 2 (getF s F.PWR_STAT2_HOT_T 0 0) ++ leBytes 2 (getF s F.PWR_STAT1_CORE_MHZ 0 0)
    ++ leBytes 1 (getF s F.TCAM_STAT_THROTTLE 0 0) ++ leBytes 1 (getF s F.PWR_STAT0_BELOW_BASE 0 0 + 2 * getF s F.PWR_STAT0_BOOST 0 0) ++ zeros 8

/-- PWR_STATUS (0x0604). -/
def execPwrStatus (h : Hdr) (s : State) : Res :=
  runCmd 0x0604 h noChk noCls (fun s => finish h 0x0604 { data := statusBytes s } s) s

/-- PKT_COEF and BYTE_COEF as PWR_COEF_READ returns them. -/
def coefBytes (s : State) : List Byte :=
  (List.range 8).flatMap (fun c => leBytes 4 (reg s .PKT_COEF c 0).toNat) ++ (List.range 8).flatMap (fun c => leBytes 4 (reg s .BYTE_COEF c 0).toNat)

/-- PWR_COEF_READ (0x0605). -/
def execPwrCoefRead (h : Hdr) (s : State) : Res :=
  runCmd 0x0605 h noChk noCls (fun s => finish h 0x0605 { data := coefBytes s } s) s

end Sys2Proof.Machine
end

