-- ==== Sys2Proof/Machine/Fault.lean ====
section
/-! DEFINITION. Faults (Chapter 17): wire faults, memory errors, quarantine and return of pipelines, retirement and return of banks, failure and return of macros, tile links, injection, and Varnish arming. -/

namespace Sys2Proof.Machine

/-- What follows an event: nothing once the event has frozen the device or brought it to the safe state (R388, R390). -/
def andThen (f : State → State) (s : State) : State := if s.flt.frozen || isSafe s then s else f s

/-! ### Returns in progress (R379) -/

/-- Opcode of a return by kind: 0 pipeline, 1 bank, 2 macro. -/
def returnOp (kind : Nat) : Nat := if kind = 0 then 0x0701 else if kind = 1 then 0x0702 else 0x0705

/-- The return of a unit in progress. -/
def returning (s : State) (kind index : Nat) : Option Returning := s.flt.returns.find? (fun r => r.kind == kind && r.index == index)

/-- A return ends, with DETAIL. -/
def closeReturn (r : Returning) (detail : Nat) (s : State) : State :=
  finishOpen r.cmd (returnOp r.kind) { detail := detail }
    { s with flt := { s.flt with returns := s.flt.returns.filter (fun x => !(x.kind == r.kind && x.index == r.index)) } }

/-- A return fails: the unit stays out of service, FLT_RETURN_FAIL is raised and the reply carries DETAIL 1. -/
def failReturn (kind index : Nat) (s : State) : State :=
  match returning s kind index with
  | some r => andThen (closeReturn r 1) (raise Ev.FLT_RETURN_FAIL index 0 s)
  | none => s

/-- The cluster or tile of a unit: pipelines by fours, macros by twelves (Table 1.2). -/
def unitGroup (kind index : Nat) : Nat := if kind = 0 then index % 32 / 4 else index / 12

/-- Whether a return, or a quarantine, of a unit in a cluster or tile is being applied (R379). -/
def groupBusy (s : State) (g : Nat) : Bool :=
  s.flt.returns.any (fun r => r.kind ≠ 1 && unitGroup r.kind r.index == g) || (s.flt.quarantining ++ s.flt.copying).any (fun q => q % 32 / 4 == g)

/-- A return begins. -/
def startReturn (h : Hdr) (kind index : Nat) (s : State) : State :=
  background h { s with flt := { s.flt with returns := s.flt.returns ++ [{ kind := kind, index := index, cmd := h, since := s.clk.mono }] } }

/-! ### Macros and tile links (R381, R382) -/

/-- A port macro fails; one that fails during its own return ends it (R379, R381). -/
def macroFault (m : Nat) (s : State) : State := if macFailed s m then failReturn 2 m s else failMacro m s

/-- MACRO_PLL_LOSS (R381): a PLL's loss of lock has lasted 1 ms. -/
def execMacroPllLoss (t mac : Nat) (s : State) : Res :=
  need (decide (mac < 96)) "macro" mac <| live t (fun s => if (macRt s mac).powered || macFailed s mac then macroFault mac s else s) s

/-- TILE_LINK_RETRY (R382): a failed transfer is retried; with `ok` a retry succeeds, otherwise three have failed and the link is retrained with the loss of `lost` frames in flight on it. -/
def execTileLinkRetry (t tile : Nat) (ok : Bool) (lost : Nat) (s : State) : Res :=
  need (decide (tile < 8)) "tile" tile <| live t (fun s =>
    if bit (getF s F.TILE_LINK_STAT_DOWN 0 0) tile then s
    else if ok then raise Ev.FLT_TILE_LINK_CE tile 0 s
    else bump .TILE_LINK_DROP 0 0 lost s) s

/-- The 12 macros of a tile fail. -/
def tileMacros (tile : Nat) (s : State) : State := (List.range 12).foldl (fun z k => andThen (macroFault (12 * tile + k)) z) s

/-- Set or clear DOWN of a tile's link. -/
def setTileDown (tile : Nat) (b : Bool) (s : State) : State :=
  setF F.TILE_LINK_STAT_DOWN 0 0 (putBit (getF s F.TILE_LINK_STAT_DOWN 0 0) tile b) s

/-- A tile-to-die link is down (R382). -/
def tileDown (tile : Nat) (s : State) : State :=
  if bit (getF s F.TILE_LINK_STAT_DOWN 0 0) tile then s
  else andThen (tileMacros tile) (raise Ev.FLT_TILE_LINK_DOWN tile 0 (setTileDown tile true s))

/-- TILE_LINK_DOWN (R382): a link has failed to retrain three times within 1 ms. -/
def execTileLinkDown (t tile : Nat) (s : State) : Res :=
  need (decide (tile < 8)) "tile" tile <| live t (tileDown tile) s

/-! ### Palette banks (R377, R380) -/

/-- Whether a copy has still to read a cell of its packet. -/
def cellUnread (s : State) (c : Copy) (k : Nat) : Bool :=
  decide (c.nextCell ≤ k) || s.pal.readers.any (fun x => x.2.slots.any (fun t => t.copy == c.id && t.cell == k && decide (t.st < 2)))

/-- Whether a copy has still to read a cell that a test picks. -/
def readsBad (pick : Nat × Nat → Bool) (s : State) (c : Copy) : Bool :=
  match pktOf s c.pkt with
  | none => false
  | some p => (List.range p.cells.length).any fun k => (match p.cells[k]? with
    | some x => pick x
    | none => false) && cellUnread s c k

/-- Cells are lost (Table 17.3, R380): a copy in transmission that has still to send one is ended with an inverse FCS; every other copy that has still to read one is dropped, each as PAL_BANK_LOST. -/
def loseCells (pick : Nat × Nat → Bool) (s : State) : State :=
  let s1 := discardQueued (readsBad pick) 0x0E s
  (s1.pal.copies.filter (readsBad pick s1)).foldl (fun z c =>
    match copyOf z c.id with
    | none => z
    | some k => if k.phase = .sending then abortTx k 0x0E z else discard k 3 0x0E z) s1

/-- A bank is taken out of use (R380): writes and matching skip it, and every copy that holds a cell of it is removed. -/
def bankAway (b : Nat) (s : State) : State :=
  loseCells (fun x => x.1 == b) (setMapBit .BANK_RETIRED b true { s with pal := { s.pal with bankDrain := b :: s.pal.bankDrain } })

/-- A bank is retired, with FLT_BANK_RETIRE at the decision; a retired one that fails ends its own return. -/
def retireBank (b : Nat) (s : State) : State :=
  if mapBit s .BANK_RETIRED b then failReturn 1 b s else andThen (bankAway b) (raise Ev.FLT_BANK_RETIRE b 0 s)

/-- BANK_DRAIN_DONE (R173, R380): the last held cell of a retired bank is released; BANKS_IN_SERVICE and FREE_CELLS fall together.  Where packets admitted before the retirement are charged for more cells than the other banks have free, the fall waits until FREE_CELLS can give them up (log 80). -/
def execBankDrainDone (t bank : Nat) (s : State) : Res :=
  need (decide (bank < 128)) "bank" bank <| live t (fun s =>
    if s.pal.bankDrain.contains bank && (bankUsed s bank).isEmpty && decide (10240 ≤ getF s F.PAL_STAT0_FREE_CELLS 0 0) then
      refreshEff (addF F.PAL_STAT0_BANKS_IN_SERVICE 0 0 false 1 (addF F.PAL_STAT0_FREE_CELLS 0 0 false 10240
        { s with pal := { s.pal with bankDrain := s.pal.bankDrain.filter (· ≠ bank), bankOut := bank :: s.pal.bankOut } }))
    else s) s

/-- A bank is back in service (R173, R379). -/
def bankBack (b : Nat) (s : State) : State :=
  raise Ev.FLT_BANK_RETURNED b 0 (refreshEff (addF F.PAL_STAT0_BANKS_IN_SERVICE 0 0 true 1 (addF F.PAL_STAT0_FREE_CELLS 0 0 true 10240
    (setMapBit .BANK_RETIRED b false { s with pal := { s.pal with bankOut := s.pal.bankOut.filter (· ≠ b) } }))))

/-- An uncorrectable error of a bank's cell (Table 17.3, code 0x01): the UE count advances, the copies that still need the cell are lost, and the fourth error within 1 s retires the bank.  At MEM_INIT one error is the failure of its test, which retires it (R399). -/
def cellError (b ix : Nat) (s : State) : State :=
  let errs := (s.flt.bankErrs.filter (fun e => decide (s.clk.mono < e.2 + 1000000000))) ++ [(b, s.clk.mono)]
  let s1 := loseCells (fun x => x == (b, ix)) (bump .BANK_UE_CNT b 0 1 { s with flt := { s.flt with bankErrs := errs } })
  if bootStage s = 2 ∨ 4 ≤ (errs.filter (fun e => e.1 == b)).length then retireBank b s1 else s1

/-! ### Quarantine of pipelines (R18, R378) -/

/-- Pipelines are named 32 · DIR + number. -/
def quarantined (s : State) (dir pipe : Nat) : Bool := flag s F.PIPE_STAT_QUARANTINED pipe dir

/-- A pipeline serves another one's macros. -/
def serving (s : State) (dir pipe : Nat) : Bool :=
  (List.range 32).any fun k => k ≠ pipe && quarantined s dir k && servingPipe s dir k == pipe

/-- The sibling: the first of Pk ⊕ 1, ⊕ 2, ⊕ 3 neither quarantined nor serving another pipeline's macros. -/
def siblingPipe (s : State) (dir pipe : Nat) : Option Nat :=
  [1, 2, 3].map (Nat.xor pipe) |>.find? (fun k => !quarantined s dir k && !serving s dir k)

/-- A quarantine is decided; a quarantined pipeline that fails ends its own return. -/
def decideQuarantine (dir pipe : Nat) (s : State) : State :=
  if quarantined s dir pipe then failReturn 0 (32 * dir + pipe) s
  else if s.flt.quarantining.contains (32 * dir + pipe) then s
  else { s with flt := { s.flt with quarantining := s.flt.quarantining ++ [32 * dir + pipe] } }

/-- A packet inside a quarantined ingress pipeline is dropped as PIPE_LOST at point 1; a trace shows 0xFFFFFFFF for the points it has not reached (R241). -/
def losePkt (p : Pkt) (s : State) : State :=
  let s1 := addCtr 3 p.dec.tac 0 p.len (addCtr 3 p.dec.tac 1 1 s)
  let reached := { p with stamps := p.stamps.map fun st => if p.ts + st ≤ s.clk.tod then st else 0xFFFFFFFF }
  endUnadmitted p (closeRecord ⟨packetGlaze s1 p 1 0x0F, reached, p.pipe / 4, p.dec.key, [], false⟩ s1)

/-- What is inside a pipeline is lost (R378): packets of an ingress pipeline at point 1, and the frames of its FIFO, counted in QUAR_RX_DROP; copies in an egress pipeline at point 4. -/
def losePipe (dir pipe : Nat) (s : State) : State :=
  if dir = 0 then
    let s1 := (tgetD s.pal.inPipe pipe []).foldl (fun z p => losePkt p z) { s with pal := { s.pal with inPipe := terase s.pal.inPipe pipe } }
    let n := ((fifo s1 pipe).filter (fun e => !e.marker)).length
    bump .QUAR_RX_DROP 0 0 n (setLevel pipe 0 (setFifo pipe [] s1))
  else
    (s.pal.copies.filter (fun c => c.phase = .reading && decide (1 ≤ c.passed) && egressPipe s c.port == pipe)).foldl (fun z c => discard c 4 0x0F z) s

/-- QUARANTINED of a pipeline, in PIPE_STAT and in the quarantine map. -/
def setQuarantined (dir pipe : Nat) (b : Bool) (s : State) : State :=
  setF F.PIPE_STAT_QUARANTINED pipe dir (b2n b) (setMapBit (if dir = 0 then .PIPE_QUAR_IN else .PIPE_QUAR_EG) pipe b s)

/-- The macros of a quarantined pipeline go to its sibling, whose TCAM copy begins; with no sibling left they fail. -/
def moveMacros (dir pipe : Nat) (s : State) : State :=
  match siblingPipe s dir pipe with
  | some k =>
    let s1 := setF F.PIPE_STAT_SERVED_BY pipe dir k s
    { s1 with flt := { s1.flt with copying := (s1.flt.copying.filter (· ≠ 32 * dir + pipe)) ++ [32 * dir + pipe] } }
  | none =>
    let s1 := setF F.PIPE_STAT_SERVED_BY pipe dir pipe { s with flt := { s.flt with copying := s.flt.copying.filter (· ≠ 32 * dir + pipe) } }
    [0, 1, 2].foldl (fun z k => andThen (macroFault (3 * pipe + k)) z) s1

/-- A quarantine is applied: contents lost, its macros moved, and those of any pipeline it served; `tell` raises FLT_PIPE_QUARANTINE. -/
def applyQuarantine (tell : Bool) (dir pipe : Nat) (s : State) : State :=
  let served := (List.range 32).filter (fun k => k ≠ pipe && quarantined s dir k && servingPipe s dir k == pipe)
  let s1 := setQuarantined dir pipe true (losePipe dir pipe { s with flt := { s.flt with quarantining := s.flt.quarantining.filter (· ≠ 32 * dir + pipe) } })
  let s2 := if tell then raise Ev.FLT_PIPE_QUARANTINE (32 * dir + pipe) 0 s1 else s1
  (pipe :: served).foldl (fun z k => andThen (moveMacros dir k) z) s2

/-- PIPE_QUARANTINE (R378): a decided quarantine is applied. -/
def execPipeQuarantine (t dir pipe : Nat) (s : State) : Res :=
  need (decide (dir < 2) && decide (pipe < 32)) "pipeline" (32 * dir + pipe) <| live t (fun s =>
    if s.flt.quarantining.contains (32 * dir + pipe) then applyQuarantine true dir pipe s else s) s

/-! ### Copies of scoped rows (R121) -/

/-- The ports and sources of a pipeline number. -/
def pipePorts (s : State) (pipe : Nat) : List Nat :=
  (List.range 24).map (24 * pipe + ·) ++ [768, 769, 770, 771, 772].filter (fun p => homePipe s p == pipe)

/-- Whether a pipeline has free rows for all scoped rows of a port in every table. -/
def rowsFit (s : State) (dir port pipe : Nat) : Bool :=
  match s.tbl.image with
  | none => true
  | some im => im.policy.all fun d => decide (((scopedIn s dir port).filter (fun e => e.table == d.id && !e.pipes.contains pipe)).length ≤ freeRows s d pipe)

/-- A port's scoped rows of a direction stand in a pipeline, and in the others kept. -/
def putRows (dir port pipe : Nat) (keep : Bool) (s : State) : State :=
  let l := (scopedIn s dir port).map (·.handle)
  if l.isEmpty then s
  else setTcam (s.tbl.tcam.map fun e => if l.contains e.handle then { e with pipes := pipe :: (if keep then e.pipes.filter (· ≠ pipe) else []) } else e) s

/-- A port's rows are copied into the pipeline that now serves it; where they do not fit, a front port stays down, another source keeps PEND, and SCOPE_HELD is raised. -/
def moveRows (dir port : Nat) (s : State) : State :=
  let new := servingPipe s dir (homePipe s port)
  if rowsFit s dir port new then putRows dir port new false s
  else
    let s1 := { s with tbl := { s.tbl with scopeMoves := s.tbl.scopeMoves ++ [(port, dir)] } }
    raise0 Ev.TCAM_SCOPE_HELD (if port < 768 then linkDown port s1 else setPend (port - 768) true s1)

/-- PEND of a source that is neither moving nor held clears. -/
def settlePend (port : Nat) (s : State) : State :=
  if 768 ≤ port ∧ (movingFrom s port).isNone ∧ !s.tbl.scopeMoves.any (fun x => x.1 == port) then setPend (port - 768) false s else s

/-- Holds of ports in a direction end. -/
def releaseHolds (ports : List Nat) (dir : Nat) (s : State) : State :=
  ports.foldl (fun z p => settlePend p z)
    { s with tbl := { s.tbl with scopeMoves := s.tbl.scopeMoves.filter (fun x => !(ports.contains x.1 && x.2 == dir)) } }

/-- The copy behind a quarantine completes: the sibling takes the ports' traffic. -/
def copyDone (dir pipe : Nat) (s : State) : State :=
  (pipePorts s pipe).foldl (fun z p => moveRows dir p z) { s with flt := { s.flt with copying := s.flt.copying.filter (· ≠ 32 * dir + pipe) } }

/-- Frames of a returning pipeline's sources that wait in its sibling's FIFO go back ahead of new ones, in their order. -/
def frameBack (sib pipe : Nat) (s : State) : State :=
  let mine (e : FifoEnt) : Bool := homePipe s e.src == pipe
  let l := fifo s sib
  let total (x : List FifoEnt) : Nat := (x.map FifoEnt.len).sum
  let s1 := setLevel sib (total (l.filter (fun e => !mine e))) (setFifo sib (l.filter (fun e => !mine e)) s)
  setLevel pipe (total (l.filter mine)) (setFifo pipe (l.filter mine) s1)

/-- A tested pipeline takes back its macros and sources (R379), once its sibling's pipeline holds no packet of theirs. -/
def pipeBack (r : Returning) (s : State) : State :=
  let dir := r.index / 32
  let pipe := r.index % 32
  let ports := pipePorts s pipe
  let sib := servingPipe s dir pipe
  if dir = 0 && (tgetD s.pal.inPipe sib []).any (fun p => p.pipe ≠ pipe && ports.contains p.src) then s
  else
    let s1 := if dir = 0 && sib ≠ pipe then frameBack sib pipe s else s
    let s2 := setF F.PIPE_STAT_SERVED_BY pipe dir pipe (setQuarantined dir pipe false s1)
    let s3 := ports.foldl (fun z p => moveRows dir p z) (releaseHolds ports dir s2)
    andThen (closeReturn r 0) (raise Ev.FLT_PIPE_RETURNED r.index 0 s3)

/-- A source's move: its rows are copied into the pipeline that is to take it, or SCOPE_HELD is raised and PEND stays (R17, R121). -/
def sourceRows (k : Nat) (s : State) : State :=
  match tget s.port.srcTo k with
  | none => s
  | some new =>
    if [0, 1].all (fun dir => rowsFit s dir (768 + k) (servingPipe s dir new)) then
      [0, 1].foldl (fun z dir => putRows dir (768 + k) (servingPipe z dir new) true z) s
    else raise0 Ev.TCAM_SCOPE_HELD s

/-- A held port or source is tried again after a reclamation. -/
def retryHold (port : Nat) (s : State) : State :=
  [0, 1].foldl (fun z dir =>
    if z.tbl.scopeMoves.contains (port, dir) && rowsFit z dir port (servingPipe z dir (homePipe z port)) then
      moveRows dir port (releaseHolds [port] dir z) else z) s

/-- SCOPE_COPY_DONE (R121): a copy of scoped rows ends.  `kind` 0 is the one behind a quarantine and 1 the one of a return (index 32 · DIR + pipeline), 2 that of a moving source 0 to 4, 3 that of a port held for want of rows. -/
def execScopeCopyDone (t kind index : Nat) (s : State) : Res :=
  need (decide (kind < 4) && decide (index < (if kind < 2 then 64 else if kind = 2 then 5 else 773))) "scoped copy" index <| live t (fun s =>
    if kind = 0 then (if s.flt.copying.contains index then copyDone (index / 32) (index % 32) s else s)
    else if kind = 1 then
      (match returning s 0 index with
      | some r => if r.tested then pipeBack r s else s
      | none => s)
    else if kind = 2 then sourceRows index s
    else retryHold index s) s

/-! ### Memory errors (R377, Table 17.3) -/

/-- Class of a memory's uncorrectable error. -/
def ueClass (code : Nat) : Nat := if 6 ≤ code ∧ code ≤ 8 then 4 else 2

/-- Whether INSTANCE names a unit of a memory code. -/
def memInst (code inst : Nat) : Bool :=
  match code with
  | 1 => decide (inst < 128)
  | 2 => decide (inst < 8)
  | 3 => decide (inst < 64)
  | 4 => decide (inst < 32)
  | 5 => decide (inst < 8)
  | 9 => decide (inst < 64)
  | 10 => decide (inst < 64)
  | _ => true

/-- The oldest frame of an ingress FIFO is discarded and counted in FIFO_DROP of its class (code 0x04). -/
def fifoError (pipe : Nat) (s : State) : State :=
  match (fifo s pipe).find? (fun e => !e.marker) with
  | none => s
  | some e =>
    bump (if e.admClass = 0 then .FIFO_DROP_LOSSY else if e.admClass = 1 then .FIFO_DROP_LOSSLESS else .FIFO_DROP_CONTROL) pipe 0 1
      (setLevel pipe (getF s F.FIFO_STAT_LEVEL pipe 0 - e.len) (setFifo pipe ((fifo s pipe).filter (fun x => x.id ≠ e.id)) s))

/-- A flow cache entry (location below 2^23: set and way) or a waiting sample or trace record is discarded (code 0x05). -/
def cacheError (cluster location : Nat) (s : State) : State :=
  if location < 2 ^ 23 then
    let l := tgetD s.tele.flows cluster []
    match (l.filter (fun e => e.set == location / 8))[location % 8]? with
    | none => s
    | some e => setFlows cluster (l.filter (· ≠ e)) s
  else
    let l := (tgetD s.tele.devRing cluster []).eraseIdx (location - 2 ^ 23)
    setF F.DEV_LEVEL_DEV_LEVEL cluster 0 l.length { s with tele := { s.tele with devRing := tset s.tele.devRing cluster l } }

/-- An error of a policy row in a pipeline (R116, R123, R124): location [23:22] 0 names the shadow, whose row is invalidated with TCAM_SHADOW_UE; 1 the array row, which from now disagrees with its shadow; 2 the action memory, which makes the next hit of the row a false one.  Location [21:0] are the low bits of the handle. -/
def tcamError (inst location : Nat) (s : State) : State :=
  let dir := inst / 32
  let pipe := inst % 32
  let hit (e : TcamEnt) : Bool := decide (e.handle % 2 ^ 22 = location % 2 ^ 22) && e.pipes.contains pipe && (match polDef s e.table with
    | some d => d.egress == (dir == 1)
    | none => false)
  match s.tbl.tcam.find? hit with
  | none => s
  | some e =>
    let edit (f : TcamEnt → TcamEnt) (z : State) : State := setTcam (z.tbl.tcam.map fun x => if x.handle = e.handle then f x else x) z
    match location / 2 ^ 22 with
    | 0 => raise Ev.TCAM_SHADOW_UE e.table e.handle (edit (fun x => { x with pipes := x.pipes.filter (· ≠ pipe), badIn := x.badIn.filter (· ≠ pipe) }) s)
    | 1 => edit (fun x => { x with badIn := pipe :: x.badIn.filter (· ≠ pipe) }) s
    | 2 => edit (fun x => { x with badAct := pipe :: x.badAct.filter (· ≠ pipe) }) s
    | _ => s

/-- The action on an uncorrectable error (Table 17.3). -/
def memAction (code inst location : Nat) (s : State) : State :=
  match code with
  | 1 => cellError inst location s
  | 2 => { s with flt := { s.flt with missNext := inst :: s.flt.missNext.filter (· ≠ inst) } }
  | 3 => decideQuarantine (inst / 32) (inst % 32) s
  | 4 => fifoError inst s
  | 5 => cacheError inst location s
  | 9 => tcamError inst location s
  | 10 => failEngine inst 2 s
  | _ => s

/-- SYNDROME of a memory error. -/
def memSyndrome (code location : Nat) : Nat := code * 2 ^ 24 + location % 2 ^ 24

/-- MEM_CE (R377): a corrected error is recorded; one of an engine's control store raises CS_CORRECTED too (R293). -/
def execMemCe (t code inst location : Nat) (s : State) : Res :=
  need (memInst code inst) "memory" inst <| live t (fun s =>
    if code < 1 ∨ 10 < code then s
    else
      let s1 := raise Ev.FLT_MEM_CE inst (memSyndrome code location) s
      if code = 10 then andThen (raise0 Ev.ENG_CS_CORRECTED) s1 else s1) s

/-- MEM_UE (R377): an uncorrectable error is recorded with the class of its action, and acts by its memory code; codes 0x06 to 0x08 enter the safe state. -/
def execMemUe (t code inst location : Nat) (s : State) : Res :=
  need (memInst code inst) "memory" inst <| live t (fun s =>
    if code < 1 ∨ 10 < code then s
    else andThen (memAction code inst location) (raiseAs 1 Ev.FLT_MEM_UE (ueClass code) inst (memSyndrome code location) false s)) s

/-! ### Wire faults (R372, R425) -/

/-- Whether INSTANCE names a source of Table 17.10. -/
def wireSource (inst : Nat) : Bool :=
  match inst / 256 with
  | 0 => decide (inst % 256 < 32)
  | 1 => decide (inst % 256 < 32)
  | 2 => decide (inst % 256 < 128)
  | 3 => decide (inst % 256 < 64)
  | 4 => decide (inst % 256 < 96)
  | 5 => decide (inst % 256 < 8)
  | 6 => decide (inst % 256 < 6)
  | _ => false

/-- What a source's wire fault does. -/
def wireAction (inst : Nat) (s : State) : State :=
  match inst / 256 with
  | 0 => decideQuarantine 0 (inst % 256) s
  | 1 => decideQuarantine 1 (inst % 256) s
  | 2 => retireBank (inst % 256) s
  | 3 => failEngine (inst % 256) 5 s
  | 4 => macroFault (inst % 256) s
  | 5 => tileDown (inst % 256) s
  | _ => s

/-- WIRE_FAULT (R372, R425): an error pair has read 0b00 or 0b11 in two samples; the source is treated as failed, a device-wide one brings the safe state. -/
def execWireFault (t inst : Nat) (s : State) : Res :=
  need (wireSource inst) "error source" inst <| live t (fun s =>
    andThen (wireAction inst) (raiseAs 1 Ev.FLT_WIRE_FAULT (if inst / 256 = 6 then 4 else 2) inst 0 false s)) s

/-! ### Returns (R379, R381) -/

/-- PIPE_RETURN (0x0701). -/
def execPipeReturn (h : Hdr) (dir pipe : Nat) (s : State) : Res :=
  runCmd 0x0701 h (fun s => firstBad [bad (decide (1 < dir)) 0, bad (decide (31 < pipe) || !quarantined s dir pipe) 1]) noCls (fun s =>
    if groupBusy s (pipe / 4) then failWith h 0x0701 0x24 0 s else startReturn h 0 (32 * dir + pipe) s) s

/-- BANK_RETURN (0x0702): BUSY while another is applied or any bank drains. -/
def execBankReturn (h : Hdr) (bank : Nat) (s : State) : Res :=
  runCmd 0x0702 h (fun s => firstBad [bad (decide (127 < bank) || !mapBit s .BANK_RETIRED bank) 0]) noCls (fun s =>
    if s.flt.returns.any (fun r => r.kind == 1) || !s.pal.bankDrain.isEmpty then failWith h 0x0702 0x24 0 s else startReturn h 1 bank s) s

/-- MACRO_RETURN (0x0705). -/
def execMacroReturn (h : Hdr) (mac : Nat) (s : State) : Res :=
  runCmd 0x0705 h (fun s => firstBad [bad (decide (95 < mac) || !macFailed s mac) 0]) noCls (fun s =>
    if groupBusy s (mac / 12) then failWith h 0x0705 0x24 0 s else startReturn h 2 mac s) s

/-- A macro is back: its tile link is up, its last settings stand, and its lanes enter RAMP (R381). -/
def macroBack (m : Nat) (s : State) : State :=
  let s1 := setMapBit .MACRO_FAILED m false (setTileDown (m / 12) false s)
  raise Ev.FLT_MACRO_RETURNED m 0 ((List.range 8).foldl (fun z l => drvStart m l z) s1)

/-- RETURN_TEST_DONE (R379, R381): the test or recalibration of a unit ends, 500 µs after its start for a pipeline or macro.  A pipeline that passes goes on to the copy of its scoped rows. -/
def execReturnTestDone (t kind index : Nat) (passed : Bool) (s : State) : Res :=
  need (decide (kind < 3) && decide (index < (if kind = 0 then 64 else if kind = 1 then 128 else 96))) "unit" index <| live t (fun s =>
    match returning s kind index with
    | none => s
    | some r =>
      if r.tested || (kind ≠ 1 && decide (s.clk.mono < r.since + 500000)) then s
      else if !passed then failReturn kind index s
      else if kind = 0 then { s with flt := { s.flt with returns := s.flt.returns.map (fun x => if x.kind = 0 ∧ x.index = index then { x with tested := true } else x) } }
      else andThen (closeReturn r 0) (if kind = 1 then bankBack index s else macroBack index s)) s

/-! ### Injection (R386) -/

/-- The action on instance 0 of an injected event of group 0x01: what the event reports; events that report an end or a notice act no further. -/
def injectAction (ev : Nat) (s : State) : State :=
  match ev with
  | 0x0100 => decideQuarantine 0 0 s
  | 0x0102 => cellError 0 0xFFFFFF s
  | 0x0103 => if quarantined s 0 0 then failReturn 0 0 s else applyQuarantine false 0 0 s
  | 0x0105 => if mapBit s .BANK_RETIRED 0 then failReturn 1 0 s else bankAway 0 s
  | 0x0108 => tileMacros 0 (setTileDown 0 true s)
  | 0x0109 => if macFailed s 0 then failReturn 2 0 s else macroOut 0 s
  | _ => s

/-- Raise an injected event with its action. -/
def inject (ev : Nat) (s : State) : State :=
  andThen (injectAction ev) (raiseAs 4 ev ((evClass ev).getD 0) 0 0xFFFFFFFF true s)

/-- FLT_INJECT (0x0704): FLT_INJECTED first, the OK reply, then the event. -/
def execFltInject (h : Hdr) (event : Nat) (s : State) : Res :=
  runCmd 0x0704 h (fun _ => firstBad [bad (evClass event).isNone 0]) noCls
    (fun s => andThen (fun z => inject event (ok h 0x0704 z)) (raise0 Ev.FLT_INJECTED s)) s

/-! ### Varnish (R387, R388) -/

/-- VARNISH_ARM (0x0703) with ARM = 1. -/
def execVarnishArm (h : Hdr) (event : Nat) (s : State) : Res :=
  runCmd 0x0703 h (fun _ => firstBad [bad (evClass event).isNone 2]) noCls (fun s =>
    raise0 Ev.FLT_VARNISH_ARMED (ok h 0x0703 (setF F.VARNISH_CFG_ARMED 0 0 1 (setF F.VARNISH_CFG_ARMED_ID 0 0 event s)))) s

/-- VARNISH_ARM with ARM = 0: EVENT_ID is ignored, the armed event is disarmed. -/
def execVarnishDisarm (h : Hdr) (_event : Nat) (s : State) : Res :=
  runCmd 0x0703 h noChk noCls (fun s => ok h 0x0703 (setF F.VARNISH_CFG_ARMED 0 0 0 s)) s

/-- VARNISH_TRIGGER (R387, R388): VARNISH_N has been low for 40 ns; with PIN_EN the device freezes. -/
def execVarnishTrigger (t : Nat) (s : State) : Res :=
  aon t (fun s => if flag s F.VARNISH_CFG_PIN_EN 0 0 then freeze 0 0 s else s) s

end Sys2Proof.Machine
end

