-- ==== Sys2Proof/Machine/Twin.lean ====
section
/-! DEFINITION. The twin pair (R331 to R339): heartbeats on Stretcher ports and backup ports, the twin states, held ports, loss of the twin link and of the peer, and the peer flush. -/

namespace Sys2Proof.Machine

/-! ### Roles, states, held ports (R333, R334, R336) -/

/-- Twin ports: SL0 and SL1 in MODE 1. -/
def twinPorts (s : State) : List Nat := [0, 1].filter fun n => getF s F.STL_PORT_STAT_MODE n 0 == 1

/-- Some twin port is UP. -/
def twinUp (s : State) : Bool := (twinPorts s).any (stlUp s)

/-- TWIN_STAT.STATE (Table 15.3). -/
def twinState (s : State) : Nat := getF s F.TWIN_STAT_STATE 0 0

/-- The configured role. -/
def twinRole (s : State) : Nat := getF s F.TWIN_CFG_STAT_ROLE 0 0

/-- Whether DUAL_HOMED ports are held in a state (Table 15.3): STANDBY, WARMUP, and DETACHED on the SECONDARY. -/
def holdsIn (st eff : Nat) : Bool := st == 1 || st == 2 || (st == 5 && eff == 2)

/-- A held lane's driver is forced OFF as under TX_SQUELCH (R336, R47). -/
def holdLane (mac lane : Nat) (s : State) : State :=
  let st := drvState s mac lane
  if st = 1 ∨ st = 2 ∨ st = 3 then setRetry mac lane 0 (setDrv mac lane 0 s) else s

/-- Hold a DUAL_HOMED port: its drivers OFF, the port down. -/
def holdPort (p : Nat) (s : State) : State := (txLanes s p).foldl (fun z l => holdLane (p / 8) l z) (linkDown p s)

/-- Release it: its lanes may RAMP. -/
def freePort (p : Nat) (s : State) : State := (txLanes s p).foldl (fun z l => drvStart (p / 8) l z) s

/-- The DUAL_HOMED ports of TWIN_DH that start a port. -/
def dualPorts (s : State) : List Nat := (List.range 768).filter fun p => mapBit s .TWIN_DH p && startsPort s p

/-- Bring HELD, and the ports it holds, in line with state and effective role. -/
def applyHold (s : State) : State :=
  let want := holdsIn (twinState s) (getF s F.TWIN_STAT_EFF_ROLE 0 0)
  if flag s F.TWIN_STAT_HELD 0 0 = want then s
  else
    let s1 := setF F.TWIN_STAT_HELD 0 0 (b2n want) s
    (dualPorts s1).foldl (fun z p => if want then holdPort p z else freePort p z) s1

/-- Enter a twin state: its timers start with the configured values; PAIRED and DETACHED are reported. -/
def setTwin (st : Nat) (s : State) : State :=
  let s1 := setF F.TWIN_STAT_STATE 0 0 st { s with twin := { s.twin with since := s.clk.mono, tHold := getF s F.TWIN_CFG_STAT_HOLD_MS 0 0, tWarm := getF s F.TWIN_CFG_STAT_WARMUP_MS 0 0, miss := 0 } }
  let s2 := applyHold s1
  if st = 3 then raise0 Ev.TWIN_PAIRED s2 else if st = 5 then raise0 Ev.TWIN_DETACHED s2 else s2

/-- The effective role (R333): the configured one, or by serial number where the peer shows the same; ROLE_CONFLICT is raised when that first shows. -/
def resolveRole (s : State) : State :=
  let cfg := twinRole s
  let same := cfg ≠ 0 && getF s F.TWIN_STAT_PEER_ROLE 0 0 == cfg
  let eff := if same then (if hifSerial < wide s .PEER_SERIAL 0 2 then 1 else 2) else cfg
  let s1 := setF F.TWIN_STAT_EFF_ROLE 0 0 eff { s with twin := { s.twin with conflict := same } }
  applyHold (if same && !s.twin.conflict then raise0 Ev.TWIN_ROLE_CONFLICT s1 else s1)

/-- TWIN_DH written: ports newly named are held while HELD stands, others released; the AON copy follows (R334, R336). -/
def writeDh (w v : Nat) (s : State) : State :=
  let old := (reg s .TWIN_DH w 0).toNat
  let s1 := setReg .TWIN_DH w 0 (BitVec.ofNat 32 v) s
  let s2 := { s1 with twin := { s1.twin with aon := s1.twin.aon.map (fun c => { c with dh := listSet c.dh w (BitVec.ofNat 32 v) }) } }
  if flag s2 F.TWIN_STAT_HELD 0 0 then
    (List.range 32).foldl (fun z k =>
      if !startsPort z (32 * w + k) || bit old k == bit v k then z
      else if bit v k then holdPort (32 * w + k) z else freePort (32 * w + k) z) s2
  else s2

/-! ### Forwarded commands that end here (R345) -/

/-- Send the answer of a forwarded command on its master's path. -/
def answerForward (f : Forwarded) (r : Reply) (s : State) : State :=
  deliver { serial := f.key, kind := f.kind, sub := f.sub, tag := f.tag, opcode := f.opcode, idem := false, ackReq := f.ackReq, prog := false,
            priority := 0, objs := [], rbuf := f.rbuf, frame := f.frame, nonce := f.nonce } { r with master := masterId f.kind f.sub } s

/-- A forwarded command is no longer waited for. -/
def dropForward (f : Forwarded) (s : State) : State :=
  { s with chain := { s.chain with forwarded := s.chain.forwarded.filter (fun x => x.key ≠ f.key) } }

/-- A forwarded command whose path is lost completes here with UNREACHABLE and a SERIAL of this device. -/
def loseForward (f : Forwarded) (s : State) : State :=
  let serial := wide s .CMD_SERIAL 0 2 + 1
  let r : Reply := { tag := f.tag, status := 0x34, opcode := f.opcode, serial := serial, permille := (match opInfo f.opcode with
      | some i => if i.prog then 0 else 0xFFFF
      | none => 0xFFFF), rdata := [], errOffset := 0xFFFF, master := 0, cursor := 0, execTs := s.clk.tod, detail := f.target }
  answerForward f r (setWide .CMD_SERIAL 0 serial 2 (dropForward f s))

/-! ### Loss of link and peer (R334, R335, R337) -/

/-- The peer flush (R337): every unversioned exact-match table with a destination field is flushed, each once its background operation has ended. -/
def peerFlush (s : State) : State :=
  let ids := match s.tbl.image with
    | some im => (im.exact.filter (fun d => !d.versioned && d.destLo.isSome)).map (·.id)
    | none => []
  let bonded := flag s F.STL_PORT_STAT_BOND 0 0 && flag s F.STL_PORT_STAT_BOND 1 0
  let s1 := { s with twin := { s.twin with flushTables := (s.twin.flushTables ++ ids).eraseDups, bonded := bonded } }
  ids.foldl (fun z id => startPeerFlush id z) s1

/-- PEER_LOST (R335): the event, its count and TOD, the flush where no loss of the link went before, SOLO, and the end of the twin master's locks and of the commands forwarded to it. -/
def peerLost (s : State) : State :=
  let s1 := raise0 Ev.TWIN_PEER_LOST (bump .PEER_LOST_CNT 0 0 1 { s with twin := { s.twin with lostTod := s.clk.tod } })
  let s2 := if flag s F.TWIN_STAT_LINK_UP 0 0 then peerFlush s1 else s1
  let s3 := endLocksOf (fun m => m / 4096 == 3) (setTwin 6 s2)
  (s3.chain.forwarded.filter (fun f => decide (f.port < 2))).foldl (fun z f => loseForward f z) s3

/-- The states in which PEER_LOST can be declared. -/
def watchesPeer (s : State) : Bool := [2, 3, 4, 5].contains (twinState s)

/-- Backup heartbeat is alive. -/
def bkpAlive (s : State) : Bool := flag s F.TWIN_STAT_BKP_ALIVE 0 0

/-- TWIN_LINK_LOST (R334, R335, R337): no twin port has been UP for 100 µs.  With the backup heartbeat dead or absent the peer is lost; otherwise PAIRED goes to LINK_HOLD and WARMUP to STANDBY. -/
def execTwinLinkLost (t : Nat) (s : State) : Res :=
  live t (fun s =>
    let due := match s.twin.downSince with
      | some d => decide (d + 100000 ≤ s.clk.mono)
      | none => false
    if flag s F.TWIN_STAT_LINK_UP 0 0 && !twinUp s && due then
      let s1 := peerFlush (raise0 Ev.TWIN_LINK_LOST (setF F.TWIN_STAT_LINK_UP 0 0 0 { s with twin := { s.twin with lostAt := some s.clk.mono } }))
      if watchesPeer s1 && !bkpAlive s1 then peerLost s1
      else if twinState s1 = 2 then setTwin 1 s1
      else if twinState s1 = 3 then setTwin 4 s1
      else s1
    else s) s

/-- HB_PERIOD (R335): a 10 µs period ends.  One in which some twin port was UP and no HB came counts; eight in a row lose the peer. -/
def execHbPeriod (t : Nat) (s : State) : Res :=
  live t (fun s =>
    if s.clk.mono < s.twin.periodAt + 10000 then s
    else
      let quiet := twinUp s && !s.twin.heard
      let n := if quiet then s.twin.miss + 1 else 0
      let s1 := { s with twin := { s.twin with heard := false, periodAt := s.clk.mono, miss := n } }
      let s2 := if quiet then bump .HB_MISS_CNT 0 0 1 s1 else s1
      if 8 ≤ n && watchesPeer s2 then peerLost s2 else s2) s

/-- BKP_ALIVE_EXPIRE (R332, R335): no accepted backup frame for 800 µs. -/
def execBkpAliveExpire (t : Nat) (s : State) : Res :=
  live t (fun s =>
    match s.twin.bkpAt with
    | none => s
    | some a =>
      if bkpAlive s && decide (a + 800000 ≤ s.clk.mono) then
        let s1 := setF F.TWIN_STAT_BKP_ALIVE 0 0 0 s
        if watchesPeer s1 && !flag s1 F.TWIN_STAT_LINK_UP 0 0 then peerLost s1 else s1
      else s) s

/-- A received LAST_GASP (R328, R335): cause and TOD are kept, the port goes down at once, and on a twin port the peer is lost. -/
def lastGaspIn (n cause tod : Nat) (s : State) : State :=
  if stlIsDown s n then s
  else
    let s1 := stlDown n (raise Ev.STL_LAST_GASP_RX n 0 (setWide .LG_TOD n tod 2 (setF F.LG_INFO_CAUSE n 0 cause s)))
    if getF s F.STL_PORT_STAT_MODE n 0 = 1 ∧ watchesPeer s1 then peerLost s1 else s1

/-- LAST_GASP_RX (R328). -/
def execLastGaspRx (t port cause tod : Nat) (s : State) : Res :=
  need (decide (port < 4)) "Stretcher port" port <| live t (lastGaspIn port cause tod) s

/-! ### Timers (R334) -/

/-- STANDBY_TIMEOUT: an effective PRIMARY in STANDBY for HOLD_MS + WARMUP_MS. -/
def execStandbyTimeout (t : Nat) (s : State) : Res :=
  live t (fun s =>
    if twinState s = 1 ∧ getF s F.TWIN_STAT_EFF_ROLE 0 0 = 1 ∧ s.twin.since + (s.twin.tHold + s.twin.tWarm) * 1000000 ≤ s.clk.mono then
      setTwin (if bkpAlive s then 5 else 6) s
    else s) s

/-- WARMUP_DONE: WARMUP_MS with the twin link up. -/
def execWarmupDone (t : Nat) (s : State) : Res :=
  live t (fun s =>
    if twinState s = 2 ∧ flag s F.TWIN_STAT_LINK_UP 0 0 ∧ s.twin.since + s.twin.tWarm * 1000000 ≤ s.clk.mono then setTwin 3 s else s) s

/-- LINK_HOLD_EXPIRE: HOLD_MS since the twin link was lost. -/
def execLinkHoldExpire (t : Nat) (s : State) : Res :=
  live t (fun s =>
    if twinState s = 4 ∧ s.twin.lostAt.getD s.twin.since + s.twin.tHold * 1000000 ≤ s.clk.mono then setTwin 5 s else s) s

/-! ### Heartbeats (R331, R332) -/

/-- ROLE of Tables 15.1 and 15.2: the configured role and EFF_PRIMARY. -/
def roleByte (s : State) : Nat := twinRole s + 4 * b2n (getF s F.TWIN_STAT_EFF_ROLE 0 0 == 1)

/-- An HB block (Table 15.1). -/
def hbBlock (s : State) (n : Nat) : List Byte :=
  let chain := getF s F.STL_PORT_STAT_MODE n 0 == 2
  [0x55] ++ leBytes 1 (roleByte s) ++ leBytes 1 (if chain then 0 else twinState s) ++ [0] ++ leBytes 4 (stlPort s n).hbSeq ++ leBytes 8 hifSerial
    ++ leBytes 2 (devId s) ++ leBytes 4 (if chain then (reg s .CHAIN_MGEN 0 0).toNat else 0)
    ++ leBytes 4 (if chain then (reg s .CHAIN_BUDGET 0 0).toNat else 0) ++ zeros 6

/-- HB_TX (R331): an HB block every 10 µs on a port that is UP in MODE 1 or 2. -/
def execHbTx (t port : Nat) (s : State) : Res :=
  need (decide (port < 4)) "Stretcher port" port <| live t (fun s =>
    let due := match (stlPort s port).hbTxAt with
      | some a => decide (a + 10000 ≤ s.clk.mono)
      | none => true
    if due && stlUp s port then
      emit (.stretcher port 0x55 (hbBlock s port)) (setStlPort port { stlPort s port with hbSeq := ((stlPort s port).hbSeq + 1) % 2 ^ 32, hbTxAt := some s.clk.mono } s)
    else s) s

/-- What an HB on a twin port does to the twin state (Table 15.3). -/
def hbTransition (s : State) : State :=
  match twinState s with
  | 1 => setTwin 2 s
  | 4 => setTwin 3 s
  | 5 => setTwin (if getF s F.TWIN_STAT_EFF_ROLE 0 0 = 1 then 3 else 2) s
  | 6 => setTwin 3 s
  | _ => s

/-- The peer's serial is latched while none is, and its configured role shown (R332, R333). -/
def peerSeen (serial role : Nat) (s : State) : State :=
  let s1 := if twinRole s ≠ 0 ∧ wide s .PEER_SERIAL 0 2 = 0 then setWide .PEER_SERIAL 0 serial 2 s else s
  resolveRole (setF F.TWIN_STAT_PEER_ROLE 0 0 (if twinRole s = 0 then 0 else role) s1)

/-- A received HB block (R331, R333, R334): the sender's DEV_ID; on a twin port, the peer's presence and role. -/
def hbIn (n : Nat) (b : List Byte) (s : State) : State :=
  if !stlUp s n then s
  else
    let s1 := setStlPort n { stlPort s n with hbDev := leAt b 16 2 % 4096, hbAt := some s.clk.mono } s
    if getF s F.STL_PORT_STAT_MODE n 0 = 1 then
      hbTransition (peerSeen (leAt b 8 8) (leAt b 1 1 % 4) { s1 with twin := { s1.twin with heard := true, miss := 0, peerDev := leAt b 16 2 % 4096 } })
    else s1

/-- HB_RX (R331). -/
def execHbRx (t port : Nat) (bytes : List Byte) (s : State) : Res :=
  need (decide (port < 4)) "Stretcher port" port <| live t (hbIn port bytes) s

/-- The logical port of backup port 0 or 1, none where it is not set. -/
def bkpPort (s : State) (k : Nat) : Option Nat :=
  if k = 0 then (if flag s F.TWIN_BKP_BKP0_EN 0 0 then some (getF s F.TWIN_BKP_BKP0_PORT 0 0) else none)
  else if flag s F.TWIN_BKP_BKP1_EN 0 0 then some (getF s F.TWIN_BKP_BKP1_PORT 0 0) else none

/-- A backup heartbeat's payload (Table 15.2). -/
def bkpPayload (s : State) (seq : Nat) : List Byte :=
  [1] ++ beBytes 1 (roleByte s) ++ beBytes 1 (twinState s) ++ beBytes 1 (b2n (flag s F.TWIN_STAT_LINK_UP 0 0)) ++ beBytes 4 seq
    ++ beBytes 8 hifSerial ++ beBytes 2 (devId s) ++ zeros 28

/-- BKP_HB_TX (R332): every 100 µs a frame on a backup port that is up, of class 7; the spec names no source address (place 1501). -/
def execBkpHbTx (t which : Nat) (s : State) : Res :=
  need (decide (which < 2)) "backup port" which <| live t (fun s =>
    match bkpPort s which with
    | none => s
    | some p =>
      let due := match tget s.twin.bkpTxAt which with
        | some a => decide (a + 100000 ≤ s.clk.mono)
        | none => true
      if due && portIsUp s p && macIdle s p && !classPaused s p 7 then
        let seq := tgetD s.twin.bkpSeq which 0
        let f := beBytes 6 0x0180C200000E ++ beBytes 6 (freeAt 1501 s) ++ beBytes 2 0x88B5 ++ bkpPayload s seq
        emit (.engineFrame p f) (drawn (addCtr 1 p 10 1 (addCtr 1 p 11 (f.length + 4)
          { s with twin := { s.twin with bkpTxAt := tset s.twin.bkpTxAt which s.clk.mono, bkpSeq := tset s.twin.bkpSeq which ((seq + 1) % 2 ^ 32) } })))
      else s) s

/-- BKP_HB_RX (R332, R333): a backup heartbeat's payload from a front port.  It is accepted on a configured backup port with the peer's serial; one of another version is discarded, any other rejected and counted. -/
def execBkpHbRx (t port : Nat) (bytes : List Byte) (s : State) : Res :=
  need (decide (port < 768)) "port" port <| live t (fun s =>
    let s := takeHanded port bytes s
    let peer := wide s .PEER_SERIAL 0 2
    let serial := beAt bytes 8 8
    if beAt bytes 0 1 ≠ 1 then s
    else if (bkpPort s 0 = some port ∨ bkpPort s 1 = some port) ∧ (serial = peer ∨ (peer = 0 ∧ twinRole s ≠ 0)) then
      peerSeen serial (beAt bytes 1 1 % 4) (setF F.TWIN_STAT_BKP_ALIVE 0 0 1 { s with twin := { s.twin with bkpAt := some s.clk.mono } })
    else bump .BKP_REJECT_CNT 0 0 1 s) s

/-! ### Configuration (R334, Tables 12.9 and 15.10) -/

/-- The AON copy of the configuration (R334). -/
def keepTwin (s : State) : State :=
  { s with twin := { s.twin with aon := some { cfg := reg s .TWIN_CFG_STAT 0 0, bkp := reg s .TWIN_BKP 0 0, dh := (List.range 24).map (fun w => reg s .TWIN_DH w 0) } } }

/-- The role is set: 0 returns to NONE and forgets the peer; a role set from none enters STANDBY. -/
def setRole (old new : Nat) (s : State) : State :=
  if new = 0 then resolveRole (setWide .PEER_SERIAL 0 0 2 (setF F.TWIN_STAT_PEER_ROLE 0 0 0 (if old = 0 then s else setTwin 0 s)))
  else resolveRole (if old = 0 then setTwin 1 s else s)

/-- TWIN_CFG (0x0802). -/
def execTwinCfg (h : Hdr) (role holdMs warmupMs bkp0 bkp1 : Nat) (s : State) : Res :=
  runCmd 0x0802 h (fun s =>
      let badPort (p : Nat) : Bool := p ≠ 0xFFFF && !startsPort s p
      firstBad [resv (decide (2 < role)) 0 role, bad (decide (holdMs < 10) || decide (10000 < holdMs)) 2,
        bad (decide (warmupMs < 100) || decide (60000 < warmupMs)) 4, bad (badPort bkp0) 8, bad (badPort bkp1) 10])
    (fun _ => some 7) (fun s =>
      let old := twinRole s
      if old ≠ role ∧ twinState s = 4 then failWith h 0x0802 0x24 0 s
      else
        let s1 := s |> setF F.TWIN_CFG_STAT_ROLE 0 0 role |> setF F.TWIN_CFG_STAT_HOLD_MS 0 0 holdMs |> setF F.TWIN_CFG_STAT_WARMUP_MS 0 0 warmupMs
          |> setF F.TWIN_BKP_BKP0_EN 0 0 (b2n (bkp0 ≠ 0xFFFF)) |> setF F.TWIN_BKP_BKP0_PORT 0 0 (if bkp0 = 0xFFFF then 0 else bkp0)
          |> setF F.TWIN_BKP_BKP1_EN 0 0 (b2n (bkp1 ≠ 0xFFFF)) |> setF F.TWIN_BKP_BKP1_PORT 0 0 (if bkp1 = 0xFFFF then 0 else bkp1)
        ok h 0x0802 (keepTwin (setRole old role s1))) s

/-- At START after a cold or warm reset the configuration comes back from the AON copy (R334). -/
def restoreTwin (s : State) : State :=
  match s.twin.aon with
  | none => s
  | some c =>
    let s1 := setReg .TWIN_CFG_STAT 0 0 c.cfg (setReg .TWIN_BKP 0 0 c.bkp s)
    let s2 := (List.range 24).foldl (fun z w => setReg .TWIN_DH w 0 ((c.dh[w]?).getD 0) z) s1
    setRole 0 (twinRole s2) s2

/-- TWIN_STATUS's reply data (Table 15.10). -/
def twinStatusBytes (s : State) : List Byte :=
  let roles := twinRole s + 4 * getF s F.TWIN_STAT_EFF_ROLE 0 0 + 16 * getF s F.TWIN_STAT_PEER_ROLE 0 0
  let flags := b2n (flag s F.TWIN_STAT_LINK_UP 0 0) + 2 * b2n (bkpAlive s) + 4 * b2n s.twin.conflict + 8 * b2n (flag s F.TWIN_STAT_HELD 0 0)
  leBytes 1 (twinState s) ++ leBytes 1 roles ++ leBytes 1 flags ++ zeros 1
      ++ leBytes 4 (min 0xFFFFFFFF ((s.clk.mono - s.twin.since) / 1000000)) ++ leBytes 8 s.twin.lostTod

/-- TWIN_STATUS (0x0805). -/
def execTwinStatus (h : Hdr) (s : State) : Res :=
  runCmd 0x0805 h noChk noCls (fun s => finish h 0x0805 { data := twinStatusBytes s } s) s

end Sys2Proof.Machine
end

