-- ==== Sys2Proof/Machine/Chain.lean ====
section
/-! DEFINITION. The chain (R340 to R349): chain-wide search, membership, transit, forwarded commands, time of day along the chain, and the blocks and frames a Stretcher port receives (R314 to R316). -/

namespace Sys2Proof.Machine

/-! ### Members -/

/-- The DEV_IDs of the chain, this device's among them, ascending. -/
def chainDevs (s : State) : List Nat := sortBy id (devId s :: s.chain.members.map (·.dev))

/-- The least of them at or above a number. -/
def nextDev (s : State) (start : Nat) : Option Nat := (chainDevs s).find? (fun d => decide (start ≤ d))

/-- MGEN. -/
def mgen (s : State) : Nat := (reg s .CHAIN_MGEN 0 0).toNat

/-! ### Chain-wide search and walk (R347, R348) -/

/-- A chain-wide cursor (Table 15.7). -/
def wideCursor (mg : Nat) (m : Nat × Nat × Nat × Nat) : Nat :=
  m.1 * 2 ^ 52 + mg % 256 * 2 ^ 44 + m.2.1 % 256 * 2 ^ 36 + m.2.2.1 % 4 * 2 ^ 34 + m.2.2.2 % 2 ^ 34

/-- The opcode of a chain-wide command. -/
def wideOp (w : Wide) : Nat := if w.search.isSome then 0x0103 else 0x0104

/-- A chain-wide command leaves the device's list. -/
def dropWide (w : Wide) (s : State) : State :=
  { s with chain := { s.chain with
      wides := s.chain.wides.filter (fun x => x.cmd.serial ≠ w.cmd.serial)
      forwarded := s.chain.forwarded.filter (fun f => !(f.kind == 5 && f.nonce == w.cmd.serial)) } }

/-- It completes with a status, DETAIL and cursor, with the records so far; one that waited for a member while its engine failed is not answered again (R29). -/
def endWide (w : Wide) (status detail cursor : Nat) (s : State) : State :=
  let a : Answer := { status := status, detail := detail, cursor := cursor, data := w.recs.flatMap id }
  if s.chain.wides.any (fun x => x.cmd.serial == w.cmd.serial) then finishOpen w.cmd (wideOp w) a (dropWide w s) else finish w.cmd (wideOp w) a (dropWide w s)

/-- The cursor after a change of membership: behind the last record, or at the start of the next higher member where that one has left (R348). -/
def cursorNow (s : State) (m : Nat × Nat × Nat × Nat) : Nat :=
  if (chainDevs s).contains m.1 then wideCursor (mgen s) m
  else match nextDev s m.1 with
    | some d => wideCursor (mgen s) (d, 0, 0, 0)
    | none => wideCursor (mgen s) (m.1, 0, 3, 0)

/-- A change of membership ends a chain-wide command with TOPOLOGY_CHANGED. -/
def breakWide (w : Wide) (s : State) : State :=
  endWide w 0x30 (mgen s) (if w.search.isSome then w.dev * 2 ^ 52 else cursorNow s w.mark) s

/-- A member's record with its DEV_ID (R347). -/
def wideRecord (dev : Nat) (r : List Byte) : List Byte := leBytes 2 dev ++ zeros 6 ++ r

/-- A command header for a query to a member. -/
def queryHeader (op tag target words : Nat) : List Byte :=
  leBytes 2 op ++ [1, 1] ++ leBytes 4 tag ++ leBytes 2 target ++ leBytes 2 words ++ zeros 20

/-- The packet that asks a member: TBL_SEARCH, or TBL_NEXT from a cursor of its table with a MAX. -/
def queryPacket (w : Wide) (tag max cursor : Nat) : List Byte :=
  match w.search, w.next with
  | some p, _ =>
    queryHeader 0x0103 tag w.dev 10 ++ leBytes 1 p.table ++ zeros 1 ++ leBytes 1 p.keyLen ++ zeros 1 ++ leBytes 1 p.prefixLen ++ zeros 3
      ++ (leBytes p.keyLen p.key ++ zeros 32).take 32
  | none, some p =>
    queryHeader 0x0104 tag w.dev 12 ++ leBytes 1 p.table ++ leBytes 1 max ++ leBytes 1 (b2n p.staleOnly + 4 * b2n p.destFilter) ++ leBytes 1 p.originMask
      ++ leBytes 2 p.dest ++ leBytes 2 p.destMask ++ leBytes 8 cursor ++ leBytes 16 p.key ++ leBytes 16 p.keyMask
  | none, none => []

/-- Ask a member; the answer comes back with the query's tag. -/
def askMember (w : Wide) (max cursor : Nat) (s : State) : State :=
  let tag := s.chain.sent % 2 ^ 32
  let port := chainDir s w.dev
  let f : Forwarded := { kind := 5, sub := 0, tag := tag, target := w.dev, opcode := wideOp w, since := s.clk.mono, ackReq := true,
                         key := 2 ^ 64 + s.chain.sent, port := port, rbuf := 0, frame := [], nonce := w.cmd.serial }
  chainOut port 2 (chainHeader 2 (chainTtl s) false (devId s) w.dev 0 ++ queryPacket w tag max cursor)
    { s with chain := { s.chain with forwarded := s.chain.forwarded ++ [f], sent := s.chain.sent + 1,
                                     wides := s.chain.wides.filter (fun x => x.cmd.serial ≠ w.cmd.serial) ++ [w] } }

/-- Records a walk may still return. -/
def wideRoom (s : State) (w : Wide) (p : TblNext) : Nat := fitMax s w.cmd 0 48 p.max - w.recs.length

/-- The table cursor from which a walk asks a member: 0 at a member's start. -/
def memberCursor (w : Wide) (p : TblNext) (gen : Nat) : Nat :=
  if w.region = 0 ∧ w.pos = 0 then 0 else gen * 2 ^ 48 + p.table % 64 * 2 ^ 42 + w.region * 2 ^ 40 + w.pos

/-- Go on to the member after the one just examined. -/
def pastMember (w : Wide) : Wide := { w with dev := w.dev + 1, gen := 0, region := 0, pos := 0, probing := false }

/-- One member of a search has answered with its records. -/
def searchGot (w : Wide) (l : List (List Byte)) : Wide :=
  pastMember { w with recs := w.recs ++ l.map (wideRecord w.dev), holders := w.holders + (if l.isEmpty then 0 else 1) }

/-- One call of a walk in one member has answered: records and the place behind them. -/
def walkGot (w : Wide) (l : List (List Byte)) (gen region pos : Nat) : Wide :=
  { w with recs := w.recs ++ l.map (wideRecord w.dev), gen := gen % 256, region := region, pos := pos, mark := (w.dev, gen % 256, region, pos), probing := false }

/-- A chain-wide command goes on, member by member in ascending DEV_ID: this device answers from its own table, another is asked and its answer awaited. -/
def runWide : Nat → Wide → State → State
  | 0, _, s => s
  | n + 1, w, s =>
    match nextDev s w.dev with
    | none =>
      if w.search.isSome then endWide w (if w.holders = 0 then 0x21 else 0) 0 0 s else endWide w 0 0 (wideCursor (mgen s) w.mark) s
    | some d =>
      let w1 := if d = w.dev then w else { pastMember w with dev := d }
      match w1.search, w1.next with
      | some p, _ =>
        if 64 ≤ w1.holders then endWide w1 0 0 (d * 2 ^ 52) s
        else if d = devId s then runWide n (searchGot w1 (searchRecords s p)) s
        else askMember w1 0 0 s
      | none, some p =>
        let room := wideRoom s w1 p
        if w1.region = 3 then
          (if (nextDev s (d + 1)).isNone then endWide w1 0 0 (wideCursor (mgen s) w1.mark) s else runWide n (pastMember w1) s)
        else if room = 0 then endWide w1 0 0 (wideCursor (mgen s) w1.mark) s
        else if d = devId s then
          let gen := getF s F.TBL_STAT0_GEN p.table 0
          if (w1.region ≠ 0 ∨ w1.pos ≠ 0) ∧ w1.gen ≠ gen % 256 then endWide { w1 with recs := [] } 0x23 gen 0 s
          else
            let r := walkStep s p ((walkPos s p.table w1.region w1.pos).getD 0) room
            let c := walkCursor s p.table r.2
            let w2 := walkGot w1 r.1 gen c.1 c.2
            if c.1 = 3 then runWide n w2 s else endWide w2 0 0 (wideCursor (mgen s) w2.mark) s
        else if w1.region ≠ 0 ∨ w1.pos ≠ 0 then askMember { w1 with probing := true } 1 0 s
        else askMember w1 room 0 s
      | none, none => s

/-- Steps enough to pass every member twice. -/
def wideFuel (s : State) : Nat := 2 * (s.chain.members.length + 2)

/-- The records of a reply, 40 bytes each. -/
def splitRecords : Nat → List Byte → List (List Byte)
  | 0, _ => []
  | n + 1, b => if b.length < 40 then [] else b.take 40 :: splitRecords n (b.drop 40)

/-- A member has answered a query of a chain-wide command. -/
def wideAnswer (w : Wide) (r : Reply) (s : State) : State :=
  let recs := splitRecords (r.rdata.length / 40) r.rdata
  let gen := bits r.cursor 48 16
  match w.search, w.next with
  | some _, _ => runWide (wideFuel s) (searchGot w (if r.status = 0 then recs else [])) s
  | none, some p =>
    if r.status = 0x23 then endWide { w with recs := [] } 0x23 r.detail 0 s
    else if r.status ≠ 0 then runWide (wideFuel s) (pastMember w) s
    else if w.probing then
      (if gen % 256 = w.gen then askMember { w with probing := false } (wideRoom s w p) (memberCursor w p gen) s
       else endWide { w with recs := [] } 0x23 gen 0 s)
    else
      let w1 := walkGot w recs gen (bits r.cursor 40 2) (bits r.cursor 0 34)
      if w1.region = 3 then runWide (wideFuel s) w1 s else endWide w1 0 0 (wideCursor (mgen s) w1.mark) s
  | none, none => s

/-- TBL_SEARCH with CHAIN_WIDE (0x0103, R347). -/
def execTblSearchChainWide (h : Hdr) (p : TblKey) (s : State) : Res :=
  runCmd 0x0103 h (fun s => keyChecks s p false) noCls (fun s =>
    runWide (wideFuel s) { cmd := h, search := some p, next := none, mgen := mgen s, dev := 0, gen := 0, region := 0, pos := 0, mark := (0, 0, 0, 0) } s) s

/-- TBL_NEXT with CHAIN_WIDE (0x0104, R347, R348). -/
def execTblNextChainWide (h : Hdr) (p : TblNext) (s : State) : Res :=
  let region := bits p.cursor 34 2
  let pos := bits p.cursor 0 34
  let dev := bits p.cursor 52 12
  let gen := bits p.cursor 36 8
  runCmd 0x0104 h (fun s =>
      match nextChecks s p with
      | some c => some c
      | none => firstBad [bad (p.cursor ≠ 0 && dev == devId s && (walkPos s p.table region pos).isNone) 8])
    noCls (fun s =>
      if p.cursor ≠ 0 ∧ bits p.cursor 44 8 ≠ mgen s % 256 then
        finish h 0x0104 { status := 0x30, detail := mgen s, cursor := cursorNow s (dev, gen, region, pos) } s
      else
        runWide (wideFuel s) { cmd := h, search := none, next := some p, mgen := mgen s, dev := dev, gen := gen, region := region, pos := pos, mark := (dev, gen, region, pos) } s) s

/-! ### Membership (R340, R341) -/

/-- The time root: the lowest-numbered member with EXT_SRC, or the lowest-numbered member (R346). -/
def rootDev (s : State) : Nat :=
  let all := (devId s, flag s F.CHAIN_TIME_CFG_EXT_SRC 0 0) :: s.chain.members.map (fun m => (m.dev, m.extSrc))
  let ext := all.filter (·.2)
  match leastBy Prod.fst (if ext.isEmpty then all else ext) with
  | some x => x.1
  | none => 0

/-- Hops to a member: none to this device itself. -/
def hopsTo (s : State) (dev : Nat) : Nat :=
  match s.chain.members.find? (fun m => m.dev == dev) with
  | some m => min m.hopsW m.hopsE
  | none => 0

/-- Bring MEMBERS, TIME_ROOT and TIME_ROOT_STAT in line. -/
def refreshChain (s : State) : State :=
  let inIt := getF s F.CHAIN_STAT_CSTATE 0 0 == 2
  let root := if inIt then rootDev s else 0
  setF F.CHAIN_STAT_MEMBERS 0 0 (if inIt then s.chain.members.length + 1 else 0) s
    |> setF F.CHAIN_STAT_TIME_ROOT 0 0 (b2n (inIt && root == devId s))
    |> setF F.TIME_ROOT_STAT_ROOT_DEV 0 0 root |> setF F.TIME_ROOT_STAT_HOPS 0 0 (if inIt then hopsTo s root else 0)

/-- Whether a chain of so many members may stand at a smallest budget (R341). -/
def budgetAllows (n least : Nat) : Bool := decide (800 * (n - 1) ≤ least)

/-- The smallest budget among this device and the other members. -/
def leastBudget (s : State) : Nat := s.chain.members.foldl (fun b m => min b m.budget) (reg s .CHAIN_BUDGET 0 0).toNat

/-- A joining device that hears members is admitted or refused (R341). -/
def tryJoin (s : State) : State :=
  if getF s F.CHAIN_STAT_CSTATE 0 0 = 1 ∧ s.chain.members ≠ [] then
    if budgetAllows (s.chain.members.length + 1) (leastBudget s) then
      setF F.CHAIN_STAT_CSTATE 0 0 2 { s with chain := { s.chain with joinedAt := s.clk.mono } }
    else raise0 Ev.CHAIN_REFUSED (setF F.CHAIN_STAT_CSTATE 0 0 3 s)
  else s

/-- The membership set has changed, or the ring has opened or closed (R340): MGEN, TOPOLOGY; refused devices try again; chain-wide commands end. -/
def topology (s : State) : State :=
  let s1 := bump .CHAIN_MGEN 0 0 1 { s with chain := { s.chain with refused := [] } }
  let s2 := raise0 Ev.CHAIN_TOPOLOGY s1
  let s3 := if getF s2 F.CHAIN_STAT_CSTATE 0 0 = 3 then setF F.CHAIN_STAT_CSTATE 0 0 1 s2 else s2
  let s4 := refreshChain (tryJoin s3)
  s4.chain.wides.foldl (fun z w => breakWide w z) s4

/-- The neighbour that a chain port's heartbeats show, 0 for none. -/
def neighbour (s : State) (n : Nat) : Nat := if stlUp s n && getF s F.STL_PORT_STAT_MODE n 0 == 2 then (stlPort s n).hbDev else 0

/-- An ANNOUNCE frame's body (log 33): BUDGET, west and east neighbours, flags [0] EXT_SRC and [1] sent east, the initial TTL, HIF_SERIAL, in network order. -/
def announceBody (s : State) (port ttl : Nat) : List Byte :=
  beBytes 4 (reg s .CHAIN_BUDGET 0 0).toNat ++ beBytes 2 (neighbour s 2) ++ beBytes 2 (neighbour s 3)
    ++ beBytes 1 (b2n (flag s F.CHAIN_TIME_CFG_EXT_SRC 0 0) + 2 * b2n (port == 3)) ++ beBytes 1 ttl ++ beBytes 8 hifSerial

/-- ANNOUNCE_TX (R340): every 1 ms out of each UP chain port, by a device that is joining or a member. -/
def execAnnounceTx (t port : Nat) (s : State) : Res :=
  need (decide (2 ≤ port) && decide (port < 4)) "chain port" port <| live t (fun s =>
    let due := match (stlPort s port).annAt with
      | some a => decide (a + 1000000 ≤ s.clk.mono)
      | none => true
    let st := getF s F.CHAIN_STAT_CSTATE 0 0
    if due && stlUp s port && getF s F.STL_PORT_STAT_MODE port 0 == 2 && devId s ≠ 0 && (st == 1 || st == 2) then
      stlSend port 4 (chainHeader 4 (chainTtl s) false (devId s) 0xFFF 0 ++ announceBody s port (chainTtl s))
        (setStlPort port { stlPort s port with annAt := some s.clk.mono } s)
    else s) s

/-- A member as an ANNOUNCE received on a port shows it. -/
def memberOf (old : Option Member) (n dev : Nat) (f : List Byte) (now : Nat) : Member :=
  let hops := beAt f 25 1 - beAt f 1 1 + 1
  let m := old.getD { dev := dev, budget := 0, west := 0, east := 0, heardW := none, heardE := none, hopsW := 0xFFF, hopsE := 0xFFF, extSrc := false }
  let m1 := { m with budget := beAt f 16 4, west := beAt f 20 2, east := beAt f 22 2, extSrc := bit (beAt f 24 1) 0 }
  if n = 2 then { m1 with heardW := some now, hopsW := hops } else { m1 with heardE := some now, hopsE := hops }

/-- This device's own ANNOUNCE has come back (R340): the ring is closed where it came on the other port, unwrapped; a frame of its own DEV_ID from another unit is a duplicate (R341). -/
def ownAnnounce (n : Nat) (f : List Byte) (s : State) : State :=
  let s1 := bump .CHAIN_TTL_DROP 0 0 1 s
  if beAt f 26 8 = hifSerial then
    if bit (beAt f 24 1) 1 ≠ (n == 3) ∧ !bit (beAt f 2 2) 15 then
      let s2 := { s1 with chain := { s1.chain with ownSeen := some s1.clk.mono } }
      if flag s2 F.CHAIN_STAT_RING 0 0 then s2 else topology (setF F.CHAIN_STAT_RING 0 0 1 s2)
    else s1
  else
    let st := getF s1 F.CHAIN_STAT_CSTATE 0 0
    if st = 1 ∨ (st = 2 ∧ s1.clk.mono < s1.chain.joinedAt + 3000000) then
      refreshChain (raise0 Ev.CHAIN_DUP_ID (setF F.CHAIN_STAT_CSTATE 0 0 3 s1))
    else s1

/-- Another device's ANNOUNCE (R340, R341): a known member is refreshed; a newcomer is admitted where the budgets allow, and otherwise this device, if it has only just joined, is the refused one. -/
def otherAnnounce (n dev : Nat) (f : List Byte) (s : State) : State :=
  let now := s.clk.mono
  let others := s.chain.members.filter (fun m => m.dev ≠ dev)
  let old := s.chain.members.find? (fun m => m.dev == dev)
  let m := memberOf old n dev f now
  let s1 := { s with chain := { s.chain with members := insertBy Member.dev m others } }
  if old.isSome then refreshChain s1
  else if getF s F.CHAIN_STAT_CSTATE 0 0 ≠ 2 ∨ budgetAllows (s1.chain.members.length + 1) (leastBudget s1) then topology (tryJoin s1)
  else if now < s.chain.joinedAt + 3000000 then refreshChain (raise0 Ev.CHAIN_REFUSED (setF F.CHAIN_STAT_CSTATE 0 0 3 s1))
  else { s with chain := { s.chain with refused := dev :: s.chain.refused.filter (· ≠ dev) } }

/-- A chain frame goes on to the other chain port with TTL decremented (R343): one whose TTL reaches 0, or one for every member that has come back to its origin, is discarded; a refused device's frames are not carried (R341). -/
def transitFrame (n : Nat) (f : List Byte) (s : State) : State :=
  let ttl := beAt f 1 1
  let src := beAt f 2 2 % 4096
  if ttl ≤ 1 ∨ (beAt f 4 2 % 4096 = 0xFFF ∧ src = devId s) then bump .CHAIN_TTL_DROP 0 0 1 s
  else if s.chain.refused.contains src then s
  else drainTransit n { s with chain := { s.chain with transit := tmod s.chain.transit n [] (· ++ [patch f 1 (beBytes 1 (ttl - 1))]) } }

/-- An ANNOUNCE frame received on a chain port. -/
def announceIn (n : Nat) (f : List Byte) (s : State) : State :=
  let src := beAt f 2 2 % 4096
  if devId s = 0 then transitFrame n f s
  else if src = devId s then ownAnnounce n f s
  else transitFrame n f (otherAnnounce n src f s)

/-- Whether a port is an UP chain port. -/
def chainUp (s : State) (n : Nat) : Bool := decide (2 ≤ n) && decide (n < 4) && stlUp s n && getF s F.STL_PORT_STAT_MODE n 0 == 2

/-- ANNOUNCE_RX (R340, R341): a KIND 4 frame on a chain port. -/
def execAnnounceRx (t port : Nat) (bytes : List Byte) (s : State) : Res :=
  need (decide (2 ≤ port) && decide (port < 4)) "chain port" port <| live t (fun s =>
    if !chainUp s port then s
    else if !chainHeaderOk bytes then bump .CHAIN_BAD_CNT 0 0 1 s
    else if beAt bytes 0 1 % 16 = 4 then announceIn port bytes s
    else s) s

/-- A forwarded command is lost; a query of a chain-wide command ends that command with UNREACHABLE. -/
def forwardLost (f : Forwarded) (s : State) : State :=
  if f.kind = 5 then
    match s.chain.wides.find? (fun w => w.cmd.serial == f.nonce) with
    | some w => endWide w 0x34 f.target (if w.search.isSome then w.dev * 2 ^ 52 else cursorNow s w.mark) s
    | none => dropForward f s
  else loseForward f s

/-- A member has left (R340): its locks and the commands forwarded to it end (R285, R345). -/
def memberGone (dev : Nat) (s : State) : State :=
  let s1 := { s with chain := { s.chain with members := s.chain.members.filter (fun m => m.dev ≠ dev) } }
  let none' := s1.chain.members.isEmpty
  let s2 := if none' then setF F.CHAIN_STAT_CSTATE 0 0 (b2n (chainUp s1 2 || chainUp s1 3)) s1 else s1
  let s3 := endLocksOf (fun m => m == masterId 4 dev) (topology s2)
  (s3.chain.forwarded.filter (fun f => f.target == dev && decide (2 ≤ f.port))).foldl (fun z f => forwardLost f z) s3

/-- MEMBER_EXPIRE (R340): nothing has been heard of a member for 3 ms, on one port or on both; named by this device's own DEV_ID, its own ANNOUNCE has not come round for 3 ms and the ring is open. -/
def execMemberExpire (t dev : Nat) (s : State) : Res :=
  live t (fun s =>
    let old (x : Option Nat) : Bool := match x with
      | some a => decide (a + 3000000 ≤ s.clk.mono)
      | none => true
    if dev = devId s then
      (if flag s F.CHAIN_STAT_RING 0 0 && old s.chain.ownSeen then topology (setF F.CHAIN_STAT_RING 0 0 0 s) else s)
    else match s.chain.members.find? (fun m => m.dev == dev) with
      | none => s
      | some m =>
        if old m.heardW && old m.heardE then memberGone dev s
        else
          let m1 := if old m.heardW then { m with heardW := none, hopsW := 0xFFF } else if old m.heardE then { m with heardE := none, hopsE := 0xFFF } else m
          refreshChain { s with chain := { s.chain with members := s.chain.members.map (fun x => if x.dev = dev then m1 else x) } }) s

/-- CHAIN_CFG (0x0803, R330, R341). -/
def execChainCfg (h : Hdr) (dev budget : Nat) (s : State) : Res :=
  runCmd 0x0803 h (fun _ => firstBad [bad (decide (4095 ≤ dev)) 0, bad (decide (budget < 1000) || decide (4000000 < budget)) 4]) (fun _ => some 7) (fun s =>
    if s.chain.wides ≠ [] then failWith h 0x0803 0x24 0 s
    else
      let changed := dev ≠ devId s
      let was := s.chain.members ≠ []
      let s1 := setReg .CHAIN_BUDGET 0 0 (BitVec.ofNat 32 budget) (setF F.CHAIN_STAT_DEV_ID 0 0 dev s)
      let up := chainUp s1 2 || chainUp s1 3
      let s2 := if changed then
          setF F.CHAIN_STAT_RING 0 0 0 (setF F.CHAIN_STAT_CSTATE 0 0 (b2n (up && dev ≠ 0)) { s1 with chain := { s1.chain with members := [], ownSeen := none } })
        else if getF s1 F.CHAIN_STAT_CSTATE 0 0 = 3 then tryJoin (setF F.CHAIN_STAT_CSTATE 0 0 1 s1)
        else s1
      ok h 0x0803 (if changed && was then topology s2 else refreshChain s2)) s

/-- A record of CHAIN_MEMBERS (Table 15.9). -/
def memberRecord (s : State) (root dev hopsW hopsE budget : Nat) (atBreak : Bool) : List Byte :=
  leBytes 2 (dev + 4096 * b2n (dev == devId s) + 8192 * b2n (dev == root) + 16384 * b2n atBreak) ++ leBytes 2 hopsW ++ leBytes 2 hopsE ++ leBytes 2 (budget / 1000)

/-- The records of the chain from a DEV_ID on; a member beside a break is one of an open chain with no neighbour on a side. -/
def memberRecords (s : State) (first : Nat) : List (List Byte) :=
  if getF s F.CHAIN_STAT_CSTATE 0 0 ≠ 2 then []
  else
    let root := rootDev s
    let ring := flag s F.CHAIN_STAT_RING 0 0
    let me : Member := { dev := devId s, budget := (reg s .CHAIN_BUDGET 0 0).toNat, west := neighbour s 2, east := neighbour s 3,
                         heardW := none, heardE := none, hopsW := 0, hopsE := 0, extSrc := false }
    ((sortBy Member.dev (me :: s.chain.members)).filter (fun m => decide (first ≤ m.dev))).map
      (fun m => memberRecord s root m.dev m.hopsW m.hopsE m.budget (!ring && (m.west == 0 || m.east == 0)))

/-- CHAIN_MEMBERS (0x0804, R349, R279). -/
def execChainMembers (h : Hdr) (first : Nat) (s : State) : Res :=
  runCmd 0x0804 h noChk noCls (fun s =>
    let l := (memberRecords s first).take (fitMax s h 8 8 64)
    finish h 0x0804 { data := leBytes 4 (mgen s) ++ leBytes 4 l.length ++ l.flatMap id } s) s

/-! ### Commands and replies of other members (R280, R345) -/

/-- A reply that returns for a forwarded command: an interim one passes through, a final one ends the wait; one to a query of a chain-wide command goes to it. -/
def replyBack (src : Nat) (r : Reply) (s : State) : State :=
  match s.chain.forwarded.find? (fun f => f.target == src && f.tag == r.tag && f.opcode == r.opcode) with
  | none => s
  | some f =>
    if f.kind = 5 then
      match s.chain.wides.find? (fun w => w.cmd.serial == f.nonce) with
      | some w => if r.status = 1 then s else wideAnswer w r (dropForward f s)
      | none => dropForward f s
    else answerForward f r (if r.status = 1 then s else dropForward f s)

/-- A KIND 2 or 3 frame for this device: a packet reaches the sequencer with the twin or the chain as its master; a reply goes to the command it answers. -/
def commandIn (n : Nat) (f : List Byte) (s : State) : State :=
  let src := beAt f 2 2 % 4096
  let body := f.drop 16
  if beAt f 0 1 % 16 = 2 then sequence (if n < 2 then 3 else 4) (if n < 2 then n else src) body (decide (body.length = 32 + 4 * pParamLen body)) 0 [] 0 s
  else replyBack src (replyOf body) s

/-- CHAIN_COMMAND_RX (R280, R345): a KIND 2 or 3 frame received on a twin or chain port for this device. -/
def execChainCommandRx (t port : Nat) (bytes : List Byte) (s : State) : Res :=
  need (decide (port < 4)) "Stretcher port" port <| live t (fun s =>
    let kind := beAt bytes 0 1 % 16
    if !stlUp s port then s
    else if !chainHeaderOk bytes then bump .CHAIN_BAD_CNT 0 0 1 s
    else if (kind = 2 ∨ kind = 3) ∧ beAt bytes 4 2 % 4096 = devId s ∧ !s.chain.refused.contains (beAt bytes 2 2 % 4096) then commandIn port bytes s
    else s) s

/-- FORWARD_TIMEOUT (R345): 100 ms without the final reply of a forwarded command. -/
def execForwardTimeout (t kind sub tag : Nat) (s : State) : Res :=
  live t (fun s =>
    match s.chain.forwarded.find? (fun f => f.kind == kind && f.sub == sub && f.tag == tag && decide (f.since + 100000000 ≤ s.clk.mono)) with
    | none => s
    | some f => forwardLost f s) s

/-! ### Frames and blocks (R314 to R316, R342, R343) -/

/-- A good frame enters the ingress FIFO of the attached pipeline as source 768 + n, with its CLASS as ICLASS (R315, R316). -/
def stlDeliver (n cls : Nat) (f : List Byte) (s : State) : State :=
  rxGood (768 + n) (f.length + 4) (offer (768 + n) cls f true s.clk.tod s)

/-- A frame on a chain port (R342, R343): one with a bad header is counted, and where it is bound for the pipeline goes there to fail its parse; by DST_DEV it is for this device, for another, or for every member. -/
def chainFrame (n cls : Nat) (f : List Byte) (s : State) : State :=
  let kind := beAt f 0 1 % 16
  let dst := beAt f 4 2 % 4096
  if !chainHeaderOk f then
    let s1 := bump .CHAIN_BAD_CNT 0 0 1 s
    if kind ≤ 1 ∧ (dst = devId s ∨ dst = 0xFFF) then stlDeliver n cls f s1 else s1
  else if kind = 4 then announceIn n f s
  else
    let mine := dst = devId s ∨ dst = 0xFFF
    let own := dst = 0xFFF ∧ beAt f 2 2 % 4096 = devId s
    let s1 := if mine ∧ !own ∧ !s.chain.refused.contains (beAt f 2 2 % 4096) then (if kind ≤ 1 then stlDeliver n cls f s else commandIn n f s) else s
    if dst = devId s then s1 else transitFrame n f s1

/-- A complete frame of a port (R316). -/
def stlFrame (n cls : Nat) (f : List Byte) (good : Bool) (s : State) : State :=
  if !stlUp s n then s
  else if !good then bump .FRAME_ERR n 0 1 s
  else if getF s F.STL_PORT_STAT_MODE n 0 = 2 then chainFrame n cls f s
  else stlDeliver n cls f s

/-- STL_FRAME_RX (R316): a complete frame without its FCS, and whether it is good. -/
def execStlFrameRx (t port cls : Nat) (frame : Frame) (good : Bool) (s : State) : Res :=
  need (decide (port < 4) && decide (cls < 8)) "Stretcher port" port <| live t (stlFrame port cls frame.bytes good) s

/-- CHAIN_TRANSIT (R343, R344): a chain frame that is not for this device alone. -/
def execChainTransit (t port : Nat) (bytes : List Byte) (s : State) : Res :=
  need (decide (2 ≤ port) && decide (port < 4)) "chain port" port <| live t (fun s =>
    if !chainUp s port then s
    else if !chainHeaderOk bytes then bump .CHAIN_BAD_CNT 0 0 1 s
    else if beAt bytes 4 2 % 4096 = devId s ∨ beAt bytes 0 1 % 16 = 4 then s
    else transitFrame port bytes s) s

/-- A frame in reception ends as errored. -/
def frameBroken (n : Nat) (s : State) : State :=
  match (stlPort s n).rx with
  | some _ => bump .FRAME_ERR n 0 1 (setStlPort n { stlPort s n with rx := none } s)
  | none => s

/-- A block that cannot stand is discarded (R314). -/
def badBlock (n : Nat) (s : State) : State := frameBroken n (bump .BAD_BLOCK n 0 1 s)

/-- Bytes of a frame in reception, which is complete at its length: the FCS is checked and the frame passes on (R315, R316). -/
def frameBytes (n : Nat) (b : List Byte) (s : State) : State :=
  match (stlPort s n).rx with
  | none => badBlock n s
  | some (len, cls, got) =>
    let all := got ++ b
    if all.length < len then setStlPort n { stlPort s n with rx := some (len, cls, all) } s
    else
      let f := all.take (len - 4)
      stlFrame n cls f (slice all (len - 4) 4 == fcsOf f) (setStlPort n { stlPort s n with rx := none } s)

/-- The chain port toward the neighbour that is fewer hops from the root, west on a tie. -/
def upstreamPort (s : State) (root : Nat) : Nat :=
  match s.chain.members.find? (fun m => m.dev == root) with
  | some m => if m.hopsW ≤ m.hopsE then 2 else 3
  | none => 2

/-- A TIME block received on an UP chain port (R346, Table 15.6); this device follows it where its port is the upstream one. -/
def timeIn (n : Nat) (b : List Byte) (s : State) : State :=
  if !chainUp s n then s
  else
    let t2 := s.clk.tod
    let t1 := leAt b 8 8
    let t3 := leAt b 16 8
    let t4 := leAt b 24 8
    let root := rootDev s
    let upstream := upstreamPort s root
    let since := (stlPort s n).timeRxAt
    let s1 := setStlPort n { stlPort s n with timeTx := t1, timeRx := t2, timeRxAt := some s.clk.mono } s
    if getF s F.CHAIN_STAT_CSTATE 0 0 ≠ 2 ∨ root = devId s ∨ !flag s F.CHAIN_TIME_CFG_TIME_EN 0 0 ∨ n ≠ upstream ∨ t3 = 0 then s1
    else
      let offset : Int := (((t2 : Int) - t1) - ((t4 : Int) - t3)) / 2
      let s2 := setWide .TIME_OFFSET 0 (unsignedOf 64 offset) 2 s1
      if 1000 < offset.natAbs then raise0 Ev.CHAIN_TIME_STEP (stepTod (unsignedOf 64 ((t2 : Int) - offset)) s2)
      else
        let most : Int := ((s.clk.mono - since.getD (s.clk.mono - 100000)) / 20000 : Nat)
        let slew := max (-most) (min most offset)
        { s2 with clk := { s2.clk with tod := unsignedOf 64 ((t2 : Int) - slew) } }

/-- TIME_BLOCK_RX (R346). -/
def execTimeBlockRx (t port : Nat) (bytes : List Byte) (s : State) : Res :=
  need (decide (2 ≤ port) && decide (port < 4)) "chain port" port <| live t (timeIn port bytes) s

/-- A TIME block (Table 15.6). -/
def timeBlock (s : State) (n : Nat) : List Byte :=
  let root := rootDev s
  let follows := root ≠ devId s && n == upstreamPort s root && flag s F.CHAIN_TIME_CFG_TIME_EN 0 0
  [0x66] ++ leBytes 1 (b2n follows) ++ leBytes 2 root ++ leBytes 2 (hopsTo s root) ++ zeros 2 ++ leBytes 8 s.clk.tod ++ leBytes 8 (stlPort s n).timeTx ++ leBytes 8 (stlPort s n).timeRx

/-- TIME_BLOCK_TX (R346): every 100 µs a member sends a TIME block on each UP chain port. -/
def execTimeBlockTx (t port : Nat) (s : State) : Res :=
  need (decide (2 ≤ port) && decide (port < 4)) "chain port" port <| live t (fun s =>
    let due := match (stlPort s port).timeAt with
      | some a => decide (a + 100000 ≤ s.clk.mono)
      | none => true
    if due && chainUp s port && getF s F.CHAIN_STAT_CSTATE 0 0 == 2 then
      emit (.stretcher port 0x66 (timeBlock s port)) (setStlPort port { stlPort s port with timeAt := some s.clk.mono } s)
    else s) s

/-- A control block by its type (Table 14.3).  A field of more than one byte is read least significant byte first (DESIGN CHOICE, log 79: Table 14.3 gives no byte order, and R10 speaks of frames, host structures and packets). -/
def controlBlock (n : Nat) (b : List Byte) (s : State) : State :=
  match beAt b 0 1 with
  | 0x00 => linkWord n (leAt b 1 3) s
  | 0x1E => linkWord n (leAt b 1 3) s
  | 0x2D =>
    let len := leAt b 1 2
    let s1 := frameBroken n s
    if len < 64 ∨ 16368 < len then bump .BAD_BLOCK n 0 1 s1
    else if stlUp s1 n then setStlPort n { stlPort s1 n with rx := some (len, leAt b 3 1 % 8, slice b 4 28) } s1
    else s1
  | 0x33 => frameBroken n s
  | 0x4B => if stlUp s n then flowIn n (bit (leAt b 1 1) 0) s else s
  | 0x55 => hbIn n b s
  | 0x66 => timeIn n b s
  | 0x78 => lastGaspIn n (leAt b 1 1) (leAt b 4 8) s
  | 0x0F => s
  | _ => badBlock n s

/-- STL_BLOCK_RX (R314, R315): a block on a port: a header byte, 2 for data and 1 for control, then its 32 payload bytes (log 32). -/
def execStlBlockRx (t port : Nat) (block : List Byte) (s : State) : Res :=
  need (decide (port < 4)) "Stretcher port" port <| live t (fun s =>
    if !(stlPort s port).enabled then s
    else
      let b := (block.drop 1 ++ zeros 32).take 32
      match beAt block 0 1 with
      | 2 => if stlUp s port then frameBytes port b s else badBlock port s
      | 1 => controlBlock port b s
      | _ => badBlock port s) s

end Sys2Proof.Machine
end

