-- ==== Sys2Proof/Machine/Boot.lean ====
section
/-! DEFINITION. Time of day, fuses, resets and boot (Chapter 18), and the host reset and link of Chapter 11. -/

namespace Sys2Proof.Machine

/-! ### Time of day (R403) -/

/-- TOD_SET (R403, R404): the write of TOD_SET's high word; TOD steps to the value and is VALID, and the register reads the value written. -/
def execTodSet (t value : Nat) (s : State) : Res :=
  live t (fun s => setF F.TOD_CTL_VALID 0 0 1 (setWide .TOD_SET 0 value 2 (stepTod value s))) s

/-- TOD_SECOND (R403): TOD reaches a whole second; TOD_1PPS_OUT is driven where PPS_OUT_EN is set, and the AON backup is set from TOD. -/
def execTodSecond (t : Nat) (s : State) : Res :=
  live t (fun s =>
    let s1 := { s with clk := { s.clk with aonTod := s.clk.tod, aonMono := s.clk.mono } }
    if flag s F.TOD_CTL_PPS_OUT_EN 0 0 then emit (.pin 2 1) s1 else s1) s

/-- PPS_CAPTURE (R403): a TOD_1PPS_IN edge of the selected polarity captures TOD while PPS_IN_EN is set. -/
def execPpsCapture (t : Nat) (s : State) : Res :=
  live t (fun s => if flag s F.TOD_CTL_PPS_IN_EN 0 0 then setWide .TOD_PPS_CAP 0 s.clk.tod 2 s else s) s

/-! ### Fuses (R405 to R407) -/

/-- The 68-byte message a FUSE_PROGRAM signature covers, as a number (R406): HIF_SERIAL, the log length before the change, parameter bytes 0 to 55. -/
def fuseMessage (s : State) (fuse : Nat) (p : FuseParams) : Nat :=
  leNum (leBytes 8 hifSerial ++ leBytes 4 s.fuse.log.length ++ leBytes 4 fuse ++ leBytes 4 p.value ++ leBytes 32 p.key ++ zeros 16)

/-- The enrolled, unrevoked owner slot whose hash one of the signature's candidate keys has (R406). -/
def ownerSlot (s : State) (digest auth : Nat) : Option Nat :=
  firstIx 4 fun k => match s.fuse.slots[k]? with
    | some (1, hash) => (Config.ecdsaCandidates digest auth).contains hash
    | _ => false

/-- Who signed a change, where AUTH holds (R406): an owner slot, 0xE the Arique root for fuse 2, 0xF unsigned while no slot has ever been enrolled. -/
def fuseSigner (s : State) (fuse : Nat) (p : FuseParams) : Option Nat :=
  let d := Config.sha384 68 (fuseMessage s fuse p)
  if fuse = 2 then (if Config.rootVerifies d p.auth then some 0xE else none)
  else if s.fuse.slots.all (fun x => x.1 == 0) then (if p.auth = 0 then some 0xF else none)
  else ownerSlot s d p.auth

/-- The state of an owner slot: 0 empty, 1 enrolled, 2 revoked. -/
def slotState (s : State) (k : Nat) : Nat := ((s.fuse.slots[k]?).getD (0, 0)).1

/-- Whether a change is in the permitted direction and within its limit (Table 18.6). -/
def fuseAllowed (s : State) (fuse : Nat) (p : FuseParams) : Bool :=
  match fuse with
  | 0 => decide (p.value < s.fuse.ceiling) && decide (s.fuse.ceilingUsed < 8)
  | 1 =>
    if bit p.value 8 then slotState s (p.value % 4) == 1 && decide (1 < countIx 4 fun k => slotState s k == 1)
    else slotState s (p.value % 4) == 0
  | 2 => decide (s.fuse.licence < p.value) && decide (s.fuse.licenceUsed < 3)
  | _ => decide (s.fuse.keyGen < 4)

/-- BAD_PARAM of a FUSE_PROGRAM (R405): VALUE out of range or with a reserved bit set; KEY nonzero for fuse 0, fuse 2 or a revocation, or zero for an enrolment or fuse 3. -/
def fuseChecks (fuse : Nat) (p : FuseParams) : Option (Nat × Nat × Nat) :=
  let value := match fuse with
    | 0 => decide (p.value < 600) || decide (1399 < p.value)
    | 1 => p.value % 2 ^ 32 - p.value % 4 - 256 * bits p.value 8 1 ≠ 0
    | 2 => decide (3 < p.value)
    | _ => p.value ≠ 0
  let needKey := (fuse == 1 && !bit p.value 8) || fuse == 3
  firstBad [bad value 4, bad (if needKey then p.key = 0 else p.key ≠ 0) 8]

/-- FUSE_PROGRAM (0x0020, R405): the checks, then the change is programmed; one change is programmed at a time, and a command behind it waits. -/
def fuseProgram (fuse : Nat) (h : Hdr) (p : FuseParams) (s : State) : Res :=
  runCmd 0x0020 h (fun _ => fuseChecks fuse p) noCls (fun s =>
    if s.fuse.op.isSome then s
    else if !fuseAllowed s fuse p then failWith h 0x0020 0x15 0 s
    else match fuseSigner s fuse p with
      | none => failWith h 0x0020 0x15 0 s
      | some w => { s with fuse := { s.fuse with op := some ⟨fuse, p.value, p.key, w, h, s.clk.mono⟩ } }) s

/-- FUSE_PROGRAM of fuse 0, POWER_CEILING (R405, Table 18.6). -/
def execFuseProgramPowerCeiling (h : Hdr) (p : FuseParams) (s : State) : Res := fuseProgram 0 h p s

/-- FUSE_PROGRAM of fuse 1 that enrols an owner key (R405, Table 18.6). -/
def execFuseProgramOwnerEnrol (h : Hdr) (p : FuseParams) (s : State) : Res := fuseProgram 1 h p s

/-- FUSE_PROGRAM of fuse 1 that revokes an owner slot (R405, Table 18.6). -/
def execFuseProgramOwnerRevoke (h : Hdr) (p : FuseParams) (s : State) : Res := fuseProgram 1 h p s

/-- FUSE_PROGRAM of fuse 2, LANE_LICENSE (R405, Table 18.6). -/
def execFuseProgramLaneLicense (h : Hdr) (p : FuseParams) (s : State) : Res := fuseProgram 2 h p s

/-- FUSE_PROGRAM of fuse 3, the in-band key (R405, Table 18.6). -/
def execFuseProgramInbandKey (h : Hdr) (p : FuseParams) (s : State) : Res := fuseProgram 3 h p s

/-- The setting a completed change leaves (Table 18.6), with the VALUE its log entry shows. -/
def applyFuse (op : FuseOp) (f : FuseState) : FuseState × Nat :=
  match op.fuse with
  | 0 => ({ f with ceiling := op.value, ceilingUsed := f.ceilingUsed + 1 }, op.value)
  | 1 => ({ f with slots := listSet f.slots (op.value % 4) (if bit op.value 8 then (2, ((f.slots[op.value % 4]?).getD (0, 0)).2) else (1, op.key)) }, op.value)
  | 2 => ({ f with licence := op.value, licenceUsed := f.licenceUsed + 1 }, op.value)
  | _ => ({ f with ibKey := op.key, keyGen := f.keyGen + 1 }, f.keyGen + 1)

/-- CEILING_W as the fuse gives it; CAP_W falls with it (R357). -/
def showCeiling (s : State) : State :=
  setF F.PWR_CTL_CEILING_W 0 0 s.fuse.ceiling (if s.fuse.ceiling < getF s F.PWR_CTL_CAP_W 0 0 then setF F.PWR_CTL_CAP_W 0 0 s.fuse.ceiling s else s)

/-- A change completes (R405, R407): the setting and its log entry together. -/
def completeFuse (op : FuseOp) (s : State) : State :=
  let r := applyFuse op s.fuse
  let entry : FuseEntry := ⟨if flag s F.TOD_CTL_VALID 0 0 then s.clk.tod else 0, op.fuse, op.signer, r.2⟩
  showCeiling { s with fuse := { r.1 with log := s.fuse.log ++ [entry], op := none } }

/-- FUSE_PROGRAM_DONE (R405, R407): the change takes effect, its entry is appended, and the reply gives the log length after it. -/
def execFuseProgramDone (t : Nat) (s : State) : Res :=
  live t (fun s => match s.fuse.op with
    | none => s
    | some op => finishOpen op.cmd 0x0020 { data := leBytes 4 (s.fuse.log.length + 1) } (completeFuse op s)) s

/-- A fuse log entry (Table 18.7). -/
def fuseEntryBytes (e : FuseEntry) : List Byte :=
  leBytes 8 e.tod ++ leBytes 1 e.fuse ++ leBytes 1 e.signer ++ zeros 2 ++ leBytes 4 e.value

/-- FUSE_LOG_READ (0x0021, R407): up to 16 entries from the first asked for, as many as the reply's path carries (R279). -/
def execFuseLogRead (h : Hdr) (first : Nat) (s : State) : Res :=
  runCmd 0x0021 h noChk noCls (fun s =>
    finish h 0x0021 { data := ((s.fuse.log.drop first).take (fitMax s h 0 16 16)).flatMap fuseEntryBytes } s) s

/-! ### What a reset keeps (R395, Table 18.2) -/

/-- Registers that a cold or warm reset leaves (Table 18.2, R376, R408): the fault collector's and the TOD block's, RST_STAT and CLK_STAT (set apart); a warm reset also leaves BOOT_MS, the PCIe link's status, and the power settings of R370. -/
def keptByReset (warm : Bool) (n : RegName) : Bool :=
  let b := (regRow n).base
  (decide (0x100000 ≤ b) && decide (b < 0x200000)) || n == .TOD_SET || n == .TOD_CTL || n == .TOD_PPS_CAP || n == .RST_STAT || n == .CLK_STAT
    || (warm && (n == .BOOT_MS || n == .HIF_LINK || n == .PWR_CTL || n == .PWR_THRESH))

/-- A kept word with the KEEP bits that software changed back at their reset values (R260). -/
def unTouch (s : State) (k : RegKey) (v : W32) : W32 :=
  let m := tgetD s.rf.touched k 0
  (v &&& ~~~m) ||| (resetWord k &&& m)

/-- The register file after a cold or warm reset. -/
def keptRegs (warm : Bool) (s : State) : RegFile :=
  { words := (s.rf.words.filter (fun x => keptByReset warm x.1.n)).map (fun x => (x.1, unTouch s x.1 x.2))
    marks := s.rf.marks.filter (fun k => keptByReset warm k.n) }

/-- GEN of every table advances by one (R107). -/
def carryGen (old : State) (s : State) : State :=
  (List.range 64).foldl (fun z id => setF F.TBL_STAT0_GEN id 0 (getF old F.TBL_STAT0_GEN id 0 + 1) z) s

/-- Quarantined pipelines stay quarantined, each served by its sibling of R378, and retired banks out of service, as the fault collector's registers show (Table 18.2; log 34). -/
def keepQuarantine (s : State) : State :=
  let kept := (List.range 64).filter fun k => bit (getF s (if k < 32 then F.PIPE_QUAR_IN_QUAR else F.PIPE_QUAR_EG_QUAR) 0 0) (k % 32)
  let q1 := kept.foldl (fun z k => setF F.PIPE_STAT_QUARANTINED (k % 32) (k / 32) 1 z) s
  let q := kept.foldl (fun z k => match siblingPipe z (k / 32) (k % 32) with
    | some j => setF F.PIPE_STAT_SERVED_BY (k % 32) (k / 32) j z
    | none => z) q1
  { q with pal := { q.pal with bankOut := (List.range 128).filter (mapBit s .BANK_RETIRED) } }

/-- The Palette's free lists are built over the banks in service (Table 18.3, R160, R173). -/
def palInit (s : State) : State :=
  refreshEff (setF F.PAL_STAT0_BANKS_IN_SERVICE 0 0 (128 - s.pal.bankOut.length) (setF F.PAL_STAT0_FREE_CELLS 0 0 (10240 * (128 - s.pal.bankOut.length)) s))

/-- What a cold or warm reset makes of the state (Table 18.2): the parts named there are kept, and the rest is as after power-on. -/
def afterReset (warm : Bool) (s : State) : State :=
  let fw : FwState := { running := if warm then (if s.boot.nextImage then s.fw.staged else s.fw.running) else none
                        flash0 := s.fw.flash0, flash1 := s.fw.flash1 }
  let z : State :=
    { rf := keptRegs warm s
      clk := { s.clk with bootEnd := 0, stepAt := none }
      fw := fw
      host := { msix := warm && s.host.msix, dma := warm && s.host.dma, d3hot := warm && s.host.d3hot, bmc := { s.host.bmc with last := none } }
      stl := { refPresent := s.stl.refPresent }
      twin := { aon := s.twin.aon }
      pwr := { passAt := s.clk.mono }
      fuse := { s.fuse with op := none }
      boot := { ir := s.boot.ir, memCode := s.boot.memCode, memWord := s.boot.memWord }
      free := s.free, out := s.out, pending := s.pending }
  keepQuarantine (carryGen s (setF F.FLT_STAT_SAFE 0 0 0 (setF F.PWR_STAT2_TRIP_SEEN 0 0 (getF s F.PWR_STAT2_TRIP_SEEN 0 0) z)))

/-- RST_STAT's stage and progress; a stage that begins gives a line on the console (R398; log 45). -/
def setStage (stage progress : Nat) (s : State) : State :=
  let s1 := setF F.RST_STAT_BOOT_STAGE 0 0 stage (setF F.RST_STAT_PROGRESS 0 0 progress s)
  if stage = bootStage s then s1 else consoleLine 0 stage s1

/-- CAP_W and CEILING_W after a power-on or cold reset (R370). -/
def coldPower (s : State) : State :=
  setF F.PWR_CTL_CEILING_W 0 0 s.fuse.ceiling (setF F.PWR_CTL_CAP_W 0 0 s.fuse.ceiling s)

/-- FAULT_N and THERMTRIP_N are released where they were asserted (R385, R422). -/
def releasePins (old : State) (s : State) : State :=
  let s1 := if isSafe old || old.flt.frozen || old.flt.tripped then emit (.pin 0 1) s else s
  if old.flt.tripped then emit (.pin 1 1) s1 else s1

/-- Core release (R398): RST_N high, every rail good, the AON island up; boot goes on from CORE_RELEASE. -/
def coreRelease (s : State) : State :=
  if bootStage s = 0 && flag s F.CLK_STAT_AON_CLK_OK 0 0 && getF s F.RST_STAT_RAIL_OK 0 0 == 63 then
    setStage 1 5 { s with clk := { s.clk with resetAt := s.clk.mono }, pwr := { s.pwr with passAt := s.clk.mono } }
  else s

/-! ### Power-on, cold, warm and host reset -/

/-- The state when AON power is applied (Table 18.2): all as `State.reset` but the fuses, the flash, and what the model keeps for itself; TOD starts at 0 with VALID 0. -/
def powerOnState (s : State) : State :=
  coldPower
    { State.reset with
      clk := { mono := s.clk.mono, aonMono := s.clk.mono }
      fw := { flash0 := s.fw.flash0, flash1 := s.fw.flash1 }
      stl := { refPresent := s.stl.refPresent }
      pwr := { passAt := s.clk.mono }
      fuse := { s.fuse with op := none }
      free := s.free, out := s.out, pending := s.pending }

/-- POWER_ON (R395): AON power is applied. -/
def execPowerOn (t : Nat) (s : State) : Res := always (fun s => consoleLine 0 0 (powerOnState (tick t s))) s

/-- AON_POWER_LOSS (R364, R376, R388): the history, the safe state and Varnish end with AON power; nothing acts until it comes back. -/
def execAonPowerLoss (t : Nat) (s : State) : Res :=
  always (fun s =>
    let z := powerOnState (tick t s)
    { z with boot := { z.boot with off := true } }) s

/-- A cold reset (R395, R403): TOD goes on from the AON backup; boot restarts from core release (R397). -/
def coldReset (s : State) : State :=
  let z := afterReset false s
  let z1 := { z with clk := { z.clk with tod := aonNow s } }
  coreRelease (releasePins s (coldPower (setStage 0 4 (setF F.RST_STAT_LAST_RESET 0 0 1
    (setF F.CLK_STAT_REFCLK_OK 0 0 0 (setF F.CLK_STAT_PCIE_REFCLK_OK 0 0 0 (setF F.TOD_CTL_RESTORED 0 0 0 z1)))))))

/-- RST_N (R395): low for at least 10 µs and then high, a cold reset; without AON power it does nothing. -/
def execRstN (t : Nat) (s : State) : Res :=
  always (fun s => if s.boot.off then s else coldReset (tick t s)) s

/-- A warm reset (R396): a fuse change in progress is completed first, its reply lost with those of the other commands; boot resumes at IMAGE. -/
def warmReset (s0 : State) : State :=
  let s := match s0.fuse.op with
    | some op => completeFuse op s0
    | none => s0
  palInit (setStage 3 16 (setF F.RST_STAT_LAST_RESET 0 0 2 (afterReset true s)))

/-- WARM_RESET_START (R396): once the reply to SYS_WARM_RESET has been sent. -/
def execWarmResetStart (t : Nat) (s : State) : Res :=
  live t (fun s => if s.boot.warmPending then warmReset s else s) s

/-- HOST_RESET (R256, R263, R287): every packet ring is reset, every DMA stops, WIDE_MODE and EVT_VECTOR return to 0, MSI-X is disabled, every shadow is zero; function-level reset (cause 1) also resets every command ring.  Causes: 0 PERST_N, 1 function-level reset, 2 D3hot, 3 loss of the link. -/
def hostReset (cause : Nat) (s : State) : State :=
  let s1 := (List.range 64).foldl (fun z r => ringReset r z) s
  let s2 := setF F.HIF_CFG_WIDE_MODE 0 0 0 (setF F.HIF_CFG_EVT_VECTOR 0 0 0 s1)
  let s3 := { s2 with host := { s2.host with msix := false, dma := false, d3hot := cause == 2 }, rf := { s2.rf with shadow := [] } }
  if cause = 1 then (List.range 16).foldl (fun z r => cmdRingReset r z) s3 else s3

/-- HOST_RESET: the device stays in the safe state through it (R385). -/
def execHostReset (t cause : Nat) (s : State) : Res :=
  aon t (fun s => if s.flt.tripped then s else hostReset cause s) s

/-- PCIE_LINK_UP (R400, Table 11.1): the link has trained at a rate and width; below 6.0 × 4 raises LINK_DEGRADE. -/
def execPcieLinkUp (t gen width : Nat) (s : State) : Res :=
  need (decide (4 ≤ gen ∧ gen ≤ 6)) "PCIe rate" gen <| need (width == 1 || width == 2 || width == 4) "PCIe width" width <|
    aon t (fun s =>
      if s.flt.tripped || bootStage s == 0 then s
      else
        let s1 := setF F.HIF_LINK_WIDTH 0 0 width (setF F.HIF_LINK_FLIT 0 0 (b2n (gen == 6)) (setF F.HIF_LINK_GEN 0 0 gen (setF F.CLK_STAT_PCIE_REFCLK_OK 0 0 1 s)))
        let s2 := attach s1
        if gen < 6 ∨ width < 4 then raise0 Ev.HIF_LINK_DEGRADE s2 else s2) s

/-! ### Rails, reference clocks and boot (R393, R398 to R401) -/

/-- RAIL_GOOD (R393): a rail comes within its window; the last one lets core release begin. -/
def execRailGood (t rail : Nat) (s : State) : Res :=
  need (decide (rail < 6)) "rail" rail <| aon t (fun s =>
    coreRelease (setF F.RST_STAT_RAIL_OK 0 0 (putBit (getF s F.RST_STAT_RAIL_OK 0 0) rail true) s)) s

/-- RAIL_FAULT (R393): a rail leaves its window; after core release the device enters the safe state. -/
def execRailFault (t rail : Nat) (s : State) : Res :=
  need (decide (rail < 6)) "rail" rail <| aon t (fun s =>
    let s1 := setF F.RST_STAT_RAIL_OK 0 0 (putBit (getF s F.RST_STAT_RAIL_OK 0 0) rail false) s
    if bootStage s = 0 then s1 else safeBy 1 s1) s

/-- REFCLK_LOSS (R401, Table 18.4): AON_CLK or REFCLK is lost; after Ready the device enters the safe state. -/
def execRefclkLoss (t : Nat) (aonClk : Bool) (s : State) : Res :=
  aon t (fun s =>
    let s1 := setF (if aonClk then F.CLK_STAT_AON_CLK_OK else F.CLK_STAT_REFCLK_OK) 0 0 0 s
    if bootStage s = 6 then safeBy 1 s1 else s1) s

/-- The first image of a list that is valid (R303, R304, R399). -/
def firstValid (s : State) : List (Option Gesso) → Option Gesso
  | [] => none
  | some g :: l => if gessoValid s.fuse g then some g else firstValid s l
  | none :: l => firstValid s l

/-- The IMAGE stage ends (R304, R305): after a warm reset the staged image where marked, otherwise the running one; else the first valid flash copy; with none the device is in recovery. -/
def imageStage (s : State) : State :=
  let mine := if getF s F.RST_STAT_LAST_RESET 0 0 = 2 then [s.fw.running] else []
  match firstValid s (mine ++ [s.fw.flash0, s.fw.flash1]) with
  | some g => setF F.FW_STAT_BOOT_COPY 0 0 (b2n (firstValid s (mine ++ [s.fw.flash0]) == none)) (setStage 4 36 (loadGesso g s))
  | none => setStage 7 35 (setF F.FW_STAT_RECOVERY 0 0 1 { s with fw := { s.fw with running := none } })

/-- The START stage begins (R304, R334, R403): the engines start, TOD is restored after a cold reset, and the twin configuration after a cold or warm one. -/
def startStage (s : State) : State :=
  let s1 := match s.fw.running with
    | some g => startEngines g s
    | none => s
  let last := getF s F.RST_STAT_LAST_RESET 0 0
  let s2 := if last = 1 then setF F.TOD_CTL_RESTORED 0 0 1 { s1 with clk := { s1.clk with tod := aonNow s1 } } else s1
  setStage 5 91 (if last = 0 then s2 else restoreTwin s2)

/-- Ready (R398): BOOT_MS counts from core release. -/
def readyStage (s : State) : State :=
  let s1 := if getF s F.RST_STAT_LAST_RESET 0 0 = 2 then s else setReg .BOOT_MS 0 0 (BitVec.ofNat 32 ((s.clk.mono - s.clk.resetAt) / 1000000)) s
  setStage 6 100 { s1 with clk := { s1.clk with bootEnd := s1.clk.tod }, pwr := { s1.pwr with passAt := s1.clk.mono } }

/-- BOOT_STAGE_DONE (R398, Table 18.3): the stage in progress completes and the next begins.  At IMAGE the operands give what the two flash copies hold, where the model does not hold it already. -/
def execBootStageDone (t : Nat) (copy0 copy1 : Option Gesso) (s : State) : Res :=
  live t (fun s => match bootStage s with
    | 0 => if flag s F.CLK_STAT_AON_CLK_OK 0 0 then s else coreRelease (setF F.CLK_STAT_AON_CLK_OK 0 0 1 (setStage 0 4 s))
    | 1 => setStage 2 6 (emit (.pin 3 vBase) (setF F.CLK_STAT_REFCLK_OK 0 0 1 (setF F.CLK_STAT_PCIE_REFCLK_OK 0 0 1 s)))
    | 2 => setStage 3 16 (palInit s)
    | 3 => imageStage { s with fw := { s.fw with flash0 := copy0.or s.fw.flash0, flash1 := copy1.or s.fw.flash1 } }
    | 4 => startStage s
    | 5 => readyStage s
    | _ => s) s

end Sys2Proof.Machine
end

