-- ==== Sys2Proof/Machine/Access.lean ====
section
/-! DEFINITION. Reads and writes of registers over PCIe (R257 to R265), the wide mailbox, and the register, identification and console sides of the BMC bus and the UART (R272, R274). -/

namespace Sys2Proof.Machine

/-! ### Where an offset lies -/

/-- The units that the strides of an address formula name for a distance from its base: the unit, the second number and the rest. -/
def unitAt : List (Nat × Nat × Nat × Nat) → Nat → Option (Nat × Nat × Nat)
  | [], d => some (0, 0, d)
  | (stride, count, di, dj) :: l, d =>
    let k := min (d / stride) (count - 1)
    (unitAt l (d - k * stride)).map fun r => (r.1 + k * di, r.2.1 + k * dj, r.2.2)

/-- The word of a register that stands at a 4-byte-aligned offset: its unit and second number (for a wide value the word). -/
def locateIn (off : Nat) (n : RegName) : Option RegKey :=
  let r := regRow n
  if off < r.base then none
  else match unitAt r.steps (off - r.base) with
    | none => none
    | some (i, j, rest) => if rest < 4 * r.words then some ⟨n, i, j + rest / 4⟩ else none

/-- The register word at an offset (R257; BAR2 offsets stand at 0x1000_0000, log 3). -/
def locate (off : Nat) : Option RegKey := regNames.findSome? (locateIn (off / 4 * 4))

/-- An offset of the counter space (Table 10.1). -/
def inCounters (off : Nat) : Bool := decide (0x2410000 ≤ off) && decide (off < 0x2800000)

/-- Whether the counter space assigns an offset (Table 10.1). -/
def counterAssigned (x : Nat) : Bool :=
  (decide (x < 0x30500) && decide (x % 256 / 8 ≤ 16)) || (decide (0x38000 ≤ x) && decide (x < 0x38600)) || (decide (0xF0000 ≤ x) && decide (x < 0x2F0000))
    || (decide (0x2F0000 ≤ x) && decide (x < 0x3F0000) && x % 64 / 8 ≠ 7)

/-- Words of the wide value that begins at a register word: 2 or 4, else 0 (the MSI-X table is words of PCIe's own). -/
def wideWords (k : RegKey) : Nat := if k.n = .MSIX_TABLE then 0 else if 1 < (regRow k.n).words then (regRow k.n).words else 0

/-- The clock domain a register offset lies in (R255, Table 18.5; log 35). -/
def domainOf (off : Nat) : Nat :=
  if off < 0x100000 then 19 else if off < 0x300100 then 1 else if off < 0x400000 then 24
  else if off < 0xC00000 then 2 + (off - 0x400000) / 0x100000
  else if off < 0x1800000 then 10
  else if off < 0x2000000 then 11 + (off - 0x1800000) / 0x100000
  else if off < 0x2020000 then 21 else if off < 0x2040000 then 22
  else if off < 0x2400000 then 20 else if off < 0x2800000 then 23 else if off < 0x3000000 then 20 else 19

/-- Whether a domain is powered off: a tile whose macros are all disabled, a pair of Stretcher ports both in MODE 0 (Table 18.5). -/
def domainOff (s : State) (d : Nat) : Bool :=
  if 11 ≤ d ∧ d ≤ 18 then (List.range 12).all fun k => !macEnabled s (12 * (d - 11) + k)
  else if d = 21 ∨ d = 22 then [0, 1].all fun k => getF s F.STL_PORT_STAT_MODE (2 * (d - 21) + k) 0 == 0
  else false

/-- Whether a domain's clock runs, neither asleep nor off (R402): the core domains from the lock of the core PLLs on, and in the safe state without the clusters, BUF, TEL and the tiles (Table 17.5). -/
def domainRuns (s : State) (d : Nat) : Bool :=
  if d = 25 then s.flt.frozen
  else if s.flt.frozen then false
  else if d = 1 then true
  else if s.flt.tripped || !flag s F.CLK_STAT_REFCLK_OK 0 0 then false
  else if isSafe s && (decide (d ≤ 18) || d == 23) then false
  else if 2 ≤ d ∧ d ≤ 9 then !s.host.asleep.contains (d - 2)
  else !domainOff s d

/-! ### What a register shows -/

/-- The port whose logical lanes a physical receive lane carries (R38). -/
def portOfRx (s : State) (m q : Nat) : Option Nat :=
  (firstIx 8 fun l => bits (getF s F.MAC_RXMAP_RX_LANE m 0) (3 * l) 3 == q).bind fun l =>
    (firstIx 8 fun p => startsPort s (8 * m + p) && decide (p ≤ l) && decide (l < p + portWidth s (8 * m + p))).map (8 * m + ·)

/-- A free value of a register that shows what the line does (log 2). -/
def lineValue (place unit : Nat) (s : State) : Nat := Config.freeValue place (s.free * 1024 + unit)

/-- STATE of an engine as read: SLEEP while it waits with nothing pending (Table 13.12). -/
def engShown (s : State) (e : Nat) : Nat :=
  let x := engine s e
  if engState s e = 1 && x.waiting && (pendingIrq x).isNone then 2 else engState s e

/-- BACKLOG, SHAPE_WAIT and PAUSED of a node (Table 8.6). -/
def nodeShown (s : State) (n : Node) : Nat :=
  let backlog := match n.kind with
    | 1 => !(kidsOf s n.ix).isEmpty
    | 2 => !(servicesOf s n.ix).isEmpty
    | _ => !(queueOf s n).isEmpty
  4 * b2n backlog + 2 * b2n (onWheel s n) + b2n (queuePaused s n)

/-- FUSE_STAT (Table 18.8). -/
def fuseStat (s : State) : Nat :=
  let slots := (List.range 4).foldl (fun a k => a + slotState s k * 4 ^ k) 0
  (8 - s.fuse.ceilingUsed) * 2 ^ 28 + (3 - s.fuse.licenceUsed) * 2 ^ 26 + (4 - s.fuse.keyGen) * 2 ^ 23 + slots * 2 ^ 15 + s.fuse.log.length

/-- CLK_RUN (Table 18.8). -/
def clkRun (s : State) : Nat := (List.range 25).foldl (fun a k => putBit a k (domainRuns s (k + 1))) 0

/-- What a register word reads, for the registers whose fields stand elsewhere in the state; every other word reads as it is held. -/
def liveWord (s : State) (k : RegKey) : W32 :=
  let w := (reg s k.n k.i k.j).toNat
  let half (v : Nat) : W32 := BitVec.ofNat 32 (v / 2 ^ (32 * k.j))
  let node1 (kind : Nat) : W32 := BitVec.ofNat 32 (putBits w 29 3 (nodeShown s ⟨kind, k.i⟩))
  match k.n with
  | .HIF_ID1 => BitVec.ofNat 32 (putBits (putBits (putBits w 16 16 (Config.fuseWord 1)) 10 2 s.fuse.licence) 9 1 (b2n s.fuse.gradeS))
  | .HIF_SERIAL => half hifSerial
  | .TOD_NOW => half s.clk.tod
  | .FUSE_STAT => BitVec.ofNat 32 (Nat.lor (Nat.land w 0x7FC0) (fuseStat s))
  | .CLK_RUN => BitVec.ofNat 32 (putBits w 0 25 (clkRun s))
  | .IB_CFG => BitVec.ofNat 32 (putBits w 0 3 s.fuse.keyGen)
  | .CMD_OUT => BitVec.ofNat 32 (putBits w 0 15 s.cmd.outstanding.length)
  | .ENG_STAT =>
    let x := engine s k.i
    BitVec.ofNat 32 (putBits (putBits (putBits (putBits w 29 3 (engShown s k.i)) 24 1 (bits x.flags 12 1)) 20 4 x.sp) 0 13 x.upc)
  | .SCH_NODE1_Q => node1 0
  | .SCH_NODE1_S => node1 1
  | .SCH_NODE1_P => node1 2
  | .SCH_NODE1_C => node1 3
  | .LANE_TXCTL => BitVec.ofNat 32 (putBits (putBits w 8 3 (txState s k.i k.j)) 1 1 0)
  | .STL_LANE_TXCTL => BitVec.ofNat 32 (putBits (putBits w 8 3 (stlTxState s k.i k.j)) 1 1 0)
  | .LANE_RXEQ =>
    if macEnabled s k.i then
      BitVec.ofNat 32 (putBits (if bit w 31 then putBits w 20 4 (lineValue 1101 (8 * k.i + k.j) s) else w) 0 8 (lineValue 1102 (8 * k.i + k.j) s))
    else BitVec.ofNat 32 w
  | .LANE_STAT =>
    if !macEnabled s k.i then BitVec.ofNat 32 w
    else match portOfRx s k.i k.j with
      | some p => BitVec.ofNat 32 (putBits w 30 2 (if (portRt s p).lockSince.isSome then 3 else lineValue 1103 (8 * k.i + k.j) s))
      | none => BitVec.ofNat 32 (putBits w 30 2 (lineValue 1103 (8 * k.i + k.j) s))
  | .STL_LANE_STAT =>
    if flag s F.STL_LANE_STAT_ADAPTED k.i k.j then BitVec.ofNat 32 (putBits w 8 8 (lineValue 1104 (8 * k.i + k.j) s)) else BitVec.ofNat 32 w
  | .MAC_TS_POP => half (tsPopHead s k.i)
  | .PKT_RING_CFG => BitVec.ofNat 32 (putBits (if k.i < 32 then w else putBits w 8 5 0) 30 1 0)
  | .PKT_RING_TIME => BitVec.ofNat 32 (if k.i < 32 then w else putBits w 16 16 0)
  | .CMD_RING_CFG => BitVec.ofNat 32 (putBits w 30 1 0)
  | .SWATCH_STAT => BitVec.ofNat 32 (match s.tele.writing with
    | some c => if c.doneAt ≤ s.clk.mono then putBits w 30 2 1 else w
    | none => w)
  | .STL_REFO_CTL => BitVec.ofNat 32 (putBits w 1 1 0)
  | .PORT_FLOW | .PORT_PFC_TIME | .PORT_PTP | .PORT_STAT => if startsPort s (8 * k.i + k.j) then BitVec.ofNat 32 w else 0
  | .TBL_STAT0 | .TBL_STAT1 | .TBL_STAT2 | .TBL_STAT3 => if tblKnown s k.i then BitVec.ofNat 32 w else 0
  | .TCAM_TBL_STAT0 | .TCAM_TBL_STAT1 => if (polDef s k.i).isSome then BitVec.ofNat 32 w else 0
  | _ => BitVec.ofNat 32 w

/-- Every word of the wide value at a register, low word first. -/
def wideLive (s : State) (k : RegKey) : List W32 := (List.range (wideWords k)).map fun j => liveWord s ⟨k.n, k.i, j⟩

/-! ### Conditions of an access (R257, R261, R262) -/

/-- An access from the host, which has configured the function by then: it acts while the interface's clock runs, from core release on. -/
def hif (t : Nat) (f : State → State) (s : State) : Res :=
  aon t (fun s => if s.flt.tripped || bootStage s == 0 then s else f (attach s)) s

/-- The offsets that are served in the safe state (R384). -/
def safeServed (off : Nat) : Bool := decide (off < 0x40) || (decide (0x100000 ≤ off) && decide (off < 0x300000))

/-- UNMAPPED (R261), with the offset modulo the window of the address field. -/
def unmapped (off : Nat) (s : State) : State := raise0 Ev.HIF_UNMAPPED (setF F.HIF_UNMAP_ADDR_ADDR 0 0 off s)

/-- XDOMAIN_FAIL (R262). -/
def xfail (off : Nat) (s : State) : State := raise0 Ev.HIF_XDOMAIN_FAIL (setF F.HIF_XFAIL_ADDR_ADDR 0 0 off s)

/-- An access to a cluster's register wakes its domain, and keeps it awake (R262). -/
def touchDomain (off : Nat) (s : State) : State :=
  let d := domainOf off
  if 2 ≤ d ∧ d ≤ 9 then
    let s1 := wakeCluster (d - 2) s
    { s1 with host := { s1.host with awake := tset s1.host.awake (d - 2) s1.clk.mono } }
  else s

/-- Clear the mark of an SC register that has been read by the physical function (R259). -/
def clearMark (k : RegKey) (s : State) : State := { s with rf := { s.rf with marks := s.rf.marks.filter (· ≠ ⟨k.n, k.i, 0⟩) } }

/-! ### Reads -/

/-- The shadow of the words of a wide value beyond the lowest (R263). -/
def fillShadow (off : Nat) (ws : List W32) (s : State) : State :=
  { s with rf := { s.rf with shadow := (List.range (ws.length - 1)).foldl (fun t j => tset t (off + 4 * (j + 1)) ((ws[j + 1]?).getD 0)) s.rf.shadow } }

/-- One word read by the physical function (R259, R261 to R264). -/
def readWord (off : Nat) (s : State) : W32 × State :=
  let mbx := flag s F.HIF_CFG_WIDE_MODE 0 0
  let shadow := tgetD s.rf.shadow off 0
  if isSafe s && !safeServed off then (0xFFFFFFFF, s)
  else match locate off with
    | none =>
      if inCounters off then
        let x := off - 0x2410000
        if mbx then (BitVec.ofNat 32 (counterHalf s x), s)
        else if x % 8 = 0 then (BitVec.ofNat 32 (counterHalf s x), fillShadow off [0, BitVec.ofNat 32 (counterHalf s (x + 4))] s)
        else (shadow, s)
      else (0, unmapped off s)
    | some k =>
      if domainOff s (domainOf off) then (0xFFFFFFFF, xfail off s)
      else
        let s1 := drawn (touchDomain off (clearMark k s))
        if wideWords k = 0 then (liveWord s k, s1)
        else if k.n = .MAC_TS_POP ∧ mbx then (0, s1)
        else if mbx then (liveWord s k, s1)
        else if k.j = 0 then
          let s2 := fillShadow off (wideLive s k) s1
          (liveWord s k, if k.n = .MAC_TS_POP then tsPopDrop k.i s2 else s2)
        else (shadow, s1)

/-- A whole wide value read in one aligned request: every word from one clock (R263, R264). -/
def readWide (off : Nat) (k : RegKey) (s : State) : List W32 × State :=
  let first := readWord off s
  if isSafe s && !safeServed off then ((List.range (wideWords k)).map fun _ => 0xFFFFFFFF, s)
  else if domainOff s (domainOf off) then ((List.range (wideWords k)).map fun _ => 0xFFFFFFFF, first.2)
  else if k.n = .MAC_TS_POP ∧ flag s F.HIF_CFG_WIDE_MODE 0 0 then ([0, 0, 0, 0], first.2)
  else (wideLive s k, first.2)

/-- Words read one after another. -/
def readEach : Nat → Nat → State → List W32 × State
  | 0, _, s => ([], s)
  | n + 1, off, s =>
    let a := readWord off s
    let b := readEach n (off + 4) a.2
    (a.1 :: b.1, b.2)

/-- A read of a number of words (R257): whole wide values of the request's own size and alignment together, counters likewise, everything else word by word. -/
def readWords (off words : Nat) (s : State) : List W32 × State :=
  if inCounters off && words == 2 && off % 8 == 0 && !isSafe s then
    ([BitVec.ofNat 32 (counterHalf s (off - 0x2410000)), BitVec.ofNat 32 (counterHalf s (off - 0x2410000 + 4))], (readWord off s).2)
  else match locate off with
    | some k => if k.j = 0 ∧ wideWords k = words ∧ words ≠ 0 ∧ off % (4 * words) = 0 then readWide off k s else readEach words off s
    | none => readEach words off s

/-- The bytes of read words. -/
def wordBytes (l : List W32) : List Byte := l.flatMap fun w => leBytes 4 w.toNat

/-- What a read answers the host, recorded. -/
def answerRead (r : List W32 × State) : State := emit (.readData 0 (wordBytes r.1)) r.2

/-- The bytes of a read of any size (R257): whole words as one request, other bytes as the words that hold them. -/
def readBytes (off size : Nat) (s : State) : List Byte × State :=
  let r := if off % 4 = 0 ∧ size % 4 = 0 then readWords off (size / 4) s else readEach ((off % 4 + size + 3) / 4) (off / 4 * 4) s
  (slice (wordBytes r.1) (off % 4) size, r.2)

/-- REGISTER_READ (R257 to R263): the PF reads `size` bytes at an offset. -/
def execRegisterRead (t offset size : Nat) (s : State) : Res :=
  hif t (fun s => let r := readBytes offset size s; emit (.readData 0 r.1) r.2) s

/-- TS_POP_READ (R56, R262, R264): one read of the whole MAC_TS_POP of a macro. -/
def execTsPopRead (t mac : Nat) (s : State) : Res :=
  need (decide (mac < 96)) "macro" mac <| hif t (fun s =>
    answerRead (readWords (0x1800020 + 0x100000 * (mac / 12) + 0x10000 * (mac % 12)) 4 s)) s

/-! ### The functions and their BARs (R254), and the VFs' reads (R243) -/

/-- A function of the device and one of its BARs, each 64-bit and non-prefetchable: device ID, BAR and size in bytes (Table 11.2). -/
structure PcieBar where
  device : Nat
  bar : Nat
  size : Nat
deriving DecidableEq, Repr

/-- Class code of every function (R254). -/
def classCode : Nat := 0x028000

/-- BAR0 of the PF: the registers. -/
def pfBar0 : PcieBar := { device := 0x1536, bar := 0, size := 64 * 2 ^ 20 }

/-- BAR2 of the PF: the ring pages. -/
def pfBar2 : PcieBar := { device := 0x1536, bar := 2, size := 2 ^ 20 }

/-- BAR0 of each of the 64 VFs: its counter aperture. -/
def vfBar0 : PcieBar := { device := 0x1537, bar := 0, size := 4 * 2 ^ 20 }

/-- Whether an offset of a VF's aperture lies in a page of the counter space that an enabled entry covers. -/
def vfSees (s : State) (vf x : Nat) : Bool := vfCovers s vf (x / 4096) && inCounters (0x2410000 + x)

/-- Words of an aperture read one after another: a page that no entry covers reads zero (R243). -/
def vfEach (vf : Nat) : Nat → Nat → State → List W32 × State
  | 0, _, s => ([], s)
  | n + 1, x, s =>
    let a := if isSafe s then (0xFFFFFFFF, s) else if vfSees s vf x then readWord (0x2410000 + x) s else (0, s)
    let b := vfEach vf n (x + 4) a.2
    (a.1 :: b.1, b.2)

/-- The bytes of a VF's read: a counter in one aligned request from one clock, else word by word, with the shadow of the value (R243, R257, R263, R264; log 83). -/
def vfBytes (vf x size : Nat) (s : State) : List Byte × State :=
  if size = 8 ∧ x % 8 = 0 ∧ vfSees s vf x = true then readBytes (0x2410000 + x) 8 s
  else
    let r := vfEach vf ((x % 4 + size + 3) / 4) (x / 4 * 4) s
    (slice (wordBytes r.1) (x % 4) size, r.2)

/-- VF_COUNTER_READ (R243): a VF reads bytes of its aperture; a read that touches a page that no enabled entry covers counts once and raises VF_DENIED. -/
def execVfCounterRead (t vf : Nat) (span : ByteSpan) (s : State) : Res :=
  let offset := span.offset
  let size := span.size
  need (decide (vf < 64)) "VF" vf <| need (decide (offset + size ≤ vfBar0.size)) "aperture offset" offset <| hif t (fun s =>
    let r := vfBytes vf offset size s
    let s1 := if isSafe s || (List.range size).all (fun k => vfSees s vf (offset + k)) then r.2
      else raise Ev.CNT_VF_DENIED vf vf (bump .VF_DENIED_CNT 0 0 1 r.2)
    emit (.readData (2 + vf) r.1) s1) s

/-- WIDE_SHADOW_READ (R263): a read of the lowest word of a wide value with WIDE_MODE = 0. -/
def execWideShadowRead (t offset : Nat) (s : State) : Res :=
  hif t (fun s =>
    let wideBase := match locate offset with
      | some k => k.j == 0 && wideWords k != 0
      | none => inCounters offset && offset % 8 == 0
    if wideBase && !flag s F.HIF_CFG_WIDE_MODE 0 0 then answerRead (readWords (offset / 4 * 4) 1 s) else s) s

/-! ### Writes -/

/-- Write the KEEP bits of a word (R260): a change is stored, and recorded as TEST_TOUCH. -/
def writeKeep (off : Nat) (k : RegKey) (v : Nat) (s : State) : State :=
  let old := reg s k.n k.i k.j
  let m : W32 := wordOf k.n (regRow k.n).keep k.j
  let changed := (old ^^^ BitVec.ofNat 32 v) &&& m
  if changed = 0 then s
  else
    let s1 := setReg k.n k.i k.j (old ^^^ changed) s
    let s2 := { s1 with rf := { s1.rf with touched := tset s1.rf.touched k (tgetD s1.rf.touched k 0 ||| changed) } }
    raise0 Ev.HIF_TEST_TOUCH (bump .HIF_TOUCH_CNT 0 0 1 (setF F.HIF_TOUCH_ADDR_ADDR 0 0 off s2))

/-- Write the RW bits of a word as they are. -/
def writeRw (k : RegKey) (v : Nat) (s : State) : State :=
  let m : W32 := wordOf k.n (regRow k.n).rw k.j
  setReg k.n k.i k.j ((reg s k.n k.i k.j &&& ~~~m) ||| (BitVec.ofNat 32 v &&& m)) s

/-- Write one field from its place in a word, where the value is permitted; otherwise the field is unchanged. -/
def writeField (f : Fld) (i j v : Nat) (okv : Nat → Bool) (s : State) : State :=
  if okv (bits v f.lo f.w) then setF f i j (bits v f.lo f.w) s else s

/-- A range of values. -/
def inRange (lo hi n : Nat) : Bool := decide (lo ≤ n) && decide (n ≤ hi)

/-- A write back to an SC register (R259): it clears every event bit, leaving SEQ, only when the SEQ written is the present one and the mark is clear.  REF_LOST of STL_REF stands under the SEQ of STL_REF_EVT (Table 14.8). -/
def clearEvents (k : RegKey) (v : Nat) (s : State) : State :=
  if bits v 24 8 = getF s ⟨k.n, 24, 8⟩ k.i 0 ∧ ¬ (⟨k.n, k.i, 0⟩ ∈ s.rf.marks) then
    let m : W32 := BitVec.ofNat 32 ((regRow k.n).sc % 2 ^ 24)
    let s1 := setReg k.n k.i 0 (reg s k.n k.i 0 &&& ~~~m) s
    if k.n = .STL_REF_EVT then setF F.STL_REF_REF_LOST 0 0 0 s1 else s1
  else s

/-- HIF_CFG written: every write erases the shadows (R263). -/
def writeHifCfg (k : RegKey) (v : Nat) (s : State) : State :=
  let s1 := writeRw k v s
  { s1 with rf := { s1.rf with shadow := [] } }

/-- WIDE_MBX_ADDR written (R264): ignored with OVERRUN while a read is in progress; with WIDE_MODE = 1 it starts a read. -/
def writeMbxAddr (k : RegKey) (v : Nat) (s : State) : State :=
  if flag s F.WIDE_MBX_STAT_BUSY 0 0 then setF F.WIDE_MBX_STAT_OVERRUN 0 0 1 s
  else
    let s1 := writeRw k v s
    if flag s F.HIF_CFG_WIDE_MODE 0 0 then
      setF F.WIDE_MBX_STAT_BUSY 0 0 1 (setF F.WIDE_MBX_STAT_VALID 0 0 0 (setF F.WIDE_MBX_STAT_ERR 0 0 0 (setF F.WIDE_MBX_STAT_OVERRUN 0 0 0 s1)))
    else s1

/-- An MSI-X table word written: a vector that is unmasked with its pending bit set sends its message (R266). -/
def writeMsix (k : RegKey) (v : Nat) (s : State) : State :=
  let s1 := writeRw k v s
  if k.j = 3 ∧ !bit v 0 ∧ mapBit s1 .MSIX_PBA k.i ∧ s1.host.msix then emit (.msix k.i) (setMapBit .MSIX_PBA k.i false s1) else s1

/-- SWATCH_CFG written: PERIOD_MS to 60,000, SECTION_MASK with bit 0 at 1 (R245, Table 10.12). -/
def writeSwatchCfg (v : Nat) (s : State) : State :=
  let s1 := writeField F.SWATCH_CFG_PERIOD_MS 0 0 v (inRange 0 60000) s
  let s2 := setF F.SWATCH_CFG_SECTION_MASK 0 0 (putBit (bits v 0 7) 0 true) s1
  if getF s F.SWATCH_CFG_PERIOD_MS 0 0 = getF s2 F.SWATCH_CFG_PERIOD_MS 0 0 then s2
  else { s2 with tele := { s2.tele with swatchNext := swatchAfter s2 s2.clk.tod } }

/-- TEL_CFG written (R223, R231). -/
def writeTelCfg (v : Nat) (s : State) : State :=
  writeField F.TEL_CFG_EXP_PERIOD_US 0 0 v (inRange 1 1000) (writeField F.TEL_CFG_TEMPLATE_S 0 0 v (inRange 1 3600)
    (writeField F.TEL_CFG_UTC_OFFSET 0 0 v (fun _ => true) s))

/-- Low bits of a 64-bit register that must be zero. -/
def lowZero : RegName → Nat
  | .PKT_RING_BASE => 12 | .SQ_BASE => 12 | .CQ_BASE => 12 | .SWATCH_BUF_A => 12 | .SWATCH_BUF_B => 12 | .SMP_RING_BASE => 8
  | .PKT_WB_ADDR => 2 | .CMD_WB_ADDR => 2 | .SMP_WB_ADDR => 2
  | _ => 0

/-- Whether a ring's EN forbids a write of its addresses (R239, R267, R287). -/
def baseLocked (s : State) (k : RegKey) : Bool :=
  match k.n with
  | .PKT_RING_BASE => flag s F.PKT_RING_CFG_EN k.i 0
  | .PKT_WB_ADDR => flag s F.PKT_RING_CFG_EN k.i 0
  | .SQ_BASE => flag s F.CMD_RING_CFG_EN k.i 0
  | .CQ_BASE => flag s F.CMD_RING_CFG_EN k.i 0
  | .CMD_WB_ADDR => flag s F.CMD_RING_CFG_EN k.i 0
  | .SMP_RING_BASE => flag s F.SMP_RING_CFG_EN k.i 0
  | .SMP_WB_ADDR => flag s F.SMP_RING_CFG_EN k.i 0
  | _ => false

/-- A 64-bit RW field takes a value (R265): TOD_SET steps TOD (R403); an address with low bits that must be zero, or under an enabled ring, stays. -/
def write64 (k : RegKey) (v : Nat) (s : State) : State :=
  if k.n = .TOD_SET then setF F.TOD_CTL_VALID 0 0 1 (setWide .TOD_SET 0 v 2 (stepTod v s))
  else if v % 2 ^ lowZero k.n ≠ 0 ∨ baseLocked s k then s
  else setWide k.n k.i v 2 s

/-- A word of a 64-bit RW field is written (R265): the low word is held, the high word applies both, or with the low word in force where none is held. -/
def writeHalf (off : Nat) (k : RegKey) (v : Nat) (s : State) : State :=
  if k.j = 0 then { s with rf := { s.rf with held := tset s.rf.held off (BitVec.ofNat 32 v) } }
  else
    let low := tgetD s.rf.held (off - 4) (reg s k.n k.i 0)
    write64 k (low.toNat + v % 2 ^ 32 * 2 ^ 32) { s with rf := { s.rf with held := terase s.rf.held (off - 4) } }

/-- A write of LANE_RXEQ (R40, Table 2.9): ADAPT_EN = 0 holds the boost adapted by then, a free value (place 1101). -/
def writeRxeq (k : RegKey) (v : Nat) (s : State) : State :=
  let s1 := if macEnabled s k.i && flag s F.LANE_RXEQ_ADAPT_EN k.i k.j && !bit v 31 then
      drawn (setF F.LANE_RXEQ_CTLE_BOOST k.i k.j (lineValue 1101 (8 * k.i + k.j) s) s)
    else s
  setF F.LANE_RXEQ_ADAPT_EN k.i k.j (bits v 31 1) s1

/-- Whether a register is one of a port, at a lane that starts no port: it reads as zero and ignores writes (R37). -/
def noPort (s : State) (k : RegKey) : Bool :=
  [RegName.PORT_FLOW, .PORT_PFC_TIME, .PORT_PTP, .PORT_STAT].contains k.n && !startsPort s (8 * k.i + k.j)

/-- The effect of a write on the fields of a register that are not KEEP. -/
def writeFields (off : Nat) (k : RegKey) (v : Nat) (s : State) : State :=
  match k.n with
  | .GLB_SRC_MAP0 => writeSrcMap 0 v s
  | .GLB_SRC_MAP1 => writeSrcMap 1 v s
  | .LANE_TXEQ => writeTxeq k.i k.j v s
  | .LANE_RXEQ => writeRxeq k v s
  | .STL_LANE_TXEQ => writeTxeq (96 + k.i) k.j v s
  | .LANE_TXCTL => let s1 := squelchDrv k.i k.j (bit v 0) s; if bit v 1 then rearmDrv k.i k.j s1 else s1
  | .STL_LANE_TXCTL => let s1 := squelchDrv (96 + k.i) k.j (bit v 0) s; if bit v 1 then rearmDrv (96 + k.i) k.j s1 else s1
  | .STL_REFO_CTL => let s1 := squelchDrv 100 0 (bit v 0) s; if bit v 1 then rearmDrv 100 0 s1 else s1
  | .PORT_FLOW => syncPort (8 * k.i + k.j) (writeField F.PORT_FLOW_FLOW_MODE k.i k.j v (inRange 0 2) (setF F.PORT_FLOW_PFC_TX_EN k.i k.j (bits v 16 8) (setF F.PORT_FLOW_PFC_RX_EN k.i k.j (bits v 8 8) s)))
  | .PARSE_CFG0 => writeParse 0 v s
  | .PARSE_CFG1 => writeParse 1 v s
  | .PARSE_CFG2 => writeParse 2 v s
  | .PARSE_ERR_ACT => writeParse 3 v s
  | .GLB_HASH_SEED => writeParse 4 v s
  | .EPOCH_CFG => writeHoldMax v s
  | .PAL_WD_CFG => writeField F.PAL_WD_CFG_RESTORE_MS 0 0 v (inRange 10 10000) (writeField F.PAL_WD_CFG_WD_MS 0 0 v (inRange 1 10000) s)
  | .PAL_CFG => pgReleaseAll (writeRw k v s)
  | .PAL_POOL_SIZE => writePool k.i 0 v s
  | .PAL_HP_SIZE => writePool 4 0 v s
  | .QUEUE_ADM0 => writeQueueAdm false k.i v s
  | .CPU_QUEUE_ADM => writeQueueAdm true k.i v s
  | .PG_CFG => pgRelease k.i k.j (writeField F.PG_CFG_IALPHA k.i k.j v (inRange 0 10) (setF F.PG_CFG_HR_LIMIT k.i k.j (bits v 19 13) (setF F.PG_CFG_XON_DELTA k.i k.j (bits v 11 4) (setF F.PG_CFG_PG_MIN k.i k.j (bits v 0 11) s))))
  | .TEL_CFG => writeTelCfg v s
  | .FLOW_CFG => writeField F.FLOW_CFG_IDLE_S 0 0 v (inRange 1 600) (writeField F.FLOW_CFG_ACTIVE_S 0 0 v (inRange 1 3600) s)
  | .PC_CFG => writeField F.PC_CFG_PC_RATE 0 0 v (inRange 1 1000000) (setReg .PC_CFG 0 0 (BitVec.ofNat 32 (putBits (reg s .PC_CFG 0 0).toNat 27 5 (bits v 27 5))) s)
  | .IOAM_CFG0 => writeField F.IOAM_CFG0_HOPS 0 0 v (inRange 1 8) (setF F.IOAM_CFG0_NODE_ID 0 0 (bits v 8 24) s)
  | .IOAM_CFG1 => writeField F.IOAM_CFG1_TRACE_TYPE 0 0 v (fun x => Nat.land x 0x05FFFF == 0) s
  | .SMP_RING_CFG => writeSampleCfg k.i v s
  | .TRACE_CFG => writeField F.TRACE_CFG_PROB_LOG2 k.i 0 v (inRange 0 24) (writeField F.TRACE_CFG_SOURCE k.i 0 v (fun x => decide (x ≤ 772) || x == 1023)
      (setF F.TRACE_CFG_EN k.i 0 (bits v 31 1) (setF F.TRACE_CFG_TAC_MATCH k.i 0 (bits v 30 1) (setF F.TRACE_CFG_TAC k.i 0 (bits v 0 14) s))))
  | .SWATCH_CFG => writeSwatchCfg v s
  | .PORT_RATE_CFG => writeWindow k.i (bits v 0 26) s
  | .SMP_CFG => writeField F.SMP_CFG_SAMPLE_N k.i 0 v (inRange 0 16777216) s
  | .HIF_CFG => writeHifCfg k v s
  | .WIDE_MBX_ADDR => writeMbxAddr k v s
  | .UART_CFG => writeField F.UART_CFG_DIV 0 0 v (inRange 333 1048575) (setF F.UART_CFG_EN 0 0 (bits v 31 1) s)
  | .CPU_QMAP => ringsChanged (writeRw k v s)
  | .MSIX_TABLE => writeMsix k v s
  | .PKT_RING_CFG => writePktRingCfg k.i v s
  | .PKT_RING_TIME => ringsChanged (writeRw k v s)
  | .RING_TAIL => writeTail k.i (v % 2 ^ 15) [] s
  | .CMD_RING_CFG => writeCmdRingCfg k.i v s
  | .CQ_HEAD => let s1 := writeRw k v s; cqDrain k.i (cmdRing s1 k.i).waiting.length s1
  | .STL_PORT_CTL => writeField F.STL_PORT_CTL_RESTORE_S k.i 0 v (inRange 1 255) (setF F.STL_PORT_CTL_RESTORE_EN k.i 0 (bits v 31 1) (setF F.STL_PORT_CTL_LL_CLASS k.i 0 (bits v 16 8) s))
  | .TWIN_DH => writeDh k.i v s
  | .FLT_CFG => writeField F.FLT_CFG_HIST_MIN_CLASS 0 0 v (inRange 0 4) (setF F.FLT_CFG_VECTOR 0 0 (bits v 0 8) s)
  | .VARNISH_CFG => writeField F.VARNISH_CFG_CLASS_MIN 0 0 v (inRange 0 4) (setF F.VARNISH_CFG_PIN_EN 0 0 (bits v 31 1) s)
  | n =>
    if (regRow n).sc / 2 ^ 24 % 256 = 255 then clearEvents k v s
    else if (regRow n).words = 2 ∧ (regRow n).rw ≠ 0 then writeHalf off k v s
    else writeRw k v s

/-- A whole word is written at an offset (R257 to R262): its fields, then its KEEP bits, since an event of the same clock applies after a clear (R259). -/
def writeWord (off v : Nat) (s : State) : State :=
  if isSafe s then s
  else match locate off with
    | none => if inCounters off then s else unmapped off s
    | some k =>
      if domainOff s (domainOf off) then xfail off s
      else if noPort s k then touchDomain off s
      else writeKeep off k v (writeFields off k v (touchDomain off s))

/-- REGISTER_WRITE (R12, R257): a write that enables fewer than four bytes is discarded, with PARTIAL_WR. -/
def execRegisterWrite (t offset bytes : Nat) (value : W32) (s : State) : Res :=
  hif t (fun s =>
    if bytes ≠ 4 then (if isSafe s then s else raise0 Ev.HIF_PARTIAL_WR s)
    else writeWord (offset / 4 * 4) value.toNat s) s

/-- UNMAPPED_ACCESS (R261): a read or write of an offset that no register map assigns. -/
def execUnmappedAccess (t offset : Nat) (write : Bool) (s : State) : Res :=
  hif t (fun s =>
    if (locate offset).isSome || inCounters offset then s
    else if write then writeWord (offset / 4 * 4) 0 s else answerRead (readWords (offset / 4 * 4) 1 s)) s

/-- EVENT_REG_CLEAR (R259): a write back of an SC register. -/
def execEventRegClear (t offset : Nat) (value : W32) (s : State) : Res :=
  hif t (fun s => match locate offset with
    | some k => if (regRow k.n).sc / 2 ^ 24 % 256 = 255 then writeWord (offset / 4 * 4) value.toNat s else s
    | none => s) s

/-- WIDE_FIELD_WRITE (R265): the high word of a 64-bit RW field is written. -/
def execWideFieldWrite (t offset : Nat) (value : W32) (s : State) : Res :=
  hif t (fun s => match locate offset with
    | some k => if k.j = 1 ∧ (regRow k.n).words = 2 ∧ (regRow k.n).rw ≠ 0 then writeWord (offset / 4 * 4) value.toNat s else s
    | none => s) s

/-- WIDE_MBX_ADDR_WRITE (R264). -/
def execWideMbxAddrWrite (t : Nat) (value : W32) (s : State) : Res := hif t (writeWord 0x40 value.toNat) s

/-- The value that a mailbox read finds at ADDR: its words and the state after a complete read; nothing where ADDR is no base of a wide value. -/
def mbxValue (off : Nat) (s : State) : Option (List W32 × State) :=
  match locate off with
  | some k =>
    if k.j ≠ 0 ∨ wideWords k = 0 ∨ off % 4 ≠ 0 then none
    else if domainOff s (domainOf off) then some ((List.range (wideWords k)).map fun _ => 0xFFFFFFFF, xfail off s)
    else some (wideLive s k, if k.n = .MAC_TS_POP then tsPopDrop k.i (touchDomain off s) else touchDomain off s)
  | none =>
    if inCounters off && off % 8 == 0 && counterAssigned (off - 0x2410000) then
      some ([BitVec.ofNat 32 (counterHalf s (off - 0x2410000)), BitVec.ofNat 32 (counterHalf s (off - 0x2410000 + 4))], s)
    else none

/-- The end of a mailbox read (R264). -/
def mbxDone (s : State) : State :=
  let s0 := setF F.WIDE_MBX_STAT_BUSY 0 0 0 s
  let put (ws : List W32) (z : State) : State := (List.range ws.length).foldl (fun y i => setReg .WIDE_MBX_DATA i 0 ((ws[i]?).getD 0) y) z
  match mbxValue (getF s F.WIDE_MBX_ADDR_ADDR 0 0) s0 with
  | none => setF F.WIDE_MBX_STAT_ERR 0 0 1 (setF F.WIDE_MBX_STAT_VALID 0 0 0 (setF F.WIDE_MBX_STAT_WORDS 0 0 0 (put [0, 0, 0, 0] s0)))
  | some (ws, s1) => setF F.WIDE_MBX_STAT_VALID 0 0 1 (setF F.WIDE_MBX_STAT_WORDS 0 0 (ws.length - 1) (put ws s1))

/-- WIDE_MBX_DONE (R264). -/
def execWideMbxDone (t : Nat) (s : State) : Res :=
  live t (fun s => if flag s F.WIDE_MBX_STAT_BUSY 0 0 then mbxDone s else s) s

/-- RING_ENABLE (R267): a write of a packet ring's RING_CFG. -/
def execRingEnable (t ring : Nat) (value : W32) (s : State) : Res :=
  need (decide (ring < 64)) "packet ring" ring <| hif t (writeWord (0x10010010 + 0x1000 * ring) value.toNat) s

/-- CMD_RING_ENABLE (R287): a write of a command ring's RING_CFG. -/
def execCmdRingEnable (t ring : Nat) (value : W32) (s : State) : Res :=
  need (decide (ring < 16)) "command ring" ring <| hif t (writeWord (0x10000018 + 0x1000 * ring) value.toNat) s

/-- EXP_PERIOD_WRITE (R223, R231): a write of TEL_CFG; EXP_PERIOD_US takes effect at the deadline of the batch in transmission. -/
def execExpPeriodWrite (t : Nat) (value : W32) (s : State) : Res := hif t (writeWord 0x2400000 value.toNat) s

/-- SRC_MAP_WRITE (R16, R17): a write of GLB_SRC_MAP0 or GLB_SRC_MAP1. -/
def execSrcMapWrite (t index : Nat) (value : W32) (s : State) : Res :=
  need (decide (index < 2)) "source map word" index <| hif t (writeWord (0x200 + 4 * index) value.toNat) s

/-- WINDOW_US_WRITE (R234): a write of PORT_RATE_CFG. -/
def execWindowUsWrite (t src : Nat) (value : W32) (s : State) : Res :=
  need (decide (src < 773)) "source" src <| hif t (writeWord (0x2403000 + 4 * src) value.toNat) s

/-- SAMPLE_RING_ENABLE (R239): a write of a sample ring's RING_CFG. -/
def execSampleRingEnable (t ring : Nat) (value : W32) (s : State) : Res :=
  need (decide (ring < 8)) "sample ring" ring <| hif t (writeWord (0x2402010 + 0x40 * ring) value.toNat) s

/-- SAMPLE_CONS_WRITE (R239): a write of a sample ring's CONS. -/
def execSampleConsWrite (t ring cons : Nat) (s : State) : Res :=
  need (decide (ring < 8)) "sample ring" ring <| hif t (writeWord (0x2402018 + 0x40 * ring) cons) s

/-! ### The BMC bus (R272, Table 11.8) and the console (R274) -/

/-- An answer of the BMC target, which is in the AON domain. -/
def bmcAnswer (t code : Nat) (f : State → List Byte) (s : State) : Res := aon t (fun s => emit (.bmc code (f s)) s) s

/-- BMC_ID_READ: code 0x00, HIF_ID0, HIF_ID1 and HIF_SERIAL. -/
def execBmcIdRead (t : Nat) (s : State) : Res :=
  bmcAnswer t 0x00 (fun s => wordBytes [liveWord s ⟨.HIF_ID0, 0, 0⟩, liveWord s ⟨.HIF_ID1, 0, 0⟩, liveWord s ⟨.HIF_SERIAL, 0, 0⟩, liveWord s ⟨.HIF_SERIAL, 0, 1⟩]) s

/-- BMC_STATUS_READ: code 0x01, the safe state and boot progress. -/
def execBmcStatusRead (t : Nat) (s : State) : Res :=
  bmcAnswer t 0x01 (fun s => leBytes 1 (128 * b2n (isSafe s) + getF s F.RST_STAT_PROGRESS 0 0)) s

/-- BMC_TEMP_READ: code 0x10, the hottest sensor. -/
def execBmcTempRead (t : Nat) (s : State) : Res := bmcAnswer t 0x10 (fun s => leBytes 2 (getF s F.PWR_STAT2_HOT_T 0 0)) s

/-- BMC_POWER_READ: code 0x11, the present power estimate. -/
def execBmcPowerRead (t : Nat) (s : State) : Res := bmcAnswer t 0x11 (fun s => leBytes 2 (getF s F.PWR_STAT0_PWR_EST_W 0 0)) s

/-- BMC_FAULT_SUMMARY: code 0x20 (R384, Table 17.8). -/
def execBmcFaultSummary (t : Nat) (s : State) : Res :=
  bmcAnswer t 0x20 (fun s =>
    leBytes 1 (b2n (isSafe s) + 2 * getF s F.PWR_STAT2_TRIP_SEEN 0 0) ++ leBytes 1 (getF s F.FLT_STAT_SAFE_CAUSE 0 0)
      ++ leBytes 2 (getF s F.FLT_SAFE_EVENT_EVENT_ID 0 0) ++ wordBytes [reg s .CLASS_CNT 1 0, reg s .CLASS_CNT 2 0, reg s .CLASS_CNT 3 0, reg s .CLASS_CNT 4 0]
      ++ wordBytes [reg s .HIST_TOTAL 0 0] ++ leBytes 8 (wide s .FLT_SAFE_TOD 0 2)) s

/-- BMC_ADDR_WRITE: code 0x30, the offset for code 0x31; in the safe state the code is not served (R384). -/
def execBmcAddrWrite (t addr : Nat) (s : State) : Res :=
  aon t (fun s => if isSafe s then emit (.bmcNack 0x30) s else { s with host := { s.host with bmc := { s.host.bmc with addr := addr % 2 ^ 32 } } }) s

/-- The value that code 0x31 returns for an offset (R272): status 0 and the word in the ranges named, otherwise NOT_PERMITTED and zero; the counter space is not served in the safe state (R384). -/
def bmcRegValue (s : State) (off : Nat) : Nat × Nat :=
  if safeServed off then (0, match locate off with
    | some k => (liveWord s k).toNat
    | none => 0)
  else if inCounters off && !isSafe s then (0, counterHalf s (off - 0x2410000))
  else (0x15, 0)

/-- BMC_REG_READ: code 0x31; it leaves marks, shadows and queues alone (R259, R272). -/
def execBmcRegRead (t : Nat) (s : State) : Res :=
  bmcAnswer t 0x31 (fun s => leBytes 2 (bmcRegValue s s.host.bmc.addr).1 ++ leBytes 4 (bmcRegValue s s.host.bmc.addr).2) s

/-- ENTDAA (R272): the I3C target takes a dynamic address. -/
def execEntdaa (t addr : Nat) (s : State) : Res :=
  aon t (fun s => { s with host := { s.host with bmc := { s.host.bmc with i3c := some (addr % 128) } } }) s

/-- A console byte is discarded (R274). -/
def uartDrop (s : State) : State := raise0 Ev.HIF_UART_ERR (bump .UART_ERR_CNT 0 0 1 s)

/-- UART_RX_BYTE (R274): a byte is received into the 64-byte FIFO, or discarded on a framing error or a full FIFO, while the console is enabled. -/
def execUartRxByte (t : Nat) (byte : Byte) (framing : Bool) (s : State) : Res :=
  live t (fun s =>
    if !flag s F.UART_CFG_EN 0 0 then s
    else if framing || decide (64 ≤ s.host.uart.length) then uartDrop s
    else { s with host := { s.host with uart := s.host.uart ++ [byte] } }) s

end Sys2Proof.Machine
end

