-- ==== Sys2Proof/Machine/Jtag.lean ====
section
/-! DEFINITION. The IEEE 1149.1 TAP (R389, Table 17.9), which TCK clocks in every condition of the device. -/

namespace Sys2Proof.Machine

/-- A shift of `shift` bits through a data register of `len` bits that captured `dr`: what comes out, and what the register then holds. -/
def shiftDr (len dr shift tdi : Nat) : Nat × Nat :=
  let line := dr % 2 ^ len + tdi % 2 ^ shift * 2 ^ len
  (line % 2 ^ shift, line / 2 ^ shift % 2 ^ len)

/-- One instruction with its data-register shift: the instruction register holds its code, and the bits leave on TDO.  Without AON power the TAP does nothing. -/
def tap (t code len : Nat) (dr : State → Nat) (shift tdi : Nat) (update : Nat → State → State) (s : State) : Res :=
  always (fun s =>
    if s.boot.off then s
    else
      let z := if s.flt.frozen then s else tick t s
      let r := shiftDr len (dr z) shift tdi
      let z1 := emit (.jtag shift r.1) { z with boot := { z.boot with ir := code } }
      update r.2 z1) s

/-- No update of the state. -/
def keepState (_ : Nat) (s : State) : State := s

/-- IDCODE (0x01): STEP_MAJOR, part 0x1536, the manufacturer from fuses, 1. -/
def execIdcode (t shift tdi : Nat) (s : State) : Res :=
  tap t 0x01 32 (fun _ => bits (Config.fuseWord 1) 8 4 * 2 ^ 28 + 0x1536 * 2 ^ 12 + Config.fuseWord 2 % 2048 * 2 + 1) shift tdi keepState s

/-- VSTATUS (0x10): whether the device is frozen, the trigger, the event and the low word of TOD at the trigger. -/
def vstatus (s : State) : Nat :=
  b2n s.flt.frozen * 2 ^ 63 + s.flt.trigger % 4 * 2 ^ 61 + s.flt.trigEvent % 2 ^ 16 * 2 ^ 32 + s.flt.trigTod % 2 ^ 32

/-- VSTATUS. -/
def execVstatus (t shift tdi : Nat) (s : State) : Res := tap t 0x10 64 vstatus shift tdi keepState s

/-- The offset of a register word. -/
def offsetsOf (n : RegName) : List (Nat × RegKey) :=
  let r := regRow n
  let units := r.steps.foldl (fun l st => l.flatMap fun u => (List.range st.2.1).map fun k => (u.1 + k * st.1, u.2.1 + k * st.2.2.1, u.2.2 + k * st.2.2.2)) [(r.base, 0, 0)]
  units.flatMap fun u => (List.range r.words).map fun j => (u.1 + 4 * j, ⟨n, u.2.1, u.2.2 + j⟩)

/-- The register words of a domain in ascending BAR0 offset (R389). -/
def domainWords (d : Nat) : List RegKey :=
  (sortBy (·.1) ((regNames.flatMap offsetsOf).filter fun x => decide (x.1 < 0x4000000) && domainOf x.1 == d)).map (·.2)

/-- A scan chain (R389): a header with the chain's length and LAYOUT_ID, the domain's registers, then its internal state.  Length, LAYOUT_ID and internal state are not given: free values (places 1701 and 1702; log 36). -/
def scanChain (s : State) (d words : Nat) : List Nat :=
  let regs := ((domainWords d).take (words - 1)).map fun k => (liveWord s k).toNat
  let rest := (List.range (words - 1 - regs.length)).map fun k => Config.freeValue 1702 ((s.free * 32 + d) * 2 ^ 24 + k) % 2 ^ 32
  Config.freeValue 1701 d % 2 ^ 32 :: (regs ++ rest)

/-- Words, low first, as one number. -/
def wordsNum : List Nat → Nat
  | [] => 0
  | w :: l => w % 2 ^ 32 + wordsNum l * 2 ^ 32

/-- SCAN_DOMAIN (0x21 to 0x39): the chain of domain `dom`, least significant bit first. -/
def execScanDomain (t dom shift tdi : Nat) (s : State) : Res :=
  need (decide (1 ≤ dom) && decide (dom ≤ 25)) "clock domain" dom <|
    tap t (0x20 + dom) (32 * (cdiv shift 32 + 1)) (fun z => wordsNum (scanChain z dom (cdiv shift 32 + 1))) shift tdi (fun _ => drawn) s

/-- MEM_SEL (0x40): names a memory code and a start word. -/
def execMemSel (t shift tdi : Nat) (s : State) : Res :=
  tap t 0x40 32 (fun z => z.boot.memCode * 2 ^ 24 + z.boot.memWord) shift tdi
    (fun v z => { z with boot := { z.boot with memCode := bits v 24 8, memWord := v % 2 ^ 24 } }) s

/-- Fields of a descriptor packed from the highest down: each a width and a value. -/
def packFields (l : List (Nat × Nat)) : Nat := l.foldl (fun v f => v * 2 ^ f.1 + f.2 % 2 ^ f.1) 0

/-- A packet descriptor (Table 7.2).  The four containers stand in their order, the first highest; HEAD_CELL of a packet without a written cell is a free value (place 1704; log 80). -/
def packetDesc (s : State) (p : Pkt) : Nat :=
  let head := match p.cells.head? with
    | some c => c.1 * 2 ^ 14 + c.2
    | none => Config.freeValue 1704 (s.free * 2 ^ 21 + p.desc)
  packFields ((List.range 4).map (fun i => (32, (p.dec.bridged[i]?).getD 0)) ++
    [(64, p.ts), (64, p.dec.valid), (21, head), (6, p.charged + 63), (14, p.len), (10, p.hdr.bytes), (5, p.hdr.sketchN), (8, p.hdr.err), (1, b2n p.hdr.limit),
     (1, b2n (p.hdr.err ≠ 0)), (1, b2n p.hdr.ctrl), (4, p.epoch), (2, p.admClass), (10, p.src), (14, p.dec.tac), (16, if p.dec.destKind = 2 then p.dec.mcast else 0), (12, p.refcnt),
     (1, b2n p.sample), (1, b2n p.trace.isSome), (4, p.trace.getD 0), (1, b2n p.writing), (1, b2n p.tailBad), (5, p.pipe), (3, p.iclass), (1, b2n p.hrCharged), (12, p.openCopies), (102, 0)])

/-- A queue descriptor (Table 7.3). -/
def queueDesc (s : State) (c : Copy) : Nat :=
  let ix := match pktOf s c.pkt with
    | some p => p.desc
    | none => 0
  packFields [(21, ix), (16, c.node.ix), (21, c.qdepth), (1, b2n c.ecn), (1, b2n c.ct), (1, b2n c.lossless), (1, b2n (c.node.kind = 3)), (2, 0)]

/-- A 64-bit queue descriptor by its index, where a copy holds it. -/
def queueDescAt (s : State) (ix : Nat) : Option Nat := (s.pal.copies.find? (fun c => c.qdesc == some ix)).map (queueDesc s)

/-- A 128-bit word of the memory of packet and queue descriptors (code 0x06 of Table 17.3): the packet descriptors by index, four words each, low word first, then the queue descriptors, two a word (log 80).  A descriptor that nothing holds, and what stands behind, is not given. -/
def descWord (s : State) (w free : Nat) : Nat :=
  if w < 5242880 then
    match s.pal.pkts.find? (fun p => p.desc == w / 4) with
    | some p => packetDesc s p / 2 ^ (128 * (w % 4)) % 2 ^ 128
    | none => free
  else if w < 6553600 then
    let ix := 2 * (w - 5242880)
    (queueDescAt s ix).getD (free % 2 ^ 64) + (queueDescAt s (ix + 1)).getD (free / 2 ^ 64) * 2 ^ 64
  else free

/-- A 128-bit word of a memory as MEM_DATA returns it.  How the other memories' words hold the device's state is not given: free values (place 1703; log 36). -/
def memWordOf (s : State) : Nat :=
  let free := Config.freeValue 1703 ((s.free * 256 + s.boot.memCode) * 2 ^ 24 + s.boot.memWord) % 2 ^ 128
  if s.boot.memCode = 6 then descWord s s.boot.memWord free else free

/-- MEM_DATA (0x41): the next 128-bit word of the memory named, and the address advances. -/
def execMemData (t shift tdi : Nat) (s : State) : Res :=
  tap t 0x41 128 memWordOf shift tdi
    (fun _ z => drawn { z with boot := { z.boot with memWord := (z.boot.memWord + 1) % 2 ^ 24 } }) s

/-- BYPASS (0xFF, and every reserved code): one bit that captures 0. -/
def execBypass (t shift tdi : Nat) (s : State) : Res := tap t 0xFF 1 (fun _ => 0) shift tdi keepState s

end Sys2Proof.Machine
end

