-- ==== Sys2Proof/Machine/Dispatch.lean ====
section
/-! DEFINITION. The dispatch of a command to its meaning: one arm per constructor. -/

namespace Sys2Proof.Machine

def exec (i : Instr) (s : State) : Host.Outcome State Fault Refusal :=
  match i with
  | .sysInfo h => Sys2Proof.Machine.execSysInfo h s
  | .sysNop h => Sys2Proof.Machine.execSysNop h s
  | .sysProgress h tag master => Sys2Proof.Machine.execSysProgress h tag master s
  | .objLock h cls lease => Sys2Proof.Machine.execObjLock h cls lease s
  | .objUnlock h cls => Sys2Proof.Machine.execObjUnlock h cls s
  | .objLockQuery h => Sys2Proof.Machine.execObjLockQuery h s
  | .sysWarmReset h confirm => Sys2Proof.Machine.execSysWarmReset h confirm s
  | .fuseProgramPowerCeiling h p => Sys2Proof.Machine.execFuseProgramPowerCeiling h p s
  | .fuseProgramOwnerEnrol h p => Sys2Proof.Machine.execFuseProgramOwnerEnrol h p s
  | .fuseProgramOwnerRevoke h p => Sys2Proof.Machine.execFuseProgramOwnerRevoke h p s
  | .fuseProgramLaneLicense h p => Sys2Proof.Machine.execFuseProgramLaneLicense h p s
  | .fuseProgramInbandKey h p => Sys2Proof.Machine.execFuseProgramInbandKey h p s
  | .fuseLogRead h first => Sys2Proof.Machine.execFuseLogRead h first s
  | .tblInsert h p => Sys2Proof.Machine.execTblInsert h p s
  | .tblDelete h p => Sys2Proof.Machine.execTblDelete h p s
  | .tblSearch h p => Sys2Proof.Machine.execTblSearch h p s
  | .tblSearchChainWide h p => Sys2Proof.Machine.execTblSearchChainWide h p s
  | .tblNext h p => Sys2Proof.Machine.execTblNext h p s
  | .tblNextChainWide h p => Sys2Proof.Machine.execTblNextChainWide h p s
  | .tblFlushPort h p => Sys2Proof.Machine.execTblFlushPort h p s
  | .tblRehash h table seed => Sys2Proof.Machine.execTblRehash h table seed s
  | .tblAgeCfg h table en tickMs ageTicks sweepTicks => Sys2Proof.Machine.execTblAgeCfg h table en tickMs ageTicks sweepTicks s
  | .mcGroupWrite h group first truncate targets => Sys2Proof.Machine.execMcGroupWrite h group first truncate targets s
  | .mcGroupRead h group first max => Sys2Proof.Machine.execMcGroupRead h group first max s
  | .polStage h => Sys2Proof.Machine.execPolStage h s
  | .polCommit h => Sys2Proof.Machine.execPolCommit h s
  | .polAbort h => Sys2Proof.Machine.execPolAbort h s
  | .tcamInsert h p => Sys2Proof.Machine.execTcamInsert h p s
  | .tcamDelete h handle => Sys2Proof.Machine.execTcamDelete h handle s
  | .tcamRead h handle => Sys2Proof.Machine.execTcamRead h handle s
  | .tcamNext h table max first => Sys2Proof.Machine.execTcamNext h table max first s
  | .polSet h p => Sys2Proof.Machine.execPolSet h p s
  | .polGet h dir pipe index => Sys2Proof.Machine.execPolGet h dir pipe index s
  | .shpSet h p => Sys2Proof.Machine.execShpSet h p s
  | .schNodeSet h p => Sys2Proof.Machine.execSchNodeSet h p s
  | .schNodeDetach h kind index => Sys2Proof.Machine.execSchNodeDetach h kind index s
  | .portMacroCfg h p => Sys2Proof.Machine.execPortMacroCfg h p s
  | .portMacroDisable h mac => Sys2Proof.Machine.execPortMacroDisable h mac s
  | .telTargetSet h p => Sys2Proof.Machine.execTelTargetSet h p s
  | .telTargetDisable h target => Sys2Proof.Machine.execTelTargetDisable h target s
  | .telFlowFlush h => Sys2Proof.Machine.execTelFlowFlush h s
  | .cntRead h sect count index => Sys2Proof.Machine.execCntRead h sect count index s
  | .cntVfPermit h vf entry en first count => Sys2Proof.Machine.execCntVfPermit h vf entry en first count s
  | .cntVfQuery h vf => Sys2Proof.Machine.execCntVfQuery h vf s
  | .swatchTake h time => Sys2Proof.Machine.execSwatchTake h time s
  | .swatchRelease h seq => Sys2Proof.Machine.execSwatchRelease h seq s
  | .pwrCapSet h capW => Sys2Proof.Machine.execPwrCapSet h capW s
  | .pwrModeSet h mode => Sys2Proof.Machine.execPwrModeSet h mode s
  | .pwrThreshSet h t1 t2 t3 hyst => Sys2Proof.Machine.execPwrThreshSet h t1 t2 t3 hyst s
  | .pwrStatus h => Sys2Proof.Machine.execPwrStatus h s
  | .pwrCoefRead h => Sys2Proof.Machine.execPwrCoefRead h s
  | .pipeReturn h dir pipe => Sys2Proof.Machine.execPipeReturn h dir pipe s
  | .bankReturn h bank => Sys2Proof.Machine.execBankReturn h bank s
  | .varnishArm h event => Sys2Proof.Machine.execVarnishArm h event s
  | .varnishDisarm h event => Sys2Proof.Machine.execVarnishDisarm h event s
  | .fltInject h event => Sys2Proof.Machine.execFltInject h event s
  | .macroReturn h mac => Sys2Proof.Machine.execMacroReturn h mac s
  | .stlPortCfg h port mode lanes bond refo => Sys2Proof.Machine.execStlPortCfg h port mode lanes bond refo s
  | .twinCfg h role holdMs warmupMs bkp0 bkp1 => Sys2Proof.Machine.execTwinCfg h role holdMs warmupMs bkp0 bkp1 s
  | .chainCfg h dev budget => Sys2Proof.Machine.execChainCfg h dev budget s
  | .chainMembers h first => Sys2Proof.Machine.execChainMembers h first s
  | .twinStatus h => Sys2Proof.Machine.execTwinStatus h s
  | .fwInfo h => Sys2Proof.Machine.execFwInfo h s
  | .fwStage h src len addr image => Sys2Proof.Machine.execFwStage h src len addr image s
  | .fwActivate h mode => Sys2Proof.Machine.execFwActivate h mode s
  | .fwActivateNextReset h => Sys2Proof.Machine.execFwActivateNextReset h s
  | .fwFlashWrite h copy => Sys2Proof.Machine.execFwFlashWrite h copy s
  | .engReturn h engine => Sys2Proof.Machine.execEngReturn h engine s
  | .commandDispatch t engine => Sys2Proof.Machine.execCommandDispatch t engine s
  | .progressReply t serial => Sys2Proof.Machine.execProgressReply t serial s
  | .lockExpired t cls => Sys2Proof.Machine.execLockExpired t cls s
  | .registerWrite t offset bytes value => Sys2Proof.Machine.execRegisterWrite t offset bytes value s
  | .unmappedAccess t offset write => Sys2Proof.Machine.execUnmappedAccess t offset write s
  | .eventRegClear t offset value => Sys2Proof.Machine.execEventRegClear t offset value s
  | .wideShadowRead t offset => Sys2Proof.Machine.execWideShadowRead t offset s
  | .wideFieldWrite t offset value => Sys2Proof.Machine.execWideFieldWrite t offset value s
  | .wideMbxAddrWrite t value => Sys2Proof.Machine.execWideMbxAddrWrite t value s
  | .wideMbxDone t => Sys2Proof.Machine.execWideMbxDone t s
  | .tsPopRead t mac => Sys2Proof.Machine.execTsPopRead t mac s
  | .srcMapWrite t index value => Sys2Proof.Machine.execSrcMapWrite t index value s
  | .srcMoveDone t src => Sys2Proof.Machine.execSrcMoveDone t src s
  | .parseCfgWrite t reg value => Sys2Proof.Machine.execParseCfgWrite t reg value s
  | .holdMaxWrite t value => Sys2Proof.Machine.execHoldMaxWrite t value s
  | .poolSizeWrite t offset value => Sys2Proof.Machine.execPoolSizeWrite t offset value s
  | .expPeriodWrite t value => Sys2Proof.Machine.execExpPeriodWrite t value s
  | .windowUsWrite t src value => Sys2Proof.Machine.execWindowUsWrite t src value s
  | .laneTxeqWrite t mac lane value => Sys2Proof.Machine.execLaneTxeqWrite t mac lane value s
  | .rearm t mac lane => Sys2Proof.Machine.execRearm t mac lane s
  | .txSquelch t mac lane squelch => Sys2Proof.Machine.execTxSquelch t mac lane squelch s
  | .todSet t value => Sys2Proof.Machine.execTodSet t value s
  | .ringEnable t ring value => Sys2Proof.Machine.execRingEnable t ring value s
  | .ringReset t ring => Sys2Proof.Machine.execRingReset t ring s
  | .ringResetDone t ring => Sys2Proof.Machine.execRingResetDone t ring s
  | .ringTailWrite t ring tail frames => Sys2Proof.Machine.execRingTailWrite t ring tail frames s
  | .cmdRingEnable t ring value => Sys2Proof.Machine.execCmdRingEnable t ring value s
  | .cmdRingReset t ring => Sys2Proof.Machine.execCmdRingReset t ring s
  | .sqTailWrite t ring tail entries => Sys2Proof.Machine.execSqTailWrite t ring tail entries s
  | .cqHeadWrite t ring head => Sys2Proof.Machine.execCqHeadWrite t ring head s
  | .sampleRingEnable t ring value => Sys2Proof.Machine.execSampleRingEnable t ring value s
  | .sampleConsWrite t ring cons => Sys2Proof.Machine.execSampleConsWrite t ring cons s
  | .coalTimer t cmd ring => Sys2Proof.Machine.execCoalTimer t cmd ring s
  | .powerOn t => Sys2Proof.Machine.execPowerOn t s
  | .aonPowerLoss t => Sys2Proof.Machine.execAonPowerLoss t s
  | .rstN t => Sys2Proof.Machine.execRstN t s
  | .hostReset t cause => Sys2Proof.Machine.execHostReset t cause s
  | .warmResetStart t => Sys2Proof.Machine.execWarmResetStart t s
  | .bootStageDone t copy0 copy1 => Sys2Proof.Machine.execBootStageDone t copy0 copy1 s
  | .railFault t rail => Sys2Proof.Machine.execRailFault t rail s
  | .refclkLoss t aon => Sys2Proof.Machine.execRefclkLoss t aon s
  | .refLost t => Sys2Proof.Machine.execRefLost t s
  | .refLock t => Sys2Proof.Machine.execRefLock t s
  | .ppsCapture t => Sys2Proof.Machine.execPpsCapture t s
  | .varnishTrigger t => Sys2Proof.Machine.execVarnishTrigger t s
  | .idcode t shift tdi => Sys2Proof.Machine.execIdcode t shift tdi s
  | .vstatus t shift tdi => Sys2Proof.Machine.execVstatus t shift tdi s
  | .scanDomain t dom shift tdi => Sys2Proof.Machine.execScanDomain t dom shift tdi s
  | .memSel t shift tdi => Sys2Proof.Machine.execMemSel t shift tdi s
  | .memData t shift tdi => Sys2Proof.Machine.execMemData t shift tdi s
  | .bypass t shift tdi => Sys2Proof.Machine.execBypass t shift tdi s
  | .bmcIdRead t => Sys2Proof.Machine.execBmcIdRead t s
  | .bmcStatusRead t => Sys2Proof.Machine.execBmcStatusRead t s
  | .bmcTempRead t => Sys2Proof.Machine.execBmcTempRead t s
  | .bmcPowerRead t => Sys2Proof.Machine.execBmcPowerRead t s
  | .bmcFaultSummary t => Sys2Proof.Machine.execBmcFaultSummary t s
  | .bmcAddrWrite t addr => Sys2Proof.Machine.execBmcAddrWrite t addr s
  | .bmcRegRead t => Sys2Proof.Machine.execBmcRegRead t s
  | .bmcCommandWrite t bytes => Sys2Proof.Machine.execBmcCommandWrite t bytes s
  | .bmcReplyRead t => Sys2Proof.Machine.execBmcReplyRead t s
  | .inbandCommandRx t port frame => Sys2Proof.Machine.execInbandCommandRx t port frame s
  | .inbandReplyTx t port => Sys2Proof.Machine.execInbandReplyTx t port s
  | .uartRxByte t byte framing => Sys2Proof.Machine.execUartRxByte t byte framing s
  | .frameRx t port frame verdict fec => Sys2Proof.Machine.execFrameRx t port frame verdict fec s
  | .pfcFrameRx t port opcode enable quanta => Sys2Proof.Machine.execPfcFrameRx t port opcode enable quanta s
  | .pauseTimerExpire t port cls => Sys2Proof.Machine.execPauseTimerExpire t port cls s
  | .pfcFrameTx t port => Sys2Proof.Machine.execPfcFrameTx t port s
  | .pfcRefresh t port => Sys2Proof.Machine.execPfcRefresh t port s
  | .rxTailError t port good => Sys2Proof.Machine.execRxTailError t port good s
  | .portUp t port => Sys2Proof.Machine.execPortUp t port s
  | .portDown t loss => Sys2Proof.Machine.execPortDown t loss s
  | .anRestart t port => Sys2Proof.Machine.execAnRestart t port s
  | .ltFail t port => Sys2Proof.Machine.execLtFail t port s
  | .serdesWakeDone t mac => Sys2Proof.Machine.execSerdesWakeDone t mac s
  | .rampComplete t mac lane => Sys2Proof.Machine.execRampComplete t mac lane s
  | .txTrip t mac lane => Sys2Proof.Machine.execTxTrip t mac lane s
  | .ocGlitch t mac lane => Sys2Proof.Machine.execOcGlitch t mac lane s
  | .shortRetry t mac lane => Sys2Proof.Machine.execShortRetry t mac lane s
  | .retryClear t mac lane => Sys2Proof.Machine.execRetryClear t mac lane s
  | .pipelineEntry t pipe => Sys2Proof.Machine.execPipelineEntry t pipe s
  | .actionResolve t slots => Sys2Proof.Machine.execActionResolve t slots s
  | .cellWrite t => Sys2Proof.Machine.execCellWrite t s
  | .schedSelect t port => Sys2Proof.Machine.execSchedSelect t port s
  | .bankMatch t => Sys2Proof.Machine.execBankMatch t s
  | .egressPipeline t copy => Sys2Proof.Machine.execEgressPipeline t copy s
  | .frameTx t copy => Sys2Proof.Machine.execFrameTx t copy s
  | .shaperRelease t kind index => Sys2Proof.Machine.execShaperRelease t kind index s
  | .pfcWdDrop t port cls => Sys2Proof.Machine.execPfcWdDrop t port cls s
  | .pfcWdRestore t port cls => Sys2Proof.Machine.execPfcWdRestore t port cls s
  | .detachDone t kind index => Sys2Proof.Machine.execDetachDone t kind index s
  | .updateWindow t => Sys2Proof.Machine.execUpdateWindow t s
  | .agingTick t table => Sys2Proof.Machine.execAgingTick t table s
  | .rehashDone t table => Sys2Proof.Machine.execRehashDone t table s
  | .residualRetry t table => Sys2Proof.Machine.execResidualRetry t table s
  | .flushDone t table => Sys2Proof.Machine.execFlushDone t table s
  | .commitStrobe t => Sys2Proof.Machine.execCommitStrobe t s
  | .epochRewriteDone t => Sys2Proof.Machine.execEpochRewriteDone t s
  | .epochExpire t epoch => Sys2Proof.Machine.execEpochExpire t epoch s
  | .epochReclaim t => Sys2Proof.Machine.execEpochReclaim t s
  | .epochReclaimDone t => Sys2Proof.Machine.execEpochReclaimDone t s
  | .scrubVisit t pipe handle => Sys2Proof.Machine.execScrubVisit t pipe handle s
  | .scopeCopyDone t kind index => Sys2Proof.Machine.execScopeCopyDone t kind index s
  | .wireFault t inst => Sys2Proof.Machine.execWireFault t inst s
  | .memCe t code inst location => Sys2Proof.Machine.execMemCe t code inst location s
  | .memUe t code inst location => Sys2Proof.Machine.execMemUe t code inst location s
  | .pipeQuarantine t dir pipe => Sys2Proof.Machine.execPipeQuarantine t dir pipe s
  | .bankDrainDone t bank => Sys2Proof.Machine.execBankDrainDone t bank s
  | .macroPllLoss t mac => Sys2Proof.Machine.execMacroPllLoss t mac s
  | .tileLinkRetry t tile ok lost => Sys2Proof.Machine.execTileLinkRetry t tile ok lost s
  | .tileLinkDown t tile => Sys2Proof.Machine.execTileLinkDown t tile s
  | .thermSample t temps => Sys2Proof.Machine.execThermSample t temps s
  | .sensorCheck t temps => Sys2Proof.Machine.execSensorCheck t temps s
  | .droopDetect t domain => Sys2Proof.Machine.execDroopDetect t domain s
  | .powerLoopPass t vr est static proj => Sys2Proof.Machine.execPowerLoopPass t vr est static proj s
  | .voltageConfirmed t => Sys2Proof.Machine.execVoltageConfirmed t s
  | .loopStall t => Sys2Proof.Machine.execLoopStall t s
  | .ageingReadout t consumed => Sys2Proof.Machine.execAgeingReadout t consumed s
  | .unitSleep t kind index => Sys2Proof.Machine.execUnitSleep t kind index s
  | .unitWake t kind index => Sys2Proof.Machine.execUnitWake t kind index s
  | .uNext t eng env => Sys2Proof.Machine.execUNext t eng env s
  | .uBr t eng env => Sys2Proof.Machine.execUBr t eng env s
  | .uBrt t eng env => Sys2Proof.Machine.execUBrt t eng env s
  | .uBrf t eng env => Sys2Proof.Machine.execUBrf t eng env s
  | .uCall t eng env => Sys2Proof.Machine.execUCall t eng env s
  | .uRet t eng env => Sys2Proof.Machine.execURet t eng env s
  | .uUret t eng env => Sys2Proof.Machine.execUUret t eng env s
  | .uWait t eng env => Sys2Proof.Machine.execUWait t eng env s
  | .uHalt t eng env => Sys2Proof.Machine.execUHalt t eng env s
  | .uPassA t eng env => Sys2Proof.Machine.execUPassA t eng env s
  | .uAdd t eng env => Sys2Proof.Machine.execUAdd t eng env s
  | .uSubtract t eng env => Sys2Proof.Machine.execUSubtract t eng env s
  | .uAnd t eng env => Sys2Proof.Machine.execUAnd t eng env s
  | .uOr t eng env => Sys2Proof.Machine.execUOr t eng env s
  | .uXor t eng env => Sys2Proof.Machine.execUXor t eng env s
  | .uShiftLeft t eng env => Sys2Proof.Machine.execUShiftLeft t eng env s
  | .uShiftRight t eng env => Sys2Proof.Machine.execUShiftRight t eng env s
  | .uArithmeticShiftRight t eng env => Sys2Proof.Machine.execUArithmeticShiftRight t eng env s
  | .uMinimum t eng env => Sys2Proof.Machine.execUMinimum t eng env s
  | .uMaximum t eng env => Sys2Proof.Machine.execUMaximum t eng env s
  | .uMultiply t eng env => Sys2Proof.Machine.execUMultiply t eng env s
  | .uCrc32cStep t eng env => Sys2Proof.Machine.execUCrc32cStep t eng env s
  | .uPopulationCount t eng env => Sys2Proof.Machine.execUPopulationCount t eng env s
  | .uCompare t eng env => Sys2Proof.Machine.execUCompare t eng env s
  | .uDeposit t eng env => Sys2Proof.Machine.execUDeposit t eng env s
  | .uLoadScratch t eng env => Sys2Proof.Machine.execULoadScratch t eng env s
  | .uStoreScratch t eng env => Sys2Proof.Machine.execUStoreScratch t eng env s
  | .uLoadEngineBus t eng env => Sys2Proof.Machine.execULoadEngineBus t eng env s
  | .uStoreEngineBus t eng env => Sys2Proof.Machine.execUStoreEngineBus t eng env s
  | .uPopWorkQueue t eng env => Sys2Proof.Machine.execUPopWorkQueue t eng env s
  | .uPushWorkQueue t eng env => Sys2Proof.Machine.execUPushWorkQueue t eng env s
  | .uWatchdogAck t eng env => Sys2Proof.Machine.execUWatchdogAck t eng env s
  | .engWatchdog t eng => Sys2Proof.Machine.execEngWatchdog t eng s
  | .engFailed t eng cause => Sys2Proof.Machine.execEngFailed t eng cause s
  | .taskMigrated t eng => Sys2Proof.Machine.execTaskMigrated t eng s
  | .periodicSlice t eng => Sys2Proof.Machine.execPeriodicSlice t eng s
  | .overrun t eng => Sys2Proof.Machine.execOverrun t eng s
  | .hitlessHalfDone t => Sys2Proof.Machine.execHitlessHalfDone t s
  | .fwDone t => Sys2Proof.Machine.execFwDone t s
  | .fwRollback t eng => Sys2Proof.Machine.execFwRollback t eng s
  | .exportPeriod t => Sys2Proof.Machine.execExportPeriod t s
  | .batchComplete t target => Sys2Proof.Machine.execBatchComplete t target s
  | .exportFrameTx t target => Sys2Proof.Machine.execExportFrameTx t target s
  | .flowScan t => Sys2Proof.Machine.execFlowScan t s
  | .minuteClose t => Sys2Proof.Machine.execMinuteClose t s
  | .swatchCapture t => Sys2Proof.Machine.execSwatchCapture t s
  | .swatchDone t => Sys2Proof.Machine.execSwatchDone t s
  | .rateWindowEnd t port => Sys2Proof.Machine.execRateWindowEnd t port s
  | .sampleDma t ring => Sys2Proof.Machine.execSampleDma t ring s
  | .cpuRxDeliver t ring count => Sys2Proof.Machine.execCpuRxDeliver t ring count s
  | .rxHoldExpire t queue => Sys2Proof.Machine.execRxHoldExpire t queue s
  | .txFrameServe t => Sys2Proof.Machine.execTxFrameServe t s
  | .codewordRx t port lane bad correctable stuff => Sys2Proof.Machine.execCodewordRx t port lane bad correctable stuff s
  | .stlBlockRx t port block => Sys2Proof.Machine.execStlBlockRx t port block s
  | .stlFrameRx t port cls frame good => Sys2Proof.Machine.execStlFrameRx t port cls frame good s
  | .flowRx t port xoff => Sys2Proof.Machine.execFlowRx t port xoff s
  | .flowTx t port => Sys2Proof.Machine.execFlowTx t port s
  | .xoffLapse t port => Sys2Proof.Machine.execXoffLapse t port s
  | .laneAdapted t port lane => Sys2Proof.Machine.execLaneAdapted t port lane s
  | .adaptRestart t port lane => Sys2Proof.Machine.execAdaptRestart t port lane s
  | .laneAligned t port lane logical inv skewOk => Sys2Proof.Machine.execLaneAligned t port lane logical inv skewOk s
  | .resizeTimeout t port => Sys2Proof.Machine.execResizeTimeout t port s
  | .laneRestore t port => Sys2Proof.Machine.execLaneRestore t port s
  | .refMismatch t port lane ppm => Sys2Proof.Machine.execRefMismatch t port lane ppm s
  | .lastGaspRx t port cause tod => Sys2Proof.Machine.execLastGaspRx t port cause tod s
  | .hbTx t port => Sys2Proof.Machine.execHbTx t port s
  | .hbRx t port bytes => Sys2Proof.Machine.execHbRx t port bytes s
  | .hbPeriod t => Sys2Proof.Machine.execHbPeriod t s
  | .bkpHbTx t which => Sys2Proof.Machine.execBkpHbTx t which s
  | .bkpHbRx t port bytes => Sys2Proof.Machine.execBkpHbRx t port bytes s
  | .bkpAliveExpire t => Sys2Proof.Machine.execBkpAliveExpire t s
  | .twinLinkLost t => Sys2Proof.Machine.execTwinLinkLost t s
  | .standbyTimeout t => Sys2Proof.Machine.execStandbyTimeout t s
  | .warmupDone t => Sys2Proof.Machine.execWarmupDone t s
  | .linkHoldExpire t => Sys2Proof.Machine.execLinkHoldExpire t s
  | .announceTx t port => Sys2Proof.Machine.execAnnounceTx t port s
  | .announceRx t port bytes => Sys2Proof.Machine.execAnnounceRx t port bytes s
  | .memberExpire t dev => Sys2Proof.Machine.execMemberExpire t dev s
  | .chainTransit t port bytes => Sys2Proof.Machine.execChainTransit t port bytes s
  | .chainCommandRx t port bytes => Sys2Proof.Machine.execChainCommandRx t port bytes s
  | .forwardTimeout t kind sub tag => Sys2Proof.Machine.execForwardTimeout t kind sub tag s
  | .timeBlockTx t port => Sys2Proof.Machine.execTimeBlockTx t port s
  | .timeBlockRx t port bytes => Sys2Proof.Machine.execTimeBlockRx t port bytes s
  | .railGood t rail => Sys2Proof.Machine.execRailGood t rail s
  | .pcieLinkUp t gen width => Sys2Proof.Machine.execPcieLinkUp t gen width s
  | .todSecond t => Sys2Proof.Machine.execTodSecond t s
  | .stlRxSignal t port lane present => Sys2Proof.Machine.execStlRxSignal t port lane present s
  | .pcsLock t port => Sys2Proof.Machine.execPcsLock t port s
  | .anComplete t page => Sys2Proof.Machine.execAnComplete t page s
  | .linkTrainingDone t port taps => Sys2Proof.Machine.execLinkTrainingDone t port taps s
  | .registerRead t offset size => Sys2Proof.Machine.execRegisterRead t offset size s
  | .vfCounterRead t vf span => Sys2Proof.Machine.execVfCounterRead t vf span s
  | .entdaa t addr => Sys2Proof.Machine.execEntdaa t addr s
  | .returnTestDone t kind index passed => Sys2Proof.Machine.execReturnTestDone t kind index passed s
  | .engSelfTestDone t eng passed => Sys2Proof.Machine.execEngSelfTestDone t eng passed s
  | .fuseProgramDone t => Sys2Proof.Machine.execFuseProgramDone t s

end Sys2Proof.Machine
end

