-- ==== Sys2Proof/WellFormed.lean ====
section
/-! DEFINITION. Well-formed commands: every operand names a unit the device has, and every number fits the field, wire or register that carries it.  Whether a value is permitted is the device's own check (Table 12.4), not this one. -/

namespace Sys2Proof

open Sys2Proof.Machine (memInst wireSource drvExists nodeCount)

/-- `n` is below a bound. -/
def lt (n bound : Nat) : Bool := decide (n < bound)

/-- A header as Tables 12.1 and 12.2 give it: a master kind, its number, a 64-bit SERIAL and a 32-bit TAG. -/
def hdrOk (h : Hdr) : Bool := lt h.kind 5 && lt h.sub 4096 && lt h.serial (2 ^ 64) && lt h.tag (2 ^ 32)

/-- Parameters of FUSE_PROGRAM: 4 bytes of VALUE, 32 of KEY, 96 of AUTH (Table 12.9). -/
def fuseOk (p : FuseParams) : Bool := lt p.value (2 ^ 32) && lt p.key (2 ^ 256) && lt p.auth (2 ^ 768)

/-- Parameters of TBL_INSERT, TBL_DELETE and TBL_SEARCH. -/
def keyOk (p : TblKey) : Bool :=
  lt p.table 256 && lt p.keyLen 256 && lt p.dataLen 256 && lt p.prefixLen 256 && lt p.key (2 ^ 256) && lt p.data (2 ^ 256)

/-- Parameters of TBL_NEXT. -/
def nextOk (p : TblNext) : Bool :=
  lt p.table 256 && lt p.max 256 && lt p.originMask 4 && lt p.dest 65536 && lt p.destMask 65536 && lt p.cursor (2 ^ 64)
    && lt p.key (2 ^ 128) && lt p.keyMask (2 ^ 128)

/-- Parameters of TBL_FLUSH_PORT. -/
def flushOk (p : TblFlush) : Bool := lt p.table 256 && lt p.kind 256 && lt p.value 65536 && lt p.key (2 ^ 128) && lt p.keyMask (2 ^ 128)

/-- Parameters of TCAM_INSERT. -/
def tcamOk (p : TcamParams) : Bool :=
  lt p.table 256 && lt p.actionId 256 && lt p.scope 65536 && lt p.priority (2 ^ 24) && lt p.rangeEn 16 && lt p.data (2 ^ 128)
    && p.ranges.length == 4 && p.ranges.all (fun r => lt r.1 65536 && lt r.2 65536) && lt p.key (2 ^ 640) && lt p.mask (2 ^ 640)

/-- Parameters of POL_SET. -/
def polOk (p : PolSet) : Bool :=
  lt p.dir 256 && lt p.pipe 256 && lt p.index 65536 && lt p.tokenReset 256 && decide (-128 ≤ p.lenAdj ∧ p.lenAdj ≤ 127) && lt p.rate (2 ^ 32) && lt p.burst 65536

/-- Parameters of SHP_SET. -/
def shpOk (p : ShpSet) : Bool := lt p.kind 256 && lt p.index (2 ^ 32) && lt p.tokenReset 256 && lt p.rate (2 ^ 32) && lt p.burst 65536

/-- Parameters of SCH_NODE_SET. -/
def nodeOk (p : NodeSet) : Bool :=
  lt p.kind 256 && lt p.index (2 ^ 32) && lt p.attach 256 && lt p.parent 65536 && lt p.band 256 && lt p.weight 65536 && lt p.cls 256
    && decide (-128 ≤ p.lenAdj ∧ p.lenAdj ≤ 127)

/-- Parameters of PORT_MACRO_CFG. -/
def macroOk (p : MacroCfg) : Bool :=
  lt p.mac 256 && lt p.laneRate 256 && lt p.reach 256 && lt p.portStart 256 && lt p.anEn 256 && lt p.txLane (2 ^ 24) && lt p.rxLane (2 ^ 24)
    && lt p.txInv 256 && lt p.rxInv 256 && p.maxFrame.length == 8 && p.maxFrame.all (fun n => lt n 65536)

/-- Parameters of TEL_TARGET_SET. -/
def targetOk (p : TargetSet) : Bool :=
  lt p.target 256 && lt p.kind 2 && lt p.port 65536 && lt p.expRate 65536 && lt p.expClass 256 && lt p.dscp 256 && lt p.srcMac (2 ^ 48)
    && lt p.dstMac (2 ^ 48) && lt p.vid 4096 && lt p.pcp 8 && lt p.srcUdp 65536 && lt p.srcIp (2 ^ 128) && lt p.dstIp (2 ^ 128) && lt p.dstUdp 65536
    && lt p.msgMax 65536 && lt p.obsDomain (2 ^ 32) && lt p.destQp (2 ^ 24) && lt p.pmtu 256 && lt p.pKey 65536 && lt p.rKey (2 ^ 32)
    && lt p.startPsn (2 ^ 24) && lt p.baseVa (2 ^ 64) && lt p.size (2 ^ 64) && lt p.gbase (2 ^ 64)

/-- A Gesso image: a 32-bit version, microcode in 8,192 words of 128 bits (R293, Table 13.11). -/
def imageOk (g : Gesso) : Bool := lt g.version (2 ^ 32) && g.store.all (fun x => lt x.2.1 8192 && lt x.2.2 (2 ^ 128))

/-- A frame no longer than a MAC can hold. -/
def frameOk (f : Frame) : Bool := lt f.bytes.length 16385

/-- A sensor reading in 16 bits of 1/16 °C (R360). -/
def tempOk (x : Int) : Bool := decide (-32768 ≤ x ∧ x ≤ 32767)

/-- An offset of BAR0 or of BAR2 (Table 11.2; BAR2 at 0x1000_0000, log 3). -/
def barOk (off : Nat) : Bool := lt off 0x4000000 || (decide (0x10000000 ≤ off) && lt off 0x10100000)

/-- A command is well formed. -/
def Instr.wf : Instr → Bool
  | .sysInfo h => hdrOk h
  | .sysNop h => hdrOk h
  | .sysProgress h tag master => hdrOk h && lt tag 0x100000000 && lt master 65536
  | .objLock h cls lease => hdrOk h && lt cls 256 && lt lease 0x100000000
  | .objUnlock h cls => hdrOk h && lt cls 256
  | .objLockQuery h => hdrOk h
  | .sysWarmReset h confirm => hdrOk h && lt confirm 0x100000000
  | .fuseProgramPowerCeiling h p => hdrOk h && fuseOk p
  | .fuseProgramOwnerEnrol h p => hdrOk h && fuseOk p && !p.value.testBit 8
  | .fuseProgramOwnerRevoke h p => hdrOk h && fuseOk p && p.value.testBit 8
  | .fuseProgramLaneLicense h p => hdrOk h && fuseOk p
  | .fuseProgramInbandKey h p => hdrOk h && fuseOk p
  | .fuseLogRead h first => hdrOk h && lt first 0x100000000
  | .tblInsert h p => hdrOk h && keyOk p && !p.chainWide
  | .tblDelete h p => hdrOk h && keyOk p && !p.chainWide
  | .tblSearch h p => hdrOk h && keyOk p && !p.chainWide
  | .tblSearchChainWide h p => hdrOk h && keyOk p && p.chainWide
  | .tblNext h p => hdrOk h && nextOk p && !p.chainWide
  | .tblNextChainWide h p => hdrOk h && nextOk p && p.chainWide
  | .tblFlushPort h p => hdrOk h && flushOk p
  | .tblRehash h table seed => hdrOk h && lt table 256 && lt seed 0x100000000
  | .tblAgeCfg h table _ tickMs ageTicks sweepTicks => hdrOk h && lt table 256 && lt tickMs 65536 && lt ageTicks 65536 && lt sweepTicks 65536
  | .mcGroupWrite h group first _ targets => hdrOk h && lt group 65536 && lt first 65536 && decide (targets.length ≤ 48) && targets.all (fun x => lt x 0x100000000)
  | .mcGroupRead h group first max => hdrOk h && lt group 65536 && lt first 65536 && lt max 256
  | .polStage h => hdrOk h
  | .polCommit h => hdrOk h
  | .polAbort h => hdrOk h
  | .tcamInsert h p => hdrOk h && tcamOk p
  | .tcamDelete h handle => hdrOk h && lt handle 0x100000000
  | .tcamRead h handle => hdrOk h && lt handle 0x100000000
  | .tcamNext h table max first => hdrOk h && lt table 256 && lt max 256 && lt first 0x100000000
  | .polSet h p => hdrOk h && polOk p
  | .polGet h dir pipe index => hdrOk h && lt dir 256 && lt pipe 256 && lt index 65536
  | .shpSet h p => hdrOk h && shpOk p
  | .schNodeSet h p => hdrOk h && nodeOk p
  | .schNodeDetach h kind index => hdrOk h && lt kind 256 && lt index 0x100000000
  | .portMacroCfg h p => hdrOk h && macroOk p
  | .portMacroDisable h mac => hdrOk h && lt mac 256
  | .telTargetSet h p => hdrOk h && targetOk p
  | .telTargetDisable h target => hdrOk h && lt target 256
  | .telFlowFlush h => hdrOk h
  | .cntRead h sect count index => hdrOk h && lt sect 256 && lt count 256 && lt index 0x100000000
  | .cntVfPermit h vf entry _ first count => hdrOk h && lt vf 256 && lt entry 256 && lt first 65536 && lt count 65536
  | .cntVfQuery h vf => hdrOk h && lt vf 256
  | .swatchTake h time => hdrOk h && lt time 0x10000000000000000
  | .swatchRelease h seq => hdrOk h && lt seq 0x100000000
  | .pwrCapSet h capW => hdrOk h && lt capW 65536
  | .pwrModeSet h mode => hdrOk h && lt mode 256
  | .pwrThreshSet h t1 t2 t3 hyst => hdrOk h && lt t1 256 && lt t2 256 && lt t3 256 && lt hyst 256
  | .pwrStatus h => hdrOk h
  | .pwrCoefRead h => hdrOk h
  | .pipeReturn h dir pipe => hdrOk h && lt dir 256 && lt pipe 256
  | .bankReturn h bank => hdrOk h && lt bank 256
  | .varnishArm h event => hdrOk h && lt event 65536
  | .varnishDisarm h event => hdrOk h && lt event 65536
  | .fltInject h event => hdrOk h && lt event 65536
  | .macroReturn h mac => hdrOk h && lt mac 256
  | .stlPortCfg h port mode lanes _ _ => hdrOk h && lt port 256 && lt mode 256 && lt lanes 256
  | .twinCfg h role holdMs warmupMs bkp0 bkp1 => hdrOk h && lt role 256 && lt holdMs 65536 && lt warmupMs 0x100000000 && lt bkp0 65536 && lt bkp1 65536
  | .chainCfg h dev budget => hdrOk h && lt dev 65536 && lt budget 0x100000000
  | .chainMembers h first => hdrOk h && lt first 65536
  | .twinStatus h => hdrOk h
  | .fwInfo h => hdrOk h
  | .fwStage h src len addr image => hdrOk h && lt src 256 && lt len 0x100000000 && lt addr 0x10000000000000000 && imageOk image
  | .fwActivate h mode => hdrOk h && lt mode 256 && mode != 1
  | .fwActivateNextReset h => hdrOk h
  | .fwFlashWrite h copy => hdrOk h && lt copy 256
  | .engReturn h engine => hdrOk h && lt engine 256
  | .commandDispatch _ engine => lt engine 64
  | .progressReply _ serial => lt serial 0x10000000000000000
  | .lockExpired _ cls => lt cls 8
  | .registerWrite _ offset bytes _ => barOk offset && (lt 0 bytes && lt bytes 5)
  | .unmappedAccess _ offset _ => barOk offset
  | .eventRegClear _ offset _ => barOk offset
  | .wideShadowRead _ offset => barOk offset
  | .wideFieldWrite _ offset _ => barOk offset
  | .wideMbxAddrWrite _ _ => true
  | .wideMbxDone _ => true
  | .tsPopRead _ mac => lt mac 96
  | .srcMapWrite _ index _ => lt index 2
  | .srcMoveDone _ src => lt src 5
  | .parseCfgWrite _ reg _ => lt reg 5
  | .holdMaxWrite _ _ => true
  | .poolSizeWrite _ offset _ => barOk offset
  | .expPeriodWrite _ _ => true
  | .windowUsWrite _ src _ => lt src 773
  | .laneTxeqWrite _ mac lane _ => lt mac 100 && lt lane 8
  | .rearm _ mac lane => drvExists mac lane
  | .txSquelch _ mac lane _ => drvExists mac lane
  | .todSet _ value => lt value 0x10000000000000000
  | .ringEnable _ ring _ => lt ring 64
  | .ringReset _ ring => lt ring 64
  | .ringResetDone _ ring => lt ring 64
  | .ringTailWrite _ ring tail _ => lt ring 64 && lt tail 32768
  | .cmdRingEnable _ ring _ => lt ring 16
  | .cmdRingReset _ ring => lt ring 16
  | .sqTailWrite _ ring tail entries => lt ring 16 && lt tail 4096 && entries.all (fun x => x.length == 256)
  | .cqHeadWrite _ ring head => lt ring 16 && lt head 4096
  | .sampleRingEnable _ ring _ => lt ring 8
  | .sampleConsWrite _ ring cons => lt ring 8 && lt cons 0x100000000
  | .coalTimer _ cmd ring => lt ring (if cmd then 16 else 64)
  | .powerOn _ => true
  | .aonPowerLoss _ => true
  | .rstN _ => true
  | .hostReset _ cause => lt cause 4
  | .warmResetStart _ => true
  | .bootStageDone _ copy0 copy1 => copy0.all imageOk && copy1.all imageOk
  | .railFault _ rail => lt rail 6
  | .refclkLoss _ _ => true
  | .refLost _ => true
  | .refLock _ => true
  | .ppsCapture _ => true
  | .varnishTrigger _ => true
  | .idcode _ _ _ => true
  | .vstatus _ _ _ => true
  | .scanDomain _ dom _ _ => (lt 0 dom && lt dom 26)
  | .memSel _ _ _ => true
  | .memData _ _ _ => true
  | .bypass _ _ _ => true
  | .bmcIdRead _ => true
  | .bmcStatusRead _ => true
  | .bmcTempRead _ => true
  | .bmcPowerRead _ => true
  | .bmcFaultSummary _ => true
  | .bmcAddrWrite _ addr => lt addr 0x100000000
  | .bmcRegRead _ => true
  | .bmcCommandWrite _ bytes => lt bytes.length 256
  | .bmcReplyRead _ => true
  | .inbandCommandRx _ port frame => lt port 768 && frameOk frame
  | .inbandReplyTx _ port => lt port 768
  | .uartRxByte _ _ _ => true
  | .frameRx _ port frame _ _ => lt port 768 && frameOk frame
  | .pfcFrameRx _ port opcode enable quanta => lt port 768 && lt opcode 65536 && lt enable 65536 && quanta.all (fun x => lt x 65536)
  | .pauseTimerExpire _ port cls => lt port 768 && lt cls 8
  | .pfcFrameTx _ port => lt port 768
  | .pfcRefresh _ port => lt port 768
  | .rxTailError _ port _ => lt port 768
  | .portUp _ port => lt port 768
  | .portDown _ loss => lt loss.port 768
  | .anRestart _ port => lt port 768
  | .ltFail _ port => lt port 768
  | .serdesWakeDone _ mac => lt mac 100
  | .rampComplete _ mac lane => drvExists mac lane
  | .txTrip _ mac lane => drvExists mac lane
  | .ocGlitch _ mac lane => drvExists mac lane
  | .shortRetry _ mac lane => drvExists mac lane
  | .retryClear _ mac lane => drvExists mac lane
  | .pipelineEntry _ pipe => lt pipe 32
  | .actionResolve _ slots => lt slots.a (2 ^ 32) && lt slots.b (2 ^ 32)
  | .cellWrite _ => true
  | .schedSelect _ port => lt port 773
  | .bankMatch _ => true
  | .egressPipeline _ _ => true
  | .frameTx _ _ => true
  | .shaperRelease _ kind index => lt index (nodeCount kind)
  | .pfcWdDrop _ port cls => lt port 768 && lt cls 8
  | .pfcWdRestore _ port cls => lt port 768 && lt cls 8
  | .detachDone _ kind index => lt index (nodeCount kind) && (kind == 0 || kind == 3)
  | .updateWindow _ => true
  | .agingTick _ table => lt table 64
  | .rehashDone _ table => lt table 64
  | .residualRetry _ table => lt table 64
  | .flushDone _ table => lt table 64
  | .commitStrobe _ => true
  | .epochRewriteDone _ => true
  | .epochExpire _ epoch => lt epoch 16
  | .epochReclaim _ => true
  | .epochReclaimDone _ => true
  | .scrubVisit _ pipe handle => lt pipe 32 && lt handle 0x100000000
  | .scopeCopyDone _ kind index => lt kind 4 && lt index (if kind < 2 then 64 else if kind = 2 then 5 else 773)
  | .wireFault _ inst => wireSource inst
  | .memCe _ code inst location => memInst code inst && lt location 0x100000000
  | .memUe _ code inst location => memInst code inst && lt location 0x100000000
  | .pipeQuarantine _ dir pipe => lt dir 2 && lt pipe 32
  | .bankDrainDone _ bank => lt bank 128
  | .macroPllLoss _ mac => lt mac 96
  | .tileLinkRetry _ tile _ _ => lt tile 8
  | .tileLinkDown _ tile => lt tile 8
  | .thermSample _ temps => temps.length == 64 && temps.all tempOk
  | .sensorCheck _ temps => temps.length == 64 && temps.all tempOk
  | .droopDetect _ domain => ((lt 1 domain && lt domain 11) || domain == 20)
  | .powerLoopPass _ _ _ _ _ => true
  | .voltageConfirmed _ => true
  | .loopStall _ => true
  | .ageingReadout _ consumed => consumed.length == 96
  | .unitSleep _ kind index => lt kind 4 && lt index (if kind < 2 then 32 else if kind = 2 then 8 else 96)
  | .unitWake _ kind index => lt kind 4 && lt index (if kind < 2 then 32 else if kind = 2 then 8 else 96)
  | .uNext _ eng env => lt eng 64 && lt env.cs 3
  | .uBr _ eng env => lt eng 64 && lt env.cs 3
  | .uBrt _ eng env => lt eng 64 && lt env.cs 3
  | .uBrf _ eng env => lt eng 64 && lt env.cs 3
  | .uCall _ eng env => lt eng 64 && lt env.cs 3
  | .uRet _ eng env => lt eng 64 && lt env.cs 3
  | .uUret _ eng env => lt eng 64 && lt env.cs 3
  | .uWait _ eng env => lt eng 64 && lt env.cs 3
  | .uHalt _ eng env => lt eng 64 && lt env.cs 3
  | .uPassA _ eng env => lt eng 64 && lt env.cs 3
  | .uAdd _ eng env => lt eng 64 && lt env.cs 3
  | .uSubtract _ eng env => lt eng 64 && lt env.cs 3
  | .uAnd _ eng env => lt eng 64 && lt env.cs 3
  | .uOr _ eng env => lt eng 64 && lt env.cs 3
  | .uXor _ eng env => lt eng 64 && lt env.cs 3
  | .uShiftLeft _ eng env => lt eng 64 && lt env.cs 3
  | .uShiftRight _ eng env => lt eng 64 && lt env.cs 3
  | .uArithmeticShiftRight _ eng env => lt eng 64 && lt env.cs 3
  | .uMinimum _ eng env => lt eng 64 && lt env.cs 3
  | .uMaximum _ eng env => lt eng 64 && lt env.cs 3
  | .uMultiply _ eng env => lt eng 64 && lt env.cs 3
  | .uCrc32cStep _ eng env => lt eng 64 && lt env.cs 3
  | .uPopulationCount _ eng env => lt eng 64 && lt env.cs 3
  | .uCompare _ eng env => lt eng 64 && lt env.cs 3
  | .uDeposit _ eng env => lt eng 64 && lt env.cs 3
  | .uLoadScratch _ eng env => lt eng 64 && lt env.cs 3
  | .uStoreScratch _ eng env => lt eng 64 && lt env.cs 3
  | .uLoadEngineBus _ eng env => lt eng 64 && lt env.cs 3
  | .uStoreEngineBus _ eng env => lt eng 64 && lt env.cs 3
  | .uPopWorkQueue _ eng env => lt eng 64 && lt env.cs 3
  | .uPushWorkQueue _ eng env => lt eng 64 && lt env.cs 3
  | .uWatchdogAck _ eng env => lt eng 64 && lt env.cs 3
  | .engWatchdog _ eng => lt eng 64
  | .engFailed _ eng cause => lt eng 64 && (lt 0 cause && lt cause 6)
  | .taskMigrated _ eng => lt eng 64
  | .periodicSlice _ eng => lt eng 64
  | .overrun _ eng => lt eng 64
  | .hitlessHalfDone _ => true
  | .fwDone _ => true
  | .fwRollback _ eng => lt eng 64
  | .exportPeriod _ => true
  | .batchComplete _ target => lt target 16
  | .exportFrameTx _ target => lt target 16
  | .flowScan _ => true
  | .minuteClose _ => true
  | .swatchCapture _ => true
  | .swatchDone _ => true
  | .rateWindowEnd _ port => lt port 773
  | .sampleDma _ ring => lt ring 8
  | .cpuRxDeliver _ ring _ => lt ring 32
  | .rxHoldExpire _ queue => lt queue 48
  | .txFrameServe _ => true
  | .codewordRx _ port lane _ _ _ => lt port 4 && lt lane 8
  | .stlBlockRx _ port block => lt port 4 && block.length == 33
  | .stlFrameRx _ port cls frame _ => lt port 4 && lt cls 8 && frameOk frame
  | .flowRx _ port xoff => lt port 4 && lt xoff 256
  | .flowTx _ port => lt port 4
  | .xoffLapse _ port => lt port 4
  | .laneAdapted _ port lane => lt port 4 && lt lane 8
  | .adaptRestart _ port lane => lt port 4 && lt lane 8
  | .laneAligned _ port lane logical _ _ => lt port 4 && lt lane 8 && lt logical 8
  | .resizeTimeout _ port => lt port 4
  | .laneRestore _ port => lt port 4
  | .refMismatch _ port lane _ => lt port 4 && lt lane 8
  | .lastGaspRx _ port cause tod => lt port 4 && lt cause 16 && lt tod 0x10000000000000000
  | .hbTx _ port => lt port 4
  | .hbRx _ port _ => lt port 4
  | .hbPeriod _ => true
  | .bkpHbTx _ which => lt which 2
  | .bkpHbRx _ port _ => lt port 768
  | .bkpAliveExpire _ => true
  | .twinLinkLost _ => true
  | .standbyTimeout _ => true
  | .warmupDone _ => true
  | .linkHoldExpire _ => true
  | .announceTx _ port => (lt 1 port && lt port 4)
  | .announceRx _ port _ => (lt 1 port && lt port 4)
  | .memberExpire _ dev => lt dev 4096
  | .chainTransit _ port _ => (lt 1 port && lt port 4)
  | .chainCommandRx _ port _ => lt port 4
  | .forwardTimeout _ _ _ _ => true
  | .timeBlockTx _ port => (lt 1 port && lt port 4)
  | .timeBlockRx _ port _ => (lt 1 port && lt port 4)
  | .railGood _ rail => lt rail 6
  | .pcieLinkUp _ gen width => (lt 3 gen && lt gen 7) && (width == 1 || width == 2 || width == 4)
  | .todSecond _ => true
  | .stlRxSignal _ port lane _ => lt port 4 && lt lane 8
  | .pcsLock _ port => lt port 768
  | .anComplete _ page => lt page.port 768 && lt page.partner.gbps 2001 && lt page.partner.width 9
  | .linkTrainingDone _ port taps => lt port 768 && decide (taps.length ≤ 8) && taps.all (fun x => lt x 0x40000000)
  | .registerRead _ offset size => barOk offset && (lt 0 size && lt size 4097)
  | .vfCounterRead _ vf span => lt vf 64 && (lt 0 span.size && lt (span.offset + span.size) 0x400001)
  | .entdaa _ addr => lt addr 128
  | .returnTestDone _ kind index _ => lt kind 3 && lt index (if kind = 0 then 64 else if kind = 1 then 128 else 96)
  | .engSelfTestDone _ eng _ => lt eng 64
  | .fuseProgramDone _ => true

end Sys2Proof
end

