-- ==== Sys2Proof/Safety.lean ====
section
/-! DEFINITION. The terms in which claims about the block are stated: the conditions of the device under which a command has its effect, the checks that stand ahead of a command packet's own parameters, and what a frame leaves as it was. -/

namespace Sys2Proof.Safety

open Sys2Proof.Machine

/-- The device operates: no Varnish freeze (R388), AON power on (R376), not in the safe state (R383), no thermal trip (R364). -/
abbrev Operating (s : State) : Prop := halted s = false ∧ running s = true

/-- The always-on island acts: no Varnish freeze and AON power on. -/
abbrev Powered (s : State) : Prop := halted s = false

/-- The device operates and has reached Ready (stage 6 of Table 18.3), where every opcode is dispatched (R400). -/
abbrev Ready (s : State) : Prop := Operating s ∧ bootStage s = 6

/-- The host interface takes an access: no freeze, AON power, no thermal trip, and the cores released (BOOT_STAGE past 0), in the safe state too. -/
abbrev Served (s : State) : Prop := halted s = false ∧ s.flt.tripped = false ∧ bootStage s ≠ 0

/-- The checks that stand ahead of a packet's own parameters once it is dispatched (Table 12.4): its record, where the sequencer holds one, is dispatched, its master may send the opcode, IDEMPOTENT is 0 where the opcode refuses it, and no other master's lock of class `cls` stands against an opcode that writes. -/
def admitted (s : State) (h : Hdr) (op : Nat) (cls : Option Nat) : Bool :=
  (match outCmd s h.serial with
    | some o => o.dispatched
    | none => true) &&
  (match opInfo op with
    | some i => permitted i.kind h.kind && !(i.noIdem && h.idem) &&
        (match cls with
          | none => true
          | some c => decide (i.kind = .r) || (lockAgainst s h c).isNone)
    | none => false)

/-- A command packet has its own effect, as far as the conditions go that stand ahead of its parameters. -/
abbrev Admitted (s : State) (h : Hdr) (op : Nat) (cls : Option Nat) : Prop :=
  Ready s ∧ admitted s h op cls = true

/-- Every register outside a list of names holds what it held. -/
def RegsKept (names : List RegName) (s s' : State) : Prop :=
  ∀ n i j, n ∉ names → reg s' n i j = reg s n i j

/-- Every register outside a list of registers holds what it held. -/
def RegsKeptBut (keys : List RegKey) (s s' : State) : Prop :=
  ∀ n i j, (⟨n, i, j⟩ : RegKey) ∉ keys → reg s' n i j = reg s n i j

/-- Every register outside a list of registers and a list of names holds what it held. -/
def RegsKeptExcept (keys : List RegKey) (names : List RegName) (s s' : State) : Prop :=
  ∀ n i j, (⟨n, i, j⟩ : RegKey) ∉ keys → n ∉ names → reg s' n i j = reg s n i j

/-- The registers in which a change of parent or band that waited for a decision is put (log 81). -/
def movedRegs : List RegName := [.SCH_NODE0_Q, .SCH_NODE0_C]

/-- A state with the register words of another: what a frame says of everything else, the hidden marks, shadows and held low words among it. -/
def withWords (s' s : State) : State := { s' with rf := { s'.rf with words := s.rf.words } }

/-- A state with the registers of another, their marks and shadows too. -/
def withRegs (s' s : State) : State := { s' with rf := s.rf }

/-- Of the registers, words outside a list of registers are as they were, and nothing else of the state changed: what a state `z` that followed `s` is allowed to be. -/
def Only (keys : List RegKey) (s z : State) : Prop :=
  RegsKeptBut keys s z ∧ withWords z s = s

/-- Of the command state, nothing changed but the progress and the cursor that the record of one outstanding command reports (R96, R278). -/
def ReportedOnly (h : Hdr) (s z : State) : Prop :=
  ∃ permille cursor, z.cmd = { s.cmd with outstanding := s.cmd.outstanding.map fun o =>
    if o.serial = h.serial then { o with permille := permille, cursor := cursor } else o }

/-- The registers that recording an event can change: the SC registers of Table 17.2 with STL_REF_EVT, the class counts, the history, the safe state's entry with the flow caches that it flushes (R213), and the pending bits of MSI-X. -/
def eventRegs : List RegName :=
  [.FLT_EVT, .HIF_EVT, .CMD_EVT, .PWR_EVT, .EPOCH_EVT, .TCAM_EVT, .LEARN_EVT, .PAL_EVT, .SCH_EVT, .TEL_EVT, .CNT_EVT, .ENG_EVT,
   .MAC_EVT, .STL_EVT, .STL_REF, .STL_REF_EVT, .TWIN_EVT, .CHAIN_EVT, .CLASS_CNT, .FLT_HIST, .FLT_STAT, .HIST_TOTAL, .FLT_SAFE_EVENT,
   .FLT_SAFE_TOD, .FLOW_ACTIVE, .FLOW_EXPORTED, .MSIX_PBA]

/-- The registers that sending a reply can change: a completion ring's tail, the refusal counts, and the pending bits of MSI-X; and, for a reply that leaves by a chain port and wraps (R344), those of an event and the wrap counters. -/
def replyRegs : List RegName :=
  [.CQ_TAIL, .CMD_REFUSED_CNT, .REFUSED_CNT, .CHAIN_WRAP_CNT, .CHAIN_TTL_DROP] ++ eventRegs

/-- The commands that act in every condition of the device: AON power, RST_N and the TAP (R388, R389). -/
def actsAlways : Instr → Bool
  | .powerOn .. | .aonPowerLoss .. | .rstN .. => true
  | .idcode .. | .vstatus .. | .scanDomain .. | .memSel .. | .memData .. | .bypass .. => true
  | _ => false

/-- The commands that end the safe state (R385): RST_N, and AON power lost or applied. -/
def endsSafe : Instr → Bool
  | .powerOn .. | .aonPowerLoss .. | .rstN .. => true
  | _ => false

end Sys2Proof.Safety
end

