-- ==== Sys2Proof/Certificates/Slice0/Obligations.lean ====
section
/-! DEFINITION. The statements for the provers.  Each says what a command, or a group of commands of one shape, does in the terms of Safety.lean; a statement of a packet's command ends before its final reply (`ok`, `finish`), which `FinalReply` and `ReplyFrame` state once for all of them, and one that raises an event ends before it (`raise`), which `EventRecorded` and `EventFrame` state once. -/

open Sys2Proof Sys2Proof.Machine Sys2Proof.Safety

/-- A step takes the command at the front of the queue and runs it with the queue's rest.  The model's choices here: the queue, log 1. -/
def Obligations.StepRunsTheFrontCommand : Prop :=
  ∀ (c : Instr) (rest : List Instr) (s : State), s.pending = c :: rest → step s = exec c { s with pending := rest }

/-- Right after a power-on reset begins: every register at its reset word, TOD 0, BOOT_STAGE 0, not in the safe state, epoch 0 CURRENT and OLDEST and the others FREE, nothing in any table, queue, ring or memory, no image, no command waiting.  The model's choices here: values the spec leaves open, logs 4, 8, 13, 14. -/
def Obligations.ResetState : Prop :=
  (∀ n i j, reg State.reset n i j = resetWord ⟨n, i, j⟩) ∧
  State.reset.clk.tod = 0 ∧ bootStage State.reset = 0 ∧ isSafe State.reset = false ∧ halted State.reset = false ∧
  getF State.reset F.EPOCH_STAT_CURRENT 0 0 = 0 ∧ getF State.reset F.EPOCH_STAT_OLDEST 0 0 = 0 ∧
  (∀ n, n < 16 → epState State.reset n = if n = 0 then 2 else 0) ∧
  State.reset.tbl = {} ∧ State.reset.pal = {} ∧ State.reset.sched = {} ∧ State.reset.eng = [] ∧ State.reset.fw = {} ∧
  State.reset.cmd = {} ∧ State.reset.pending = []

/-- Warm and cold reset (R135, R112): CURRENT = OLDEST = 0, epoch 0 CURRENT and every other epoch FREE, and every table is empty. -/
def Obligations.ResetEmptiesTables : Prop :=
  ∀ (i : Instr) (s : State),
    ((∃ t, i = .rstN t ∧ s.boot.off = false) ∨ (∃ t, i = .warmResetStart t ∧ Operating s ∧ s.boot.warmPending = true)) →
    ∃ z, exec i s = .next z ∧
      getF z F.EPOCH_STAT_CURRENT 0 0 = 0 ∧ getF z F.EPOCH_STAT_OLDEST 0 0 = 0 ∧
      (∀ n, n < 16 → epState z n = if n = 0 then 2 else 0) ∧
      z.tbl.ex = [] ∧ z.tbl.lpm = [] ∧ z.tbl.tcam = [] ∧ z.tbl.mc = [] ∧ z.tbl.learnFifo = [] ∧ z.tbl.learnEng = []

/-- No command stops the block: every well-formed command answers a next state in every state.  The model's choices here: units that do not exist, log 16; rows whose condition fails, log 17. -/
def Obligations.EveryCommandAnswers : Prop :=
  ∀ (i : Instr) (s : State), i.wf = true → ∃ z, exec i s = .next z

/-- Varnish, and a device without AON power (R388): under the freeze nothing in the device changes, and it leaves only at RST_N or with AON power; the TAP alone still acts, and changes only its own instruction register and memory selection, what has left on TDO and the count of free values.  The model's choices here: the list of outputs, log 7; the TAP, log 36. -/
def Obligations.FreezeHolds : Prop :=
  ∀ (i : Instr) (s : State), i.wf = true → halted s = true →
    (actsAlways i = false → exec i s = .next s) ∧
    (actsAlways i = true → endsSafe i = false → ∃ z, exec i s = .next z ∧ z.flt = s.flt ∧
      { z with boot := { z.boot with ir := s.boot.ir, memCode := s.boot.memCode, memWord := s.boot.memWord },
               out := s.out, free := s.free, clk := s.clk } = s ∧ (s.flt.frozen = true → z.clk = s.clk))

/-- The safe state ends only at RST_N or with AON power (R385): every other command of a device that is in it leaves it there.  A host reset (PERST_N, function-level reset, D3hot, loss of the link) resets the PCIe interface alone: its rings and their registers, its shadows, and what of the CPU port's queues hangs on a ring; and in the Palette there is no copy, as entry to the safe state leaves it and every command keeps it.  Every packet is answered with SAFE_STATE (0x33, R383) and has no other effect, SYS_WARM_RESET among them. -/
def Obligations.SafeStateHolds : Prop :=
  (∀ (i : Instr) (s z : State), isSafe s = true → endsSafe i = false → ((∃ t c, i = .hostReset t c) → s.pal.copies = []) → exec i s = .next z →
    isSafe z = true ∧ (s.pal.copies = [] → z.pal.copies = [])) ∧
  (∀ (t cause : Nat) (s : State), halted s = false → isSafe s = true → s.flt.tripped = false → s.pal.copies = [] →
    ∃ z, exec (.hostReset t cause) s = .next z ∧ RegsKept [.PKT_RING_CFG, .RING_HEAD, .ABORT_CNT, .HIF_CFG, .CMD_RING_CFG] s z ∧
      { z with rf := s.rf, host := s.host, cmd := s.cmd, chain := { z.chain with forwarded := s.chain.forwarded }, sched := s.sched, out := s.out } = tick t s) ∧
  (∀ (h : Hdr) (s : State), halted s = false → isSafe s = true → s.flt.tripped = false →
    (∀ confirm, exec (.sysWarmReset h confirm) s = .next (failWith h 0x0010 0x33 0 (tick h.t s))) ∧
    (∀ p, exec (.tblInsert h p) s = .next (failWith h 0x0101 0x33 0 (tick h.t s))) ∧
    exec (.polCommit h) s = .next (failWith h 0x0202 0x33 0 (tick h.t s)) ∧
    (∀ event, exec (.fltInject h event) s = .next (failWith h 0x0704 0x33 0 (tick h.t s))) ∧
    exec (.sysInfo h) s = .next (failWith h 0x0001 0x33 0 (tick h.t s)))

/-- Recording and raising an event below class F that triggers nothing (R259, R375, R376): its bit is set in its group's SC register, SEQ advances modulo 256 with the hidden mark set, its class count advances, and its entry stands at HIST_HEAD of the history where its class is recorded, HIST_HEAD and HIST_TOTAL having advanced. -/
def Obligations.EventRecorded : Prop :=
  ∀ (ev inst syn : Nat) (s : State), s.flt.frozen = false → armedFor s ev = false → classTrips s ((evClass ev).getD 0) = false →
    (evClass ev).isSome = true → (evClass ev).getD 0 ≠ 4 → ev % 256 < 24 → ev ≠ 0x0F1D →
    let z := raise ev inst syn s
    flag z ⟨(evReg ev inst).1, ev % 256, 1⟩ (evReg ev inst).2 0 = true ∧
    getF z ⟨(evReg ev inst).1, 24, 8⟩ (evReg ev inst).2 0 = (getF s ⟨(evReg ev inst).1, 24, 8⟩ (evReg ev inst).2 0 + 1) % 256 ∧
    (⟨(evReg ev inst).1, (evReg ev inst).2, 0⟩ : RegKey) ∈ z.rf.marks ∧
    reg z .CLASS_CNT ((evClass ev).getD 0) 0 = reg s .CLASS_CNT ((evClass ev).getD 0) 0 + 1 ∧
    (getF s F.FLT_CFG_HIST_MIN_CLASS 0 0 ≤ (evClass ev).getD 0 →
      getF z F.FLT_STAT_HIST_HEAD 0 0 = (getF s F.FLT_STAT_HIST_HEAD 0 0 + 1) % 32 ∧
      reg z .HIST_TOTAL 0 0 = reg s .HIST_TOTAL 0 0 + 1 ∧
      wide z .FLT_HIST (getF s F.FLT_STAT_HIST_HEAD 0 0) 4 =
        (s.clk.tod * 2 ^ 64 + ev % 2 ^ 16 * 2 ^ 48 + (evClass ev).getD 0 % 8 * 2 ^ 45 + instShown ev inst % 2 ^ 12 * 2 ^ 32 + syn % 2 ^ 32) % 2 ^ 128) ∧
    (getF s F.FLT_CFG_HIST_MIN_CLASS 0 0 > (evClass ev).getD 0 →
      getF z F.FLT_STAT_HIST_HEAD 0 0 = getF s F.FLT_STAT_HIST_HEAD 0 0 ∧ reg z .HIST_TOTAL 0 0 = reg s .HIST_TOTAL 0 0)

/-- The frame of an event, of any class, armed or not: registers outside `eventRegs` keep their words, and nothing changes but registers and their marks, what leaves the device, the fault state, and the Palette, the queues and the flow caches, which an event clears by the safe state alone. -/
def Obligations.EventFrame : Prop :=
  ∀ (ev inst syn : Nat) (s : State),
    RegsKept eventRegs s (raise ev inst syn s) ∧
    { raise ev inst syn s with rf := s.rf, out := s.out, flt := s.flt, pal := s.pal, sched := s.sched, tele := s.tele } = s ∧
    ((evClass ev).getD 0 ≠ 4 → (raise ev inst syn s).pal = s.pal ∧ (raise ev inst syn s).sched = s.sched ∧ (raise ev inst syn s).tele = s.tele)

/-- Varnish (R387, R388): an event that is armed, or whose class reaches CLASS_MIN, is recorded and then freezes the device, VSTATUS holding the trigger, the event and TOD. -/
def Obligations.TriggerFreezes : Prop :=
  ∀ (ev inst syn : Nat) (s : State), s.flt.frozen = false → (evClass ev).isSome = true →
    (armedFor s ev = true ∨ classTrips s ((evClass ev).getD 0) = true) →
    let z := raise ev inst syn s
    z.flt.frozen = true ∧ z.flt.trigger = (if armedFor s ev then 1 else 2) ∧ z.flt.trigEvent = ev ∧ z.flt.trigTod = s.clk.tod ∧
    reg z .HIST_TOTAL 0 0 = reg s .HIST_TOTAL 0 0 + 1

/-- Entry to the safe state (R383): an event of class F that triggers no freeze sets SAFE, the cause and the event with TOD of entry, asserts FAULT_N, and clears the Palette's contents, the queues and the flow caches. -/
def Obligations.ClassFEntersTheSafeState : Prop :=
  ∀ (cause ev inst syn : Nat) (inj : Bool) (s : State), s.flt.frozen = false → isSafe s = false → cause < 16 →
    armedFor s ev = false → armedFor s Ev.FLT_SAFE_STATE = false → classTrips s 4 = false →
    let z := raiseAs cause ev 4 inst syn inj s
    isSafe z = true ∧ getF z F.FLT_STAT_SAFE_CAUSE 0 0 = cause ∧ getF z F.FLT_SAFE_EVENT_EVENT_ID 0 0 = ev % 65536 ∧
    wide z .FLT_SAFE_TOD 0 2 = s.clk.tod % 2 ^ 64 ∧ Out.pin 0 0 ∈ z.out ∧
    z.pal.pkts = [] ∧ z.pal.copies = [] ∧ z.pal.fifo = [] ∧ z.sched.queues = [] ∧ z.tele.flows = []

/-- The frame of a final reply: it changes registers of `replyRegs`, the command and host state and what leaves the device, the frames that wait at a Stretcher port under XOFF_RX (R329), and by CHAIN_WRAP what an event changes; nothing else. -/
def Obligations.ReplyFrame : Prop :=
  ∀ (h : Hdr) (op : Nat) (a : Answer) (s : State),
    RegsKept replyRegs s (finish h op a s) ∧
    { finish h op a s with rf := s.rf, out := s.out, flt := s.flt, pal := s.pal, sched := s.sched, tele := s.tele, cmd := s.cmd, host := s.host, chain := s.chain } = s ∧
    ∃ l, (finish h op a s).chain = { s.chain with held := l }

/-- The final reply to a command of a command ring (R277, R278, R286): sent when ACK_REQ is 1, the status is not OK or the opcode has reply data, and then with the command's TAG, opcode and SERIAL, the status and the data; with room in the completion ring it is written there at once, CQ_TAIL advances, and the command stops being outstanding; a command without a reply stops being outstanding and leaves nothing else. -/
def Obligations.FinalReply : Prop :=
  ∀ (h : Hdr) (op : Nat) (a : Answer) (o : OutCmd) (s : State),
    outCmd s h.serial = some o → o.kind = 0 → o.sub = h.sub → o.muted = false → h.kind = 0 →
    flag s F.CMD_RING_CFG_EN h.sub 0 = true → cqFull s h.sub = false → (cmdRing s h.sub).waiting = [] → getF s F.CMD_RING_CFG_CQ_SIZE_LOG2 h.sub 0 ≤ 12 →
    let z := finish h op a s
    let sent := h.ackReq || decide (a.status ≠ 0) || (opInfo op).any OpInfo.data
    (sent = true → ∃ r : Reply, Out.reply 0 h.sub r ∈ z.out ∧ r.tag = h.tag ∧ r.opcode = op ∧ r.serial = h.serial ∧ r.status = a.status ∧
      r.rdata = a.data ∧ r.detail = a.detail ∧ r.cursor = a.cursor ∧ r.errOffset = a.off ∧ r.execTs = s.clk.tod ∧
      getF z F.CQ_TAIL_TAIL h.sub 0 = (getF s F.CQ_TAIL_TAIL h.sub 0 + 1) % cqSize s h.sub) ∧
    (sent = false → z = dropOut h.serial s) ∧
    outCmd z h.serial = none

/-- Information and locks (R278, R285, Table 12.9).  SYS_INFO answers 32 bytes: the image in force, the firmware's version, the SERIAL to be given next, the commands outstanding, PROGRESS and DEV_ID; SYS_NOP answers OK alone; SYS_PROGRESS answers for the oldest outstanding command of a TAG and a master, or NOT_FOUND.  OBJ_LOCK takes a class that is free or renews the sender's own, and is LOCKED with the holder as DETAIL where another master holds it; OBJ_UNLOCK ends the sender's; OBJ_LOCK_QUERY answers 8 bytes for each of 8 classes.  Only OBJ_LOCK and OBJ_UNLOCK change anything before their replies, and only the class's LOCK_STAT and lease.  The model's choices here: SYS_PROGRESS of itself, log 66.  Completes: `sysInfo`, `sysNop`, `sysProgress`, `objLock`, `objUnlock`, `objLockQuery`. -/
def Obligations.SystemCommands : Prop :=
  (∀ (h : Hdr) (s : State), Admitted s h 0x0001 none → ∃ d, exec (.sysInfo h) s = .next (finish h 0x0001 { data := d } (tick h.t s)) ∧
    d.length = 32 ∧ leAt d 0 4 = (reg s .PIPE_IMG_ID 0 0).toNat ∧ leAt d 4 4 = (reg s .FW_RUN_VER 0 0).toNat ∧
    leAt d 8 8 = (wide s .CMD_SERIAL 0 2 + 1) % 2 ^ 64 ∧ leAt d 16 2 = s.cmd.outstanding.length % 65536 ∧
    leAt d 18 1 = getF s F.RST_STAT_PROGRESS 0 0 ∧ leAt d 20 2 = devId s) ∧
  (∀ (h : Hdr) (s : State), Admitted s h 0x0002 none → exec (.sysNop h) s = .next (ok h 0x0002 (tick h.t s))) ∧
  (∀ (h : Hdr) (tag m : Nat) (o : OutCmd) (s : State), Admitted s h 0x0003 none → o ∈ s.cmd.outstanding →
    o.tag = tag → masterId o.kind o.sub = m →
    (∀ q ∈ s.cmd.outstanding, q.tag = tag → masterId q.kind q.sub = m → q ≠ o → o.serial < q.serial) →
    ∃ d, exec (.sysProgress h tag m) s = .next (finish h 0x0003 { data := d } (tick h.t s)) ∧ d.length = 24 ∧
      leAt d 0 2 = (if (opInfo o.opcode).any OpInfo.prog then o.permille % 65536 else 65535) ∧ leAt d 2 2 = o.opcode % 65536 ∧
      leAt d 8 8 = o.serial % 2 ^ 64 ∧ leAt d 16 8 = o.cursor % 2 ^ 64) ∧
  (∀ (h : Hdr) (tag m : Nat) (s : State), Admitted s h 0x0003 none → (∀ q ∈ s.cmd.outstanding, q.tag = tag → masterId q.kind q.sub ≠ m) →
    exec (.sysProgress h tag m) s = .next (failWith h 0x0003 0x21 0 (tick h.t s))) ∧
  (∀ (h : Hdr) (cls lease : Nat) (s : State), Admitted s h 0x0004 none → h.kind < 16 → cls ≤ 7 → 1 ≤ lease → lease ≤ 60000 →
    let me := masterId h.kind h.sub
    let held := flag s F.LOCK_STAT_HELD cls 0
    let holder := getF s F.LOCK_STAT_HOLDER cls 0
    (held = true → sameMaster holder me = false → exec (.objLock h cls lease) s = .next (failWith h 0x0004 0x32 holder (tick h.t s))) ∧
    (held = false ∨ sameMaster holder me = true → ∃ z, exec (.objLock h cls lease) s = .next (ok h 0x0004 z) ∧
      flag z F.LOCK_STAT_HELD cls 0 = true ∧ getF z F.LOCK_STAT_HOLDER cls 0 = (if held then holder else me) ∧
      (∃ k, tget z.cmd.locks cls = some k ∧ k.expiry = (tick h.t s).clk.mono + lease * 1000000 ∧ (held = false → k.serial = h.serial)) ∧
      (∀ c, c ≠ cls → tget z.cmd.locks c = tget s.cmd.locks c) ∧
      Only [⟨.LOCK_STAT, cls, 0⟩] (tick h.t s) { z with cmd := s.cmd } ∧ { z.cmd with locks := s.cmd.locks } = s.cmd)) ∧
  (∀ (h : Hdr) (cls : Nat) (s : State), Admitted s h 0x0005 none → cls ≤ 7 →
    let me := masterId h.kind h.sub
    let held := flag s F.LOCK_STAT_HELD cls 0
    let holder := getF s F.LOCK_STAT_HOLDER cls 0
    (held = false → exec (.objUnlock h cls) s = .next (failWith h 0x0005 0x21 0 (tick h.t s))) ∧
    (held = true → sameMaster holder me = false → exec (.objUnlock h cls) s = .next (failWith h 0x0005 0x32 holder (tick h.t s))) ∧
    (held = true → sameMaster holder me = true → ∃ z, exec (.objUnlock h cls) s = .next (ok h 0x0005 z) ∧
      flag z F.LOCK_STAT_HELD cls 0 = false ∧ tget z.cmd.locks cls = none ∧ (∀ c, c ≠ cls → tget z.cmd.locks c = tget s.cmd.locks c) ∧
      Only [⟨.LOCK_STAT, cls, 0⟩] (tick h.t s) { z with cmd := s.cmd } ∧ { z.cmd with locks := s.cmd.locks } = s.cmd)) ∧
  (∀ (h : Hdr) (s : State), Admitted s h 0x0006 none → ∃ d, exec (.objLockQuery h) s = .next (finish h 0x0006 { data := d } (tick h.t s)) ∧
    d.length = 64 ∧ ∀ c, c < 8 →
      leAt d (8 * c) 2 = (if flag s F.LOCK_STAT_HELD c 0 then getF s F.LOCK_STAT_HOLDER c 0 else 0xFFFF) ∧
      (flag s F.LOCK_STAT_HELD c 0 = true →
        leAt d (8 * c + 4) 4 = ((tgetD s.cmd.locks c ⟨0, 0⟩).expiry - (tick h.t s).clk.mono) / 1000000 % 2 ^ 32))

/-- Fuses and the warm reset (R396, R405, R406, R407).  SYS_WARM_RESET with its confirmation answers, and the warm reset is then due; WARM_RESET_START begins it: boot resumes at IMAGE (stage 3) with LAST_RESET 2, no command is outstanding and no engine runs.  A FUSE_PROGRAM whose change is permitted is refused with NOT_PERMITTED where AUTH holds for no signer, and otherwise is in progress under its signer with nothing changed yet; FUSE_PROGRAM_DONE appends its entry to the log and answers the log's length after it.  The model's choices here: the course of a fuse change, log 42; opaque signatures, log 5.  Completes: `sysWarmReset`, `warmResetStart`, `fuseProgramPowerCeiling`, `fuseProgramOwnerEnrol`, `fuseProgramOwnerRevoke`, `fuseProgramLaneLicense`, `fuseProgramInbandKey`, `fuseProgramDone`, `fuseLogRead`. -/
def Obligations.FusesAndWarmReset : Prop :=
  (∀ (h : Hdr) (s : State), Admitted s h 0x0010 none → ∃ z, exec (.sysWarmReset h 0x57525354) s = .next z ∧ z.boot.warmPending = true ∧
    { z with boot := { z.boot with warmPending := (ok h 0x0010 (tick h.t s)).boot.warmPending } } = ok h 0x0010 (tick h.t s)) ∧
  (∀ (h : Hdr) (confirm : Nat) (s : State), Admitted s h 0x0010 none → confirm ≠ 0x57525354 →
    exec (.sysWarmReset h confirm) s = .next (badParam h 0x0010 32 (tick h.t s))) ∧
  (∀ (t : Nat) (s : State), Operating s → s.boot.warmPending = true → ∃ z, exec (.warmResetStart t) s = .next z ∧
    z.boot.warmPending = false ∧ getF z F.RST_STAT_LAST_RESET 0 0 = 2 ∧ bootStage z = 3 ∧ z.cmd.outstanding = [] ∧ z.eng = [] ∧
    z.fuse.op = none ∧ (s.fuse.op = none → z.fuse.log = s.fuse.log)) ∧
  (∀ (fuse : Nat) (c : Hdr → FuseParams → Instr) (h : Hdr) (p : FuseParams) (s : State),
    (fuse, c) ∈ [(0, Instr.fuseProgramPowerCeiling), (1, .fuseProgramOwnerEnrol), (1, .fuseProgramOwnerRevoke), (2, .fuseProgramLaneLicense),
      (3, .fuseProgramInbandKey)] →
    Admitted s h 0x0020 none → fuseChecks fuse p = none → s.fuse.op = none → fuseAllowed s fuse p = true →
    exec (c h p) s = .next (match fuseSigner s fuse p with
      | none => failWith h 0x0020 0x15 0 (tick h.t s)
      | some w => { tick h.t s with fuse := { s.fuse with op := some ⟨fuse, p.value, p.key, w, h, (tick h.t s).clk.mono⟩ } })) ∧
  (∀ (t : Nat) (op : FuseOp) (s : State), Operating s → s.fuse.op = some op → ∃ z, exec (.fuseProgramDone t) s =
      .next (finishOpen op.cmd 0x0020 { data := leBytes 4 (s.fuse.log.length + 1) } z) ∧
    z.fuse.op = none ∧ z.fuse.log.length = s.fuse.log.length + 1 ∧ z.fuse.log.take s.fuse.log.length = s.fuse.log ∧
    (∃ e, z.fuse.log[s.fuse.log.length]? = some e ∧ e.fuse = op.fuse ∧ e.signer = op.signer ∧
      e.tod = (if flag s F.TOD_CTL_VALID 0 0 then (tick t s).clk.tod else 0)) ∧
    (op.fuse = 0 → z.fuse.ceiling = op.value ∧ z.fuse.licence = s.fuse.licence ∧ z.fuse.slots = s.fuse.slots ∧ z.fuse.ibKey = s.fuse.ibKey) ∧
    (op.fuse = 2 → z.fuse.licence = op.value ∧ z.fuse.ceiling = s.fuse.ceiling ∧ z.fuse.slots = s.fuse.slots ∧ z.fuse.ibKey = s.fuse.ibKey) ∧
    (op.fuse = 3 → z.fuse.ibKey = op.key ∧ z.fuse.ceiling = s.fuse.ceiling ∧ z.fuse.licence = s.fuse.licence ∧ z.fuse.slots = s.fuse.slots)) ∧
  (∀ (h : Hdr) (first : Nat) (s : State), Admitted s h 0x0021 none → h.kind ≠ 1 → h.kind ≠ 2 →
    exec (.fuseLogRead h first) s =
      .next (finish h 0x0021 { data := ((s.fuse.log.drop first).take 16).flatMap fuseEntryBytes } (tick h.t s)))

/-- Inserting and deleting entries (R91, R92, R104, R110).  TBL_INSERT of a key that an exact-match table does not hold answers TABLE_FULL_REHASH and changes nothing where the insert procedure finds no place, and otherwise leaves an entry with the key, the data, STATIC as asked and ORIGIN 0, in a versioned table with VALID_FROM = PENDING; a key already there is KEY_EXISTS without REPLACE.  TBL_DELETE of an entry of a dynamic table removes that entry alone, of the overflow store without any other moving; in a versioned table it removes an entry that the staged version inserted and ends another one at the pending epoch, a prefix likewise; of an absent key it is NOT_FOUND.  A prefix is inserted into an LPM table below its rated count with its address bits beyond the length taken as zero, and deleted by the same bits.  An insert or delete in a versioned table with no version staged is NOT_PERMITTED.  No such command changes another table.  The model's choices here: the instant and the slot, log 60; key bytes, log 31.  Completes: `tblInsert`, `tblDelete`. -/
def Obligations.TableEntries : Prop :=
  (∀ (h : Hdr) (p : TblKey) (d : ExactDef) (s : State), Admitted s h 0x0101 (tblClass s p.table) → exDef s p.table = some d →
    keyChecks s p true = none → (d.versioned = true → isStaged s = true) →
    let t := exTab s d.id
    (exCurrent d t p.key = none → placeKey d t (placeCands s d t p.key) (seedCur s d.id) = none →
      exec (.tblInsert h p) s = .next (tableFull h 0x0101 d.id (tick h.t s))) ∧
    (∀ q, exCurrent d t p.key = none → placeKey d t (placeCands s d t p.key) (seedCur s d.id) = some q →
      ∃ z, exec (.tblInsert h p) s = .next (ok h 0x0101 z) ∧
        (∃ e, (exTab z d.id).ents = q.ents ++ [e] ∧ e.key = p.key ∧ e.data = p.data ∧ e.static = p.static ∧ e.origin = 0 ∧ e.region = q.region ∧
          e.pos = q.pos ∧ e.openEnd = true ∧ (d.versioned = true → e.vfrom = pendEpoch s)) ∧
        q.ents.map (fun x => (x.key, x.data, x.vfrom)) = t.ents.map (fun x => (x.key, x.data, x.vfrom)) ∧
        (∀ id, id ≠ d.id → exTab z id = exTab s id) ∧ { z.tbl with ex := s.tbl.ex, winUsed := s.tbl.winUsed } = s.tbl ∧
        RegsKept ([.TBL_STAT0, .TBL_STAT1, .TBL_STAT2, .TBL_STAT3] ++ eventRegs) s z ∧
        (hashState s d.id ≠ 2 → { z with rf := s.rf, tbl := s.tbl, free := s.free } = tick h.t s)) ∧
    (∀ e, exCurrent d t p.key = some e → p.replace = false →
      exec (.tblInsert h p) s = .next (failWith h 0x0101 0x22 0 (tick h.t s))) ∧
    (∀ e, exCurrent d t p.key = some e → p.replace = true → d.versioned = false ∨ stagedEntry s e.vfrom = true →
      ∃ z, exec (.tblInsert h p) s = .next (ok h 0x0101 z) ∧
        (exTab z d.id).ents = t.ents.map (fun x => if x = e then { e with data := p.data, static := p.static, origin := 0, hit := freshHits d t } else x) ∧
        (∀ id, id ≠ d.id → exTab z id = exTab s id) ∧ { z.tbl with ex := s.tbl.ex, winUsed := s.tbl.winUsed } = s.tbl)) ∧
  (∀ (h : Hdr) (p : TblKey) (d : ExactDef) (s : State), Admitted s h 0x0102 (tblClass s p.table) → exDef s p.table = some d →
    keyChecks s p false = none → d.versioned = false →
    (exCurrent d (exTab s d.id) p.key = none → exec (.tblDelete h p) s = .next (failWith h 0x0102 0x21 0 (tick h.t s))) ∧
    (∀ e, exCurrent d (exTab s d.id) p.key = some e → ∃ z, exec (.tblDelete h p) s = .next (ok h 0x0102 z) ∧
      (e.region = 2 → (exTab z d.id).ents = (exTab s d.id).ents.filter (fun x => x ≠ e)) ∧
      (exTab z d.id).ents.map (fun x => (x.key, x.data)) = ((exTab s d.id).ents.filter (fun x => x ≠ e)).map (fun x => (x.key, x.data)) ∧
      (∀ id, id ≠ d.id → exTab z id = exTab s id) ∧ { z.tbl with ex := s.tbl.ex, winUsed := s.tbl.winUsed } = s.tbl ∧
      RegsKept ([.TBL_STAT0, .TBL_STAT1, .TBL_STAT2, .TBL_STAT3, .OVF_DRAIN] ++ eventRegs) s z ∧
      (hashState s d.id ≠ 2 → { z with rf := s.rf, tbl := s.tbl } = tick h.t s))) ∧
  (∀ (h : Hdr) (p : TblKey) (d : ExactDef) (e : ExEnt) (s : State), Admitted s h 0x0102 (some 1) → exDef s p.table = some d →
    keyChecks s p false = none → d.versioned = true → isStaged s = true → exCurrent d (exTab s d.id) p.key = some e →
    ∃ z, exec (.tblDelete h p) s = .next (ok h 0x0102 z) ∧
      (exTab z d.id).ents = (if e.vfrom = pendEpoch s then (exTab s d.id).ents.filter (fun x => x ≠ e)
        else (exTab s d.id).ents.map (fun x => if x = e then { e with vuntil := pendEpoch s, openEnd := false } else x)) ∧
      (∀ id, id ≠ d.id → exTab z id = exTab s id) ∧ { z.tbl with ex := s.tbl.ex, winUsed := s.tbl.winUsed, undo := s.tbl.undo } = s.tbl) ∧
  (∀ (h : Hdr) (p : TblKey) (d : ExactDef) (s : State), exDef s p.table = some d → d.versioned = true → isStaged s = false →
    (Admitted s h 0x0101 (some 1) → keyChecks s p true = none → exec (.tblInsert h p) s = .next (failWith h 0x0101 0x15 0 (tick h.t s))) ∧
    (Admitted s h 0x0102 (some 1) → keyChecks s p false = none → exec (.tblDelete h p) s = .next (failWith h 0x0102 0x15 0 (tick h.t s)))) ∧
  (∀ (h : Hdr) (p : TblKey) (d : LpmDef) (s : State), Admitted s h 0x0101 (some 1) → exDef s p.table = none → lpmDef s p.table = some d →
    keyChecks s p true = none → isStaged s = true →
    let tri := p.key / 2 ^ lpmBits d
    let addr := cutAddr d (p.key % 2 ^ lpmBits d) p.prefixLen
    (lpmTab s d.id).ents.all (fun e => !(e.tri == tri && e.addr == addr && e.plen == p.prefixLen && e.openEnd)) = true →
    (lpmTab s d.id).ents.length < min d.rated d.ratedLong →
    ∃ z, exec (.tblInsert h p) s = .next (ok h 0x0101 z) ∧ (∃ e, (lpmTab z d.id).ents = (lpmTab s d.id).ents ++ [e] ∧ e.tri = tri ∧ e.addr = addr ∧
        e.plen = p.prefixLen ∧ e.data = p.data ∧ e.static = p.static ∧ e.vfrom = pendEpoch s ∧ e.openEnd = true) ∧
      (∀ id, id ≠ d.id → lpmTab z id = lpmTab s id) ∧ { z.tbl with lpm := s.tbl.lpm } = s.tbl ∧
      Only [⟨.TBL_STAT1, d.id, 0⟩] (drawn (tick h.t s)) { z with tbl := s.tbl }) ∧
  (∀ (h : Hdr) (p : TblKey) (d : LpmDef) (s : State), Admitted s h 0x0102 (some 1) → exDef s p.table = none → lpmDef s p.table = some d →
    keyChecks s p false = none → isStaged s = true →
    let tri := p.key / 2 ^ lpmBits d
    let addr := cutAddr d (p.key % 2 ^ lpmBits d) p.prefixLen
    let same (e : LpmEnt) : Bool := e.tri == tri && e.addr == addr && e.plen == p.prefixLen && e.openEnd
    ((lpmTab s d.id).ents.find? same = none → exec (.tblDelete h p) s = .next (failWith h 0x0102 0x21 0 (tick h.t s))) ∧
    (∀ e, (lpmTab s d.id).ents.find? same = some e → ∃ z, exec (.tblDelete h p) s = .next (ok h 0x0102 z) ∧
      (lpmTab z d.id).ents = (if e.vfrom = pendEpoch s then (lpmTab s d.id).ents.filter (fun x => x ≠ e)
        else (lpmTab s d.id).ents.map (fun x => if x = e then { x with vuntil := pendEpoch s, openEnd := false } else x)) ∧
      (∀ id, id ≠ d.id → lpmTab z id = lpmTab s id) ∧ { z.tbl with lpm := s.tbl.lpm, undo := s.tbl.undo } = s.tbl ∧
      Only [⟨.TBL_STAT1, d.id, 0⟩] (tick h.t s) { z with tbl := s.tbl }))

/-- Reading tables (R104, R105, R106, R347, R348).  TBL_SEARCH answers the records of the entries the epoch in force and the staged version see, or NOT_FOUND; chain-wide in a device that is alone it answers them with its DEV_ID in front, and with a member below it, it asks that member.  TBL_NEXT answers the records from its cursor on with the cursor behind them, and a cursor of another GEN is CURSOR_STALE (0x23) with the present one as DETAIL; chain-wide a cursor of another membership generation is TOPOLOGY_CHANGED (0x30).  None changes a table.  The model's choices here: the walk as one step, log 60; the chain-wide query, log 51.  Completes: `tblSearch`, `tblSearchChainWide`, `tblNext`, `tblNextChainWide`. -/
def Obligations.TableReads : Prop :=
  (∀ (h : Hdr) (p : TblKey) (s : State), Admitted s h 0x0103 none → keyChecks s p false = none →
    exec (.tblSearch h p) s = .next (if searchRecords s p = [] then failWith h 0x0103 0x21 0 (tick h.t s)
      else finish h 0x0103 { data := (searchRecords s p).flatMap id } (tick h.t s))) ∧
  (∀ (p : TblKey) (d : ExactDef) (e : ExEnt) (s : State), exDef s p.table = some d → d.versioned = false →
    (exTab s d.id).ents.filter (fun x => x.key == p.key) = [e] → searchRecords s p = [exRecord d (exTab s d.id) e]) ∧
  (∀ (h : Hdr) (p : TblKey) (s : State), Admitted s h 0x0103 none → keyChecks s p false = none → s.chain.members = [] →
    ∃ z, exec (.tblSearchChainWide h p) s = .next (finish h 0x0103
        (if searchRecords s p = [] then { status := 0x21 } else { data := ((searchRecords s p).map (wideRecord (devId s))).flatMap id }) z) ∧
      { z with chain := s.chain } = tick h.t s ∧ (s.chain.wides = [] → s.chain.forwarded = [] → z = tick h.t s)) ∧
  (∀ (h : Hdr) (p : TblKey) (d : Nat) (s : State), Admitted s h 0x0103 none → keyChecks s p false = none → nextDev s 0 = some d → d ≠ devId s →
    ∃ z, exec (.tblSearchChainWide h p) s = .next z ∧ z.tbl = s.tbl ∧ (∃ w ∈ z.chain.wides, w.cmd = h ∧ w.search = some p ∧ w.dev = d ∧ w.recs = []) ∧
      z.chain.sent = s.chain.sent + 1) ∧
  (∀ (h : Hdr) (p : TblNext) (start : Nat) (s : State), Admitted s h 0x0104 none → nextChecks s p = none →
    (p.cursor = 0 ∧ start = 0 ∨ bits p.cursor 42 6 = p.table ∧ walkPos s p.table (bits p.cursor 40 2) (bits p.cursor 0 40) = some start) →
    let gen := getF s F.TBL_STAT0_GEN p.table 0
    (p.cursor ≠ 0 → bits p.cursor 48 16 ≠ gen → exec (.tblNext h p) s = .next (failWith h 0x0104 0x23 gen (tick h.t s))) ∧
    (p.cursor = 0 ∨ bits p.cursor 48 16 = gen →
      let r := walkStep s p start (fitMax s h 0 40 p.max)
      exec (.tblNext h p) s = .next (finish h 0x0104 { data := r.1.flatMap id, cursor := cursorOf s p.table r.2 } (tick h.t s)))) ∧
  (∀ (h : Hdr) (p : TblNext) (s : State), Admitted s h 0x0104 none → nextChecks s p = none → p.cursor ≠ 0 → bits p.cursor 44 8 ≠ mgen s % 256 →
    bits p.cursor 52 12 ≠ devId s →
    ∃ cursor, exec (.tblNextChainWide h p) s = .next (finish h 0x0104 { status := 0x30, detail := mgen s, cursor := cursor } (tick h.t s))) ∧
  (∀ (h : Hdr) (p : TblNext) (s : State), Admitted s h 0x0104 none → nextChecks s p = none → p.cursor = 0 → s.chain.members = [] →
    ∃ z data cursor, exec (.tblNextChainWide h p) s = .next (finish h 0x0104 { data := data, cursor := cursor } z) ∧ { z with chain := s.chain } = tick h.t s)

/-- Background operations and aging (R94, R95, R97, R103, R108).  TBL_FLUSH_PORT and TBL_REHASH are BUSY while the table has an operation or 16 run; otherwise they start one that has visited nothing, and a rehash of an exact-match table puts its seed into the register not in use, which becomes the one in use, with HASH_STATE MIGRATE (1); of an LPM table it starts the repack.  TBL_AGE_CFG keeps AGE_TICKS, SWEEP_TICKS and AGE_EN for the next tick and a changed TICK_MS for the next sweep, with nothing in force changed yet.  The model's choices here: the walk as one step, log 60.  Completes: `tblFlushPort`, `tblRehash`, `tblAgeCfg`. -/
def Obligations.TableOperations : Prop :=
  (∀ (h : Hdr) (p : TblFlush) (d : ExactDef) (s : State), exDef s p.table = some d → Admitted s h 0x0105 (tblClass s p.table) → flushChecks s p = none →
    let idle := (exTab s p.table).bg = none ∧ hashState s p.table ≠ 1 ∧ bgCount s < 16
    (¬ idle → exec (.tblFlushPort h p) s = .next (failWith h 0x0105 0x24 0 (tick h.t s))) ∧
    (idle → ∃ z, exec (.tblFlushPort h p) s = .next (background h z) ∧
      (exTab z p.table).bg = some ⟨true, 0, allSlots d, some p, 0, some h⟩ ∧ (exTab z p.table).ents = (exTab s p.table).ents ∧
      (∀ id, id ≠ p.table → exTab z id = exTab s id) ∧ { z.tbl with ex := s.tbl.ex } = s.tbl ∧
      getF z F.TBL_STAT0_BG_OP p.table 0 = 2 ∧ getF z F.TBL_STAT0_PERMILLE p.table 0 = 0 ∧ ReportedOnly h s z ∧
      Only [⟨.TBL_STAT0, p.table, 0⟩] (tick h.t s) { z with tbl := s.tbl, cmd := s.cmd })) ∧
  (∀ (h : Hdr) (table seed : Nat) (d : ExactDef) (s : State), exDef s table = some d → Admitted s h 0x0106 (tblClass s table) → seed < 2 ^ 32 → seedCur s table ≤ 1 →
    let idle := (exTab s table).bg = none ∧ hashState s table = 0 ∧ bgCount s < 16
    (¬ idle → lpmDef s table = none → exec (.tblRehash h table seed) s = .next (failWith h 0x0106 0x24 0 (tick h.t s))) ∧
    (idle → lpmDef s table = none → ∃ z, exec (.tblRehash h table seed) s = .next (background h z) ∧
      seedCur z table = 1 - seedCur s table ∧ (if seedCur s table = 0 then (exTab z table).seedB = seed ∧ (exTab z table).seedA = (exTab s table).seedA
        else (exTab z table).seedA = seed ∧ (exTab z table).seedB = (exTab s table).seedB) ∧
      hashState z table = 1 ∧ getF z F.TBL_STAT0_BG_OP table 0 = 1 ∧ (exTab z table).ents = (exTab s table).ents ∧
      (exTab z table).bg = some ⟨false, 0, 2 * halfBuckets d + 8192, none, 0, some h⟩ ∧ (∀ id, id ≠ table → exTab z id = exTab s id) ∧
      { z.tbl with ex := s.tbl.ex } = s.tbl ∧ ReportedOnly h s z ∧
      Only [⟨.TBL_STAT0, table, 0⟩, ⟨.TBL_STAT3, table, 0⟩] (tick h.t s) { z with tbl := s.tbl, cmd := s.cmd })) ∧
  (∀ (h : Hdr) (table : Nat) (d : LpmDef) (s : State), exDef s table = none → lpmDef s table = some d → Admitted s h 0x0106 (some 1) →
    let idle := (lpmTab s table).bg = none ∧ hashState s table = 0 ∧ bgCount s < 16
    (¬ idle → exec (.tblRehash h table 0) s = .next (failWith h 0x0106 0x24 0 (tick h.t s))) ∧
    (idle → ∃ z, exec (.tblRehash h table 0) s = .next (background h z) ∧ (lpmTab z table).ents = (lpmTab s table).ents ∧
      (lpmTab z table).bg = some ⟨false, 0, walkEnd s table, none, 0, some h⟩ ∧ getF z F.TBL_STAT0_BG_OP table 0 = 1 ∧
      { z.tbl with lpm := s.tbl.lpm } = s.tbl ∧ ReportedOnly h s z ∧ Only [⟨.TBL_STAT0, table, 0⟩] (tick h.t s) { z with tbl := s.tbl, cmd := s.cmd }) ∧
    (∀ seed, seed ≠ 0 → exec (.tblRehash h table seed) s = .next (badParam h 0x0106 36 (tick h.t s)))) ∧
  (∀ (h : Hdr) (table tickMs ageTicks sweepTicks : Nat) (en : Bool) (d : ExactDef) (s : State), exDef s table = some d → d.ageable = true →
    Admitted s h 0x0107 (tblClass s table) → 1 ≤ tickMs → tickMs ≤ 1000 → 1 ≤ ageTicks → ageTicks ≤ 32767 → 1 ≤ sweepTicks → sweepTicks ≤ 256 →
    ∃ z, exec (.tblAgeCfg h table en tickMs ageTicks sweepTicks) s = .next (ok h 0x0107 z) ∧
      (exTab z table).age.newSet = some (ageTicks, sweepTicks, en) ∧ (exTab z table).age.newTick.getD (exTab s table).age.tickMs = tickMs ∧
      { exTab z table with age := { (exTab z table).age with newSet := (exTab s table).age.newSet, newTick := (exTab s table).age.newTick } } = exTab s table ∧
      (∀ id, id ≠ table → exTab z id = exTab s id) ∧ { z with tbl := { z.tbl with ex := s.tbl.ex } } = tick h.t s)

/-- Multicast groups (R167).  MC_GROUP_WRITE replaces the targets from a position on, with TRUNCATE the rest of the list too, answers the list's new length as DETAIL and keeps MC_STAT.USED the number of targets in use; MC_GROUP_READ answers the list's length and up to MAX targets from a position.  Completes: `mcGroupWrite`, `mcGroupRead`. -/
def Obligations.MulticastGroups : Prop :=
  (∀ (h : Hdr) (group first : Nat) (truncate : Bool) (targets : List Nat) (s : State), Admitted s h 0x0110 (some 0) → group ≤ 65535 →
    first ≤ (mcGroup s group).length → first + targets.length ≤ 4095 → targets.length ≤ 48 → targets.any mcBadTarget = false →
    let old := mcGroup s group
    let new := old.take first ++ targets ++ (if truncate then [] else old.drop (first + targets.length))
    let used := getF s F.MC_STAT_USED 0 0
    (1048576 < used + new.length - old.length →
      exec (.mcGroupWrite h group first truncate targets) s = .next (failWith h 0x0110 0x27 (1048576 - used) (tick h.t s))) ∧
    (used + new.length - old.length ≤ 1048576 → ∃ z, exec (.mcGroupWrite h group first truncate targets) s = .next (finish h 0x0110 { detail := new.length } z) ∧
      mcGroup z group = new ∧ (∀ g, g ≠ group → mcGroup z g = mcGroup s g) ∧ getF z F.MC_STAT_USED 0 0 = used + new.length - old.length ∧
      Only [⟨.MC_STAT, 0, 0⟩] (tick h.t s) { z with tbl := s.tbl } ∧ { z.tbl with mc := s.tbl.mc } = s.tbl)) ∧
  (∀ (h : Hdr) (group first max : Nat) (s : State), Admitted s h 0x0111 none → group ≤ 65535 → 1 ≤ max → max ≤ 48 →
    let l := mcGroup s group
    let part := (l.drop first).take max
    let next := if first + part.length < l.length then first + part.length else 0
    exec (.mcGroupRead h group first max) s =
      .next (finish h 0x0111 { data := leBytes 2 l.length ++ [0, 0] ++ part.flatMap (leBytes 4), cursor := next } (tick h.t s)))

/-- Staging, committing and aborting a policy version (R130, R131, R132).  POL_STAGE is BUSY while a version is staged and EPOCH_BUSY while the next epoch number is not FREE; otherwise STAGED is set with PENDING = CURRENT + 1 modulo 16.  POL_COMMIT of a staged version waits for the strobe with nothing changed.  With nothing staged POL_COMMIT stages an empty version first, or is EPOCH_BUSY while the next epoch number is not FREE.  POL_ABORT frees the pending epoch, clears STAGED, and leaves no entry that the version inserted.  Completes: `polStage`, `polCommit`, `polAbort`. -/
def Obligations.PolicyVersions : Prop :=
  (∀ (h : Hdr) (s : State), Admitted s h 0x0201 (some 1) →
    let next := (curEpoch s + 1) % 16
    (isStaged s = true → exec (.polStage h) s = .next (failWith h 0x0201 0x24 0 (tick h.t s))) ∧
    (isStaged s = false → epState s next ≠ 0 →
      exec (.polStage h) s = .next (failWith h 0x0201 0x25 (oldEpoch s) (raise0 Ev.EPOCH_BUSY_REFUSED (tick h.t s)))) ∧
    (isStaged s = false → epState s next = 0 → ∃ z, exec (.polStage h) s = .next z ∧ isStaged z = true ∧ pendEpoch z = next ∧
      { z.tbl with undo := s.tbl.undo, rewriteDone := s.tbl.rewriteDone, stageCmd := s.tbl.stageCmd } = s.tbl ∧
      z.tbl.stageCmd = some h ∧ z.tbl.rewriteDone = false ∧ z.tbl.undo = [] ∧
      Only [⟨.EPOCH_STAT, 0, 0⟩] (tick h.t s) { z with tbl := s.tbl })) ∧
  (∀ (h : Hdr) (s : State), Admitted s h 0x0202 (some 1) →
    (isStaged s = true → exec (.polCommit h) s = .next { tick h.t s with tbl := { s.tbl with commitCmd := some h } }) ∧
    (isStaged s = false → epState s ((curEpoch s + 1) % 16) ≠ 0 →
      exec (.polCommit h) s = .next (failWith h 0x0202 0x25 (oldEpoch s) (raise0 Ev.EPOCH_BUSY_REFUSED (tick h.t s)))) ∧
    (isStaged s = false → epState s ((curEpoch s + 1) % 16) = 0 → ∃ z, exec (.polCommit h) s = .next z ∧ isStaged z = true ∧
      pendEpoch z = (curEpoch s + 1) % 16 ∧ z.tbl.commitCmd = some h ∧ z.tbl.rewriteDone = false ∧ z.tbl.undo = [] ∧
      { z.tbl with undo := s.tbl.undo, rewriteDone := s.tbl.rewriteDone, commitCmd := s.tbl.commitCmd } = s.tbl ∧
      Only [⟨.EPOCH_STAT, 0, 0⟩] (tick h.t s) { z with tbl := s.tbl })) ∧
  (∀ (h : Hdr) (s : State), Admitted s h 0x0203 (some 1) →
    (isStaged s = false → exec (.polAbort h) s = .next (failWith h 0x0203 0x21 0 (tick h.t s))) ∧
    (isStaged s = true → ∃ z, exec (.polAbort h) s = .next (ok h 0x0203 z) ∧ isStaged z = false ∧ epState z (pendEpoch s) = 0 ∧
      z.tbl.undo = [] ∧ (s.tbl.image.isSome = true → ∀ e ∈ z.tbl.tcam, e.vfrom ≠ pendEpoch s)))

/-- Policy table entries (R118, R119, R120, R130).  With no version staged TCAM_INSERT and TCAM_DELETE are NOT_PERMITTED.  TCAM_INSERT is TCAM_FULL with a pipeline of its scope that has no row free, and otherwise adds one entry of the pending epoch with the parameters and the command's SERIAL, whose HANDLE carries the table, and answers it; TCAM_DELETE of an entry that the staged version inserted removes it, and of another ends it at the pending epoch.  TCAM_READ answers an entry's record or NOT_FOUND, TCAM_NEXT the records of a table in handle order.  The model's choices here: the handle a free value, log 61.  Completes: `tcamInsert`, `tcamDelete`, `tcamRead`, `tcamNext`. -/
def Obligations.PolicyEntries : Prop :=
  (∀ (h : Hdr) (p : TcamParams) (d : PolicyDef) (s : State), Admitted s h 0x0204 (some 1) → polDef s p.table = some d → tcamChecks s p = none →
    (isStaged s = false → exec (.tcamInsert h p) s = .next (failWith h 0x0204 0x15 0 (tick h.t s))) ∧
    (∀ q, isStaged s = true → (scopePipes s d p.scope).find? (fun x => freeRows s d x == 0) = some q →
      exec (.tcamInsert h p) s = .next (failWith h 0x0204 0x26 q (tick h.t s))) ∧
    (isStaged s = true → (scopePipes s d p.scope).all (fun x => freeRows s d x ≠ 0) = true → ∃ z e,
      exec (.tcamInsert h p) s = .next (finish h 0x0204 { data := leBytes 4 e.handle } z) ∧ z.tbl.tcam = s.tbl.tcam ++ [e] ∧
      e.table = p.table ∧ e.serial = h.serial ∧ e.prio = p.priority ∧ e.scope = p.scope ∧ e.actionId = p.actionId ∧ e.data = p.data ∧
      e.rangeEn = p.rangeEn ∧ e.ranges = p.ranges ∧ e.key = p.key ∧ e.mask = p.mask ∧ e.openEnd = true ∧ e.vfrom = pendEpoch s ∧
      e.pipes = scopePipes s d p.scope ∧ e.badIn = [] ∧ e.handle / 16777216 = p.table ∧ { z.tbl with tcam := s.tbl.tcam } = s.tbl ∧
      { z with rf := s.rf, tbl := s.tbl } = drawn (tick h.t s))) ∧
  (∀ (h : Hdr) (handle : Nat) (s : State), Admitted s h 0x0205 (some 1) →
    (isStaged s = false → exec (.tcamDelete h handle) s = .next (failWith h 0x0205 0x15 0 (tick h.t s))) ∧
    (isStaged s = true → tcamEnt s handle = none → exec (.tcamDelete h handle) s = .next (failWith h 0x0205 0x21 0 (tick h.t s))) ∧
    (∀ e, isStaged s = true → tcamEnt s handle = some e → e.openEnd = true → ∃ z, exec (.tcamDelete h handle) s = .next (ok h 0x0205 z) ∧
      { z.tbl with tcam := s.tbl.tcam, undo := s.tbl.undo } = s.tbl ∧ { z with rf := s.rf, tbl := s.tbl } = tick h.t s ∧
      z.tbl.tcam = if e.vfrom = pendEpoch s then s.tbl.tcam.filter (fun x => x.handle ≠ handle)
        else s.tbl.tcam.map (fun x => if x.handle = handle then { x with vuntil := pendEpoch s, openEnd := false } else x))) ∧
  (∀ (h : Hdr) (handle : Nat) (s : State), Admitted s h 0x0206 none →
    (tcamEnt s handle = none → exec (.tcamRead h handle) s = .next (failWith h 0x0206 0x21 0 (tick h.t s))) ∧
    (∀ e, tcamEnt s handle = some e → exec (.tcamRead h handle) s = .next (finish h 0x0206 { data := tcamRecord e } (tick h.t s)))) ∧
  (∀ (h : Hdr) (table max first : Nat) (s : State), Admitted s h 0x0207 none → (polDef s table).isSome = true → 1 ≤ max → max ≤ 64 →
    let l := sortBy (fun e => e.handle) (s.tbl.tcam.filter (fun e => e.table == table && decide (first ≤ e.handle)))
    let n := fitMax s h 0 216 max
    ∃ cursor, exec (.tcamNext h table max first) s = .next (finish h 0x0207 { data := (l.take n).flatMap tcamRecord, cursor := cursor } (tick h.t s)) ∧
      (l.length ≤ n → cursor = 0) ∧ (∀ e, l[n]? = some e → cursor = e.handle))

/-- Policers and shapers (R185, R204, R206, R207).  POL_SET sets a policer's EN, RATE, BURST and LEN_ADJ, its counts kept, with its tokens full or zero as TOKEN_RESET asks; POL_GET answers the setting, the tokens after a refresh and the counts; SHP_SET puts a shaper's EN, RATE and BURST into its registers, with its tokens full or zero, every other shaper and every policer kept; a node that its shaper held may join its parent's lists, and a change of parent or band that waited may take effect there (log 81).  Completes: `polSet`, `polGet`, `shpSet`. -/
def Obligations.PolicersAndShapers : Prop :=
  (∀ (h : Hdr) (p : PolSet) (s : State), Admitted s h 0x0210 (some 3) → p.dir ≤ 1 → p.pipe ≤ 31 → p.index ≤ 4095 → 1 ≤ p.tokenReset → p.tokenReset ≤ 2 →
    -64 ≤ p.lenAdj → p.lenAdj ≤ 63 → 1 ≤ p.rate → p.rate ≤ 25000000 → 1 ≤ p.burst → p.burst ≤ 65535 →
    ∃ z, exec (.polSet h p) s = .next (ok h 0x0210 z) ∧
      (let q := policer z p.dir p.pipe p.index
       let o := policer s p.dir p.pipe p.index
       q.en = p.en ∧ q.rate = p.rate ∧ q.burst = p.burst ∧ q.lenAdj = p.lenAdj ∧ q.conf = o.conf ∧ q.refused = o.refused ∧ q.refBytes = o.refBytes ∧
       q.last = (tick h.t s).clk.mono ∧ q.tokens = if p.tokenReset = 1 then (p.burst * 256 * 1024 : Nat) else 0) ∧
      (∀ a b c, (a, b, c) ≠ (p.dir, p.pipe, p.index) → policer z a b c = policer s a b c) ∧
      { z with sched := { z.sched with policers := s.sched.policers } } = tick h.t s) ∧
  (∀ (h : Hdr) (dir pipe index : Nat) (s : State), Admitted s h 0x0211 none → dir ≤ 1 → pipe ≤ 31 → index ≤ 4095 →
    ∃ z d, exec (.polGet h dir pipe index) s = .next (finish h 0x0211 { data := d } z) ∧
      (let q := refreshPolicer (tick h.t s).clk.mono (policer s dir pipe index)
       policer z dir pipe index = q ∧ d.length = 48 ∧ leAt d 0 1 = dir ∧ leAt d 1 1 = pipe ∧ leAt d 2 2 = index ∧ leAt d 4 1 = b2n q.en ∧
       leAt d 6 1 = unsignedOf 8 q.lenAdj % 256 ∧ leAt d 16 8 = unsignedOf 64 (q.tokens / 1024) % 2 ^ 64 ∧
       leAt d 8 4 = q.rate % 2 ^ 32 ∧ leAt d 12 2 = q.burst % 2 ^ 16 ∧ leAt d 24 8 = q.conf % 2 ^ 64 ∧ leAt d 32 8 = q.refused % 2 ^ 64 ∧ leAt d 40 8 = q.refBytes % 2 ^ 64) ∧
      (∀ a b c, (a, b, c) ≠ (dir, pipe, index) → policer z a b c = policer s a b c) ∧
      { z with sched := { z.sched with policers := s.sched.policers } } = tick h.t s) ∧
  (∀ (h : Hdr) (p : ShpSet) (s : State), Admitted s h 0x0301 (some 2) → p.kind ≤ 3 → p.index < nodeCount p.kind → 1 ≤ p.tokenReset → p.tokenReset ≤ 2 →
    1 ≤ p.rate → p.rate ≤ 25000000 → 1 ≤ p.burst → p.burst ≤ 65535 →
    ∃ z, exec (.shpSet h p) s = .next (ok h 0x0301 z) ∧ flag z ⟨rateReg p.kind, 31, 1⟩ p.index 0 = p.en ∧
      getF z ⟨rateReg p.kind, 0, 25⟩ p.index 0 = p.rate ∧ getF z ⟨burstReg p.kind, 0, 16⟩ p.index 0 = p.burst ∧
      (nodeRt z ⟨p.kind, p.index⟩).last = (tick h.t s).clk.mono ∧
      (nodeRt z ⟨p.kind, p.index⟩).tokens = (if p.tokenReset = 1 then (p.burst * 256 * 1024 : Nat) else 0) ∧
      (∀ k i, k ≤ 3 → (k, i) ≠ (p.kind, p.index) → reg z (rateReg k) i 0 = reg s (rateReg k) i 0 ∧ reg z (burstReg k) i 0 = reg s (burstReg k) i 0) ∧
      z.sched.policers = s.sched.policers ∧ z.sched.queues = s.sched.queues ∧
      RegsKept [rateReg p.kind, burstReg p.kind, .SCH_STAT, .SCH_PARK_CNT, .SCH_NODE0_Q, .SCH_NODE0_C] s z ∧
      { z with rf := s.rf, sched := s.sched, host := s.host } = tick h.t s)

/-- Scheduler nodes (R188, R189, R190).  An attach of a queue, service node or CPU queue whose move is not refused puts WEIGHT, CLASS and LEN_ADJ into the node's registers with ATTACHED, and PARENT and BAND too, at once or, where a decision of the parent must come first (a queue that holds copies changes its service node, a waiting node its band), after it; a move to another port node is BUSY while the service node has a child attached or the queue holds a copy.  A detach takes effect at once for a queue that holds nothing, and is otherwise pending with its reply outstanding; a service node with a child attached is BUSY.  The model's choices here: BUSY of a second detach, log 26; deferred moves, log 81.  Completes: `schNodeSet`, `schNodeDetach`. -/
def Obligations.SchedulerNodes : Prop :=
  (∀ (h : Hdr) (p : NodeSet) (s : State), Admitted s h 0x0302 (some 2) → p.attach = 1 → nodeChecks p.kind 1 p.index = none → attachChecks s p = none →
    let n : Node := ⟨p.kind, p.index⟩
    let newPort := if p.kind = 1 then p.parent else portOfService s p.parent
    let holds := if p.kind = 1 then childAttached s p.index = true else heldBy s n ≠ 0
    (newPort ≠ portAbove s n → holds → exec (.schNodeSet h p) s = .next (failWith h 0x0302 0x24 0 (tick h.t s))) ∧
    (newPort = portAbove s n ∨ ¬ holds → ∃ z, exec (.schNodeSet h p) s = .next (ok h 0x0302 z) ∧ attached z n = true ∧
      detachPend z n = false ∧ standing z n = (p.parent, p.band) ∧
      ((nodeRt s n).moves = [] → defers s n p.parent = false → getF z ⟨nodeReg0 p.kind, 0, 13⟩ p.index 0 = p.parent ∧ nodeBand z n = p.band) ∧
      getF z ⟨nodeReg0 p.kind, 16, 12⟩ p.index 0 = p.weight ∧
      getF z ⟨nodeReg1 p.kind, 8, 3⟩ p.index 0 = p.cls ∧ getF z ⟨nodeReg1 p.kind, 16, 8⟩ p.index 0 = unsignedOf 8 p.lenAdj ∧
      RegsKept ([.SCH_NODE0_Q, .SCH_NODE0_S, .SCH_NODE0_C, .SCH_NODE1_Q, .SCH_NODE1_S, .SCH_NODE1_C] ++ replyRegs) s z ∧
      z.pal = s.pal ∧ z.tbl = s.tbl ∧ z.sched.queues = s.sched.queues ∧ z.sched.policers = s.sched.policers)) ∧
  (∀ (h : Hdr) (kind index : Nat) (s : State), Admitted s h 0x0302 (some 2) → nodeChecks kind 0 index = none →
    let n : Node := ⟨kind, index⟩
    (kind = 1 → childAttached s index = true → exec (.schNodeDetach h kind index) s = .next (failWith h 0x0302 0x24 0 (tick h.t s))) ∧
    (kind ≠ 1 → detachPend s n = true → exec (.schNodeDetach h kind index) s = .next (failWith h 0x0302 0x24 0 (tick h.t s))) ∧
    ((kind = 1 ∧ childAttached s index = false) ∨ (kind ≠ 1 ∧ detachPend s n = false ∧ heldBy s n = 0) →
      ∃ z, exec (.schNodeDetach h kind index) s = .next (ok h 0x0302 z) ∧ attached z n = false ∧ z.sched.queues = s.sched.queues ∧
        { z with rf := s.rf, sched := s.sched, host := s.host } = tick h.t s ∧ RegsKept [.SCH_NODE0_Q, .SCH_NODE0_S, .SCH_NODE0_C] s z ∧
        ((∀ x ∈ s.sched.nodes, x.2.moves = []) → RegsKeptBut [⟨nodeReg0 kind, index, 0⟩] s z)) ∧
    (kind ≠ 1 → detachPend s n = false → attached s n = true → heldBy s n ≠ 0 →
      ∃ z, exec (.schNodeDetach h kind index) s = .next (background h z) ∧ detachPend z n = true ∧ (nodeRt z n).detachCmd = some h ∧
        Only [⟨nodeReg0 kind, index, 0⟩] (tick h.t s) { z with sched := s.sched }))

/-- Configuring a macro (R7, R34, R46).  PORT_MACRO_CFG with ENABLE = 1 is NOT_PERMITTED for a macro not enabled while the licensed number are, and BUSY for one that has failed or whose pipeline moves; otherwise the macro is enabled with the settings in its registers, its lanes that are OFF and not squelched ramping at once where its SerDes is powered, and after a wake of 500 µs otherwise.  With ENABLE = 0, by either row, the macro is disabled and unpowered with no port started or up and is no longer failed.  The model's choices here: lanes that stay ON, log 67; a wake begun anew and the return of a failed macro, log 78.  Completes: `portMacroCfg`, `portMacroDisable`. -/
def Obligations.MacroConfiguration : Prop :=
  (∀ (h : Hdr) (p : MacroCfg) (s : State), Admitted s h 0x0401 (some 4) → p.enable = true → macroChecks p = none →
    p.txLane < 2 ^ 24 → p.rxLane < 2 ^ 24 → p.txInv < 256 → p.rxInv < 256 →
    (macEnabled s p.mac = false → licensedMacros s ≤ countIx 96 (macEnabled s) →
      exec (.portMacroCfg h p) s = .next (failWith h 0x0401 0x15 0 (tick h.t s))) ∧
    ((macEnabled s p.mac = true ∨ countIx 96 (macEnabled s) < licensedMacros s) → pipeMoving s p.mac = true ∨ macFailed s p.mac = true →
      exec (.portMacroCfg h p) s = .next (failWith h 0x0401 0x24 0 (tick h.t s))) ∧
    ((macEnabled s p.mac = true ∨ countIx 96 (macEnabled s) < licensedMacros s) → pipeMoving s p.mac = false → macFailed s p.mac = false →
      ∃ z, exec (.portMacroCfg h p) s = .next (ok h 0x0401 z) ∧ macEnabled z p.mac = true ∧ getF z F.MAC_MACRO_CFG_LANE_RATE p.mac 0 = p.laneRate ∧
        getF z F.MAC_MACRO_CFG_REACH p.mac 0 = p.reach ∧ flag z F.MAC_MACRO_CFG_DIRECT_DRIVE p.mac 0 = p.directDrive ∧
        getF z F.MAC_MACRO_CFG_PORT_START p.mac 0 = p.portStart ∧ getF z F.MAC_TXMAP_TX_LANE p.mac 0 = p.txLane ∧
        getF z F.MAC_RXMAP_RX_LANE p.mac 0 = p.rxLane ∧ getF z F.MAC_POL_TX_INV p.mac 0 = p.txInv ∧ getF z F.MAC_POL_RX_INV p.mac 0 = p.rxInv ∧
        (macRt z p.mac).cfg = some p ∧
        ((macRt s p.mac).powered = false → (macRt z p.mac).wakeAt = some ((tick h.t s).clk.mono + 500000)) ∧
        (macEnabled s p.mac = false → (macRt s p.mac).powered = true → ∀ l, l < 8 → drvState s p.mac l = 0 → drvSquelch s p.mac l = false → drvEnabled z p.mac l = true →
          drvState z p.mac l = 1) ∧
        (macEnabled s p.mac = false → { z with rf := s.rf, port := s.port } = tick h.t s ∧
          ∀ m, m ≠ p.mac → macRt z m = macRt s m ∧ reg z .MAC_MACRO_CFG m 0 = reg s .MAC_MACRO_CFG m 0))) ∧
  (∀ (h : Hdr) (p : MacroCfg) (s : State), Admitted s h 0x0401 (some 4) → p.mac ≤ 95 → p.enable = false →
    exec (.portMacroCfg h p) s = exec (.portMacroDisable h p.mac) s) ∧
  (∀ (h : Hdr) (mac : Nat) (s : State), Admitted s h 0x0401 (some 4) → mac ≤ 95 → ∃ z, exec (.portMacroDisable h mac) s = .next (ok h 0x0401 z) ∧
    macEnabled z mac = false ∧ getF z F.MAC_MACRO_CFG_PORT_START mac 0 = 0 ∧ getF z F.MAC_MACRO_CFG_PORT_UP mac 0 = 0 ∧ macFailed z mac = false ∧
    (macRt z mac).powered = false ∧ (macRt z mac).cfg = none ∧
    ∀ m, m ≠ mac → reg z .MAC_MACRO_CFG m 0 = reg s .MAC_MACRO_CFG m 0 ∧ (macRt z m).cfg = (macRt s m).cfg ∧ (macRt z m).powered = (macRt s m).powered)

/-- Export targets, flow records and counters by command (R212, R219, R236, R242).  TEL_TARGET_SET is BUSY for a target that is enabled or ending; otherwise the target is enabled with an empty batch, its kind and port shown.  Disabling stops its filling, and a batch in transmission ends first.  TEL_FLOW_FLUSH with the caches empty answers at once, and otherwise runs on over the entries the caches hold at its start, some visited at once.  CNT_READ answers 8-byte values of a Swatch section, CNT_VF_PERMIT sets one entry of a VF's table and CNT_VF_QUERY answers all 16.  The model's choices here: logs 21, 53; the pace of a flush, log 82.  Completes: `telTargetSet`, `telTargetDisable`, `telFlowFlush`, `cntRead`, `cntVfPermit`, `cntVfQuery`. -/
def Obligations.TelemetryCommands : Prop :=
  (∀ (h : Hdr) (p : TargetSet) (s : State), Admitted s h 0x0501 (some 5) → p.en = true → targetChecks s p = none → p.kind < 2 → p.port < 1024 →
    let free := targetOn s p.target = false ∧ (target s p.target).ending = false
    (¬ free → exec (.telTargetSet h p) s = .next (failWith h 0x0501 0x24 0 (tick h.t s))) ∧
    (free → ∃ z, exec (.telTargetSet h p) s = .next (ok h 0x0501 z) ∧ targetOn z p.target = true ∧ getF z F.TGT_STAT_KIND p.target 0 = p.kind ∧
      getF z F.TGT_STAT_PORT p.target 0 = p.port ∧ (target z p.target).cfg = some p ∧ (target z p.target).filling = [] ∧ (target z p.target).sending = false ∧
      (target z p.target).fillStart = (tick h.t s).clk.tod - (tick h.t s).clk.tod % (s.tele.periodUs * 1000) ∧
      (p.kind = 0 ∨ p.resume = false → wide z .GPOS p.target 2 = (if p.kind = 1 then p.gbase + 4096 else 0) % 2 ^ 64 ∧ reg z .WRAP_COUNT p.target 0 = 0) ∧
      (∀ n, n ≠ p.target → target z n = target s n) ∧
      Only [⟨.TGT_STAT, p.target, 0⟩, ⟨.NEXT_SEQ, p.target, 0⟩, ⟨.WRAP_COUNT, p.target, 0⟩, ⟨.GPOS, p.target, 0⟩, ⟨.GPOS, p.target, 1⟩]
        (tick h.t s) { z with tele := s.tele })) ∧
  (∀ (h : Hdr) (n : Nat) (s : State), Admitted s h 0x0501 (some 5) → n ≤ 15 →
    (targetOn s n = false → exec (.telTargetDisable h n) s = .next (ok h 0x0501 (tick h.t s))) ∧
    (targetOn s n = true → (target s n).sending = false → ∃ z, exec (.telTargetDisable h n) s = .next (ok h 0x0501 z) ∧ targetOn z n = false ∧
      target z n = { target s n with cfg := none, filling := [] } ∧ reg z .REC_OVF n 0 = reg s .REC_OVF n 0 + BitVec.ofNat 32 (target s n).filling.length ∧
      ∀ m, m ≠ n → target z m = target s m ∧ reg z .TGT_STAT m 0 = reg s .TGT_STAT m 0) ∧
    (targetOn s n = true → (target s n).sending = true → ∃ z, exec (.telTargetDisable h n) s = .next z ∧ targetOn z n = false ∧
      target z n = { target s n with filling := [], ending := true, disableCmd := some h } ∧
      ∀ m, m ≠ n → target z m = target s m ∧ reg z .TGT_STAT m 0 = reg s .TGT_STAT m 0)) ∧
  (∀ (h : Hdr) (s : State), Admitted s h 0x0502 (some 5) →
    let left := (List.range 8).map fun n => (tgetD s.tele.flows n []).length
    (left.sum = 0 → exec (.telFlowFlush h) s = .next (ok h 0x0502 (tick h.t s))) ∧
    (left.sum ≠ 0 → (∀ g ∈ s.tele.flushes, g.cmd.serial ≠ h.serial) → ∃ k z, k ≤ left.sum ∧
      exec (.telFlowFlush h) s = .next (drawn (flushOn k ⟨h, left.sum, left⟩ z)) ∧
      z.tele.flushes = s.tele.flushes ++ [⟨h, left.sum, left⟩] ∧
      { z with tele := { z.tele with flushes := s.tele.flushes } } = background h (tick h.t s))) ∧
  (∀ (h : Hdr) (sect count index : Nat) (s : State), Admitted s h 0x0503 none → 2 ≤ sect → sect ≤ 6 → 1 ≤ count → count ≤ 64 → index + count ≤ sectionLen sect →
    ∃ d, exec (.cntRead h sect count index) s = .next (finish h 0x0503 { data := d } (tick h.t s)) ∧ d.length = 8 * count ∧
      ∀ k, k < count → leAt d (8 * k) 8 = sectionValue (tick h.t s) sect (index + k) % 2 ^ 64) ∧
  (∀ (h : Hdr) (vf entry : Nat) (en : Bool) (first count : Nat) (s : State), Admitted s h 0x0504 (some 5) → vf ≤ 63 → entry ≤ 15 → first ≤ 1007 →
    1 ≤ count → count ≤ 1008 → first + count ≤ 1008 → ∃ z, exec (.cntVfPermit h vf entry en first count) s = .next (ok h 0x0504 z) ∧
      tget z.tele.vf (vf, entry) = some ⟨en, first, count⟩ ∧ (∀ k, k ≠ (vf, entry) → tget z.tele.vf k = tget s.tele.vf k) ∧
      { z with tele := { z.tele with vf := s.tele.vf } } = tick h.t s) ∧
  (∀ (h : Hdr) (vf : Nat) (s : State), Admitted s h 0x0505 none → vf ≤ 63 → ∃ d, exec (.cntVfQuery h vf) s = .next (finish h 0x0505 { data := d } (tick h.t s)) ∧
    d.length = 64 ∧ ∀ k, k < 16 → leAt d (4 * k) 4 = vfWord (tgetD s.tele.vf (vf, k) {}))

/-- Swatch by command (R245).  SWATCH_TAKE is BUSY while a snapshot is being written or the buffer of the next capture is held; otherwise a capture is due at the time asked for, or at the next whole microsecond at least 10 µs ahead where that is nearer, and the reply gives its number and instant.  SWATCH_RELEASE frees the buffer held under a number, or is NOT_FOUND.  The model's choices here: log 52.  Completes: `swatchTake`, `swatchRelease`. -/
def Obligations.SwatchCommands : Prop :=
  (∀ (h : Hdr) (time : Nat) (s : State), Admitted s h 0x0506 (some 5) →
    let y := skipPassed (tick h.t s)
    let k := y.tele.swatchK + 1
    (swatchBlocked y k = true → exec (.swatchTake h time) s = .next (failWith h 0x0506 0x24 0 y)) ∧
    (swatchBlocked y k = false → ∃ T d z, exec (.swatchTake h time) s = .next (finish h 0x0506 { data := d } z) ∧
      (y.clk.tod + 10000 ≤ time → T = time) ∧ (time < y.clk.tod + 10000 → T % 1000 = 0 ∧ y.clk.tod + 10000 ≤ T ∧ T < y.clk.tod + 11000) ∧
      d.length = 16 ∧ leAt d 0 4 = k % 2 ^ 32 ∧ leAt d 8 8 = T % 2 ^ 64 ∧ z.tele.asked = y.tele.asked ++ [{ seq := k, time := T }] ∧ z.tele.swatchK = k ∧
      { z with tele := { z.tele with swatchK := y.tele.swatchK, asked := y.tele.asked } } = y)) ∧
  (∀ (h : Hdr) (seq : Nat) (s : State), Admitted s h 0x0507 (some 5) →
    let y := skipPassed (tick h.t s)
    let a := flag y F.SWATCH_STAT_HELD_A 0 0 = true ∧ y.tele.heldA % 2 ^ 32 = seq
    let b := flag y F.SWATCH_STAT_HELD_B 0 0 = true ∧ y.tele.heldB % 2 ^ 32 = seq
    (a → ∃ z, exec (.swatchRelease h seq) s = .next (ok h 0x0507 z) ∧ flag z F.SWATCH_STAT_HELD_A 0 0 = false ∧
      flag z F.SWATCH_STAT_HELD_B 0 0 = flag y F.SWATCH_STAT_HELD_B 0 0 ∧ Only [⟨.SWATCH_STAT, 0, 0⟩] y z) ∧
    (¬ a → b → ∃ z, exec (.swatchRelease h seq) s = .next (ok h 0x0507 z) ∧ flag z F.SWATCH_STAT_HELD_B 0 0 = false ∧
      flag z F.SWATCH_STAT_HELD_A 0 0 = flag y F.SWATCH_STAT_HELD_A 0 0 ∧ Only [⟨.SWATCH_STAT, 0, 0⟩] y z) ∧
    (¬ a → ¬ b → exec (.swatchRelease h seq) s = .next (failWith h 0x0507 0x21 0 y)))

/-- Power by command (Chapter 16).  PWR_CAP_SET takes a cap of 600 to 1,400 W for the next pass, NOT_PERMITTED above CEILING_W; PWR_MODE_SET and PWR_THRESH_SET take a mode and four thresholds for it; each changes nothing else.  PWR_STATUS answers the average power, the hottest sensor, the core clock, the throttle and the flags; PWR_COEF_READ the 16 coefficients.  The model's choices here: log 54.  Completes: `pwrCapSet`, `pwrModeSet`, `pwrThreshSet`, `pwrStatus`, `pwrCoefRead`. -/
def Obligations.PowerCommands : Prop :=
  (∀ (h : Hdr) (capW : Nat) (s : State), Admitted s h 0x0601 (some 6) → 600 ≤ capW → capW ≤ 1400 →
    (capW ≤ getF s F.PWR_CTL_CEILING_W 0 0 →
      exec (.pwrCapSet h capW) s = .next (ok h 0x0601 { tick h.t s with pwr := { s.pwr with cap := some capW } })) ∧
    (getF s F.PWR_CTL_CEILING_W 0 0 < capW → exec (.pwrCapSet h capW) s = .next (failWith h 0x0601 0x15 0 (tick h.t s)))) ∧
  (∀ (h : Hdr) (mode : Nat) (s : State), Admitted s h 0x0602 (some 6) → mode ≤ 1 →
    exec (.pwrModeSet h mode) s = .next (ok h 0x0602 { tick h.t s with pwr := { s.pwr with mode := some mode } })) ∧
  (∀ (h : Hdr) (t1 t2 t3 hyst : Nat) (s : State), Admitted s h 0x0603 (some 6) → 70 ≤ t1 → t1 < t2 → t2 < t3 → t3 ≤ 110 → 1 ≤ hyst → hyst ≤ 10 →
    exec (.pwrThreshSet h t1 t2 t3 hyst) s = .next (ok h 0x0603 { tick h.t s with pwr := { s.pwr with thresh := some (t1, t2, t3, hyst) } })) ∧
  (∀ (h : Hdr) (s : State), Admitted s h 0x0604 none → ∃ d, exec (.pwrStatus h) s = .next (finish h 0x0604 { data := d } (tick h.t s)) ∧ d.length = 16 ∧
    leAt d 0 2 = getF s F.PWR_STAT0_PWR_AVG_W 0 0 ∧ leAt d 2 2 = getF s F.PWR_STAT2_HOT_T 0 0 ∧ leAt d 4 2 = getF s F.PWR_STAT1_CORE_MHZ 0 0 ∧
    leAt d 6 1 = getF s F.TCAM_STAT_THROTTLE 0 0 ∧ leAt d 7 1 = getF s F.PWR_STAT0_BELOW_BASE 0 0 + 2 * getF s F.PWR_STAT0_BOOST 0 0) ∧
  (∀ (h : Hdr) (s : State), Admitted s h 0x0605 none → ∃ d, exec (.pwrCoefRead h) s = .next (finish h 0x0605 { data := d } (tick h.t s)) ∧ d.length = 64 ∧
    ∀ c, c < 8 → leAt d (4 * c) 4 = (reg s .PKT_COEF c 0).toNat ∧ leAt d (32 + 4 * c) 4 = (reg s .BYTE_COEF c 0).toNat)

/-- Returns, arming and injection by command (R379, R386, R387).  PIPE_RETURN, BANK_RETURN and MACRO_RETURN of a unit out of use begin its return, or are BUSY while another one of the group is applied; of a unit in use they are BAD_PARAM.  VARNISH_ARM puts the event into VARNISH_CFG with ARMED, answers, and raises FLT_VARNISH_ARMED; with ARM = 0 it clears ARMED.  FLT_INJECT raises FLT_INJECTED, and unless that froze the device answers OK and then raises the event with its action.  The model's choices here: logs 47, 48.  Completes: `pipeReturn`, `bankReturn`, `macroReturn`, `varnishArm`, `varnishDisarm`, `fltInject`. -/
def Obligations.FaultCommands : Prop :=
  (∀ (h : Hdr) (dir pipe : Nat) (s : State), Admitted s h 0x0701 none → dir ≤ 1 → pipe ≤ 31 →
    (quarantined s dir pipe = false → exec (.pipeReturn h dir pipe) s = .next (badParam h 0x0701 33 (tick h.t s))) ∧
    (quarantined s dir pipe = true → groupBusy s (pipe / 4) = true → exec (.pipeReturn h dir pipe) s = .next (failWith h 0x0701 0x24 0 (tick h.t s))) ∧
    (quarantined s dir pipe = true → groupBusy s (pipe / 4) = false → ∃ z, exec (.pipeReturn h dir pipe) s = .next (background h z) ∧
      z.flt.returns = s.flt.returns ++ [{ kind := 0, index := 32 * dir + pipe, cmd := h, since := (tick h.t s).clk.mono }] ∧
      { z with flt := { z.flt with returns := s.flt.returns } } = tick h.t s)) ∧
  (∀ (h : Hdr) (bank : Nat) (s : State), Admitted s h 0x0702 none → bank ≤ 127 →
    let busy := s.flt.returns.any (fun r => r.kind == 1) = true ∨ s.pal.bankDrain ≠ []
    (mapBit s .BANK_RETIRED bank = false → exec (.bankReturn h bank) s = .next (badParam h 0x0702 32 (tick h.t s))) ∧
    (mapBit s .BANK_RETIRED bank = true → busy → exec (.bankReturn h bank) s = .next (failWith h 0x0702 0x24 0 (tick h.t s))) ∧
    (mapBit s .BANK_RETIRED bank = true → ¬ busy → ∃ z, exec (.bankReturn h bank) s = .next (background h z) ∧
      z.flt.returns = s.flt.returns ++ [{ kind := 1, index := bank, cmd := h, since := (tick h.t s).clk.mono }] ∧
      { z with flt := { z.flt with returns := s.flt.returns } } = tick h.t s)) ∧
  (∀ (h : Hdr) (mac : Nat) (s : State), Admitted s h 0x0705 none → mac ≤ 95 →
    (macFailed s mac = false → exec (.macroReturn h mac) s = .next (badParam h 0x0705 32 (tick h.t s))) ∧
    (macFailed s mac = true → groupBusy s (mac / 12) = true → exec (.macroReturn h mac) s = .next (failWith h 0x0705 0x24 0 (tick h.t s))) ∧
    (macFailed s mac = true → groupBusy s (mac / 12) = false → ∃ z, exec (.macroReturn h mac) s = .next (background h z) ∧
      z.flt.returns = s.flt.returns ++ [{ kind := 2, index := mac, cmd := h, since := (tick h.t s).clk.mono }] ∧
      { z with flt := { z.flt with returns := s.flt.returns } } = tick h.t s)) ∧
  (∀ (h : Hdr) (event : Nat) (s : State), Admitted s h 0x0703 none → event < 65536 →
    (evClass event = none → exec (.varnishArm h event) s = .next (badParam h 0x0703 34 (tick h.t s))) ∧
    ((evClass event).isSome = true → ∃ z, exec (.varnishArm h event) s = .next (raise0 Ev.FLT_VARNISH_ARMED (ok h 0x0703 z)) ∧
      flag z F.VARNISH_CFG_ARMED 0 0 = true ∧ getF z F.VARNISH_CFG_ARMED_ID 0 0 = event ∧
      getF z F.VARNISH_CFG_CLASS_MIN 0 0 = getF s F.VARNISH_CFG_CLASS_MIN 0 0 ∧ flag z F.VARNISH_CFG_PIN_EN 0 0 = flag s F.VARNISH_CFG_PIN_EN 0 0 ∧
      Only [⟨.VARNISH_CFG, 0, 0⟩] (tick h.t s) z) ∧
    (∃ z, exec (.varnishDisarm h event) s = .next (ok h 0x0703 z) ∧ flag z F.VARNISH_CFG_ARMED 0 0 = false ∧
      getF z F.VARNISH_CFG_CLASS_MIN 0 0 = getF s F.VARNISH_CFG_CLASS_MIN 0 0 ∧ flag z F.VARNISH_CFG_PIN_EN 0 0 = flag s F.VARNISH_CFG_PIN_EN 0 0 ∧
      Only [⟨.VARNISH_CFG, 0, 0⟩] (tick h.t s) z)) ∧
  (∀ (h : Hdr) (event : Nat) (s : State), Admitted s h 0x0704 none → (evClass event).isSome = true →
    let y := raise0 Ev.FLT_INJECTED (tick h.t s)
    (y.flt.frozen = false → isSafe y = false → exec (.fltInject h event) s = .next (inject event (ok h 0x0704 y))) ∧
    (y.flt.frozen = true → exec (.fltInject h event) s = .next y))

/-- The Stretcher's, the twin's and the chain's configuration (R324, R330, R333, R341, R349).  STL_PORT_CFG is BUSY within 100 µs of another for the port; otherwise MODE, LANES and BOND are as asked for, and REFO_EN is the value of the command with the latest SERIAL.  TWIN_CFG is BUSY for another role in LINK_HOLD (state 4), and otherwise puts role, times and backup ports into the registers and their AON copy.  CHAIN_CFG sets DEV_ID and the budget, and a new DEV_ID leaves the chain.  CHAIN_MEMBERS answers the members from a DEV_ID on; TWIN_STATUS the twin's state.  The model's choices here: log 68.  Completes: `stlPortCfg`, `twinCfg`, `chainCfg`, `chainMembers`, `twinStatus`. -/
def Obligations.LinkConfiguration : Prop :=
  (∀ (h : Hdr) (port mode lanes : Nat) (bond refo : Bool) (s : State), Admitted s h 0x0801 (some 7) → stlCfgChecks port mode lanes bond = none →
    let last := (stlPort s port).cfgAt
    (∀ a, last = some a → (tick h.t s).clk.mono < a + 100000 →
      exec (.stlPortCfg h port mode lanes bond refo) s = .next (failWith h 0x0801 0x24 0 (tick h.t s))) ∧
    ((∀ a, last = some a → a + 100000 ≤ (tick h.t s).clk.mono) → ∃ z, exec (.stlPortCfg h port mode lanes bond refo) s = .next (ok h 0x0801 z) ∧
      getF z F.STL_PORT_STAT_MODE port 0 = mode ∧ flag z F.STL_PORT_STAT_BOND port 0 = bond ∧
      getF z F.STL_PORT_STAT_LANES port 0 = (if mode = 0 then 0 else lanesCode lanes) ∧ (stlPort z port).cfgAt = some (tick h.t s).clk.mono ∧
      (s.stl.refoSerial ≤ h.serial → flag z F.STL_REF_REFO_EN 0 0 = refo ∧ z.stl.refoSerial = h.serial) ∧
      (h.serial < s.stl.refoSerial → flag z F.STL_REF_REFO_EN 0 0 = flag s F.STL_REF_REFO_EN 0 0 ∧ z.stl.refoSerial = s.stl.refoSerial))) ∧
  (∀ (h : Hdr) (role holdMs warmupMs bkp0 bkp1 : Nat) (s : State), Admitted s h 0x0802 (some 7) → role ≤ 2 → 10 ≤ holdMs → holdMs ≤ 10000 →
    100 ≤ warmupMs → warmupMs ≤ 60000 → (bkp0 = 0xFFFF ∨ startsPort s bkp0 = true) → (bkp1 = 0xFFFF ∨ startsPort s bkp1 = true) →
    (twinRole s ≠ role → twinState s = 4 → exec (.twinCfg h role holdMs warmupMs bkp0 bkp1) s = .next (failWith h 0x0802 0x24 0 (tick h.t s))) ∧
    (twinRole s = role ∨ twinState s ≠ 4 → ∃ z, exec (.twinCfg h role holdMs warmupMs bkp0 bkp1) s = .next (ok h 0x0802 z) ∧
      twinRole z = role ∧ getF z F.TWIN_CFG_STAT_HOLD_MS 0 0 = holdMs ∧ getF z F.TWIN_CFG_STAT_WARMUP_MS 0 0 = warmupMs ∧
      flag z F.TWIN_BKP_BKP0_EN 0 0 = decide (bkp0 ≠ 0xFFFF) ∧ (bkp0 ≠ 0xFFFF → getF z F.TWIN_BKP_BKP0_PORT 0 0 = bkp0) ∧
      flag z F.TWIN_BKP_BKP1_EN 0 0 = decide (bkp1 ≠ 0xFFFF) ∧ (bkp1 ≠ 0xFFFF → getF z F.TWIN_BKP_BKP1_PORT 0 0 = bkp1) ∧
      z.twin.aon.map (fun c => (c.cfg, c.bkp)) = some (reg z .TWIN_CFG_STAT 0 0, reg z .TWIN_BKP 0 0) ∧
      (role = 0 → twinRole s ≠ 0 → twinState z = 0) ∧ (role ≠ 0 → twinRole s = 0 → twinState z = 1))) ∧
  (∀ (h : Hdr) (dev budget : Nat) (s : State), Admitted s h 0x0803 (some 7) → dev < 4095 → 1000 ≤ budget → budget ≤ 4000000 →
    (s.chain.wides ≠ [] → exec (.chainCfg h dev budget) s = .next (failWith h 0x0803 0x24 0 (tick h.t s))) ∧
    (s.chain.wides = [] → ∃ z, exec (.chainCfg h dev budget) s = .next (ok h 0x0803 z) ∧ devId z = dev ∧ (reg z .CHAIN_BUDGET 0 0).toNat = budget ∧
      z.chain.members = (if dev = devId s then s.chain.members else []) ∧ z.chain.wides = [])) ∧
  (∀ (h : Hdr) (first : Nat) (s : State), Admitted s h 0x0804 none →
    let l := (memberRecords s first).take (fitMax s h 8 8 64)
    exec (.chainMembers h first) s = .next (finish h 0x0804 { data := leBytes 4 (mgen s) ++ leBytes 4 l.length ++ l.flatMap id } (tick h.t s))) ∧
  (∀ (h : Hdr) (s : State), Admitted s h 0x0805 none → ∃ d, exec (.twinStatus h) s = .next (finish h 0x0805 { data := d } (tick h.t s)) ∧ d.length = 16 ∧
    leAt d 0 1 = twinState s ∧ leAt d 1 1 % 4 = twinRole s ∧ leAt d 1 1 / 4 % 4 = getF s F.TWIN_STAT_EFF_ROLE 0 0 ∧
    leAt d 1 1 / 16 % 4 = getF s F.TWIN_STAT_PEER_ROLE 0 0 ∧ leAt d 2 1 % 2 = b2n (flag s F.TWIN_STAT_LINK_UP 0 0) ∧
    leAt d 8 8 = s.twin.lostTod % 2 ^ 64)

/-- Firmware by command (R301, R302, R303, R305, R306).  FW_INFO answers 64 bytes, which the spec does not lay out: a free value (log 2).  FW_STAGE is BUSY during an update; otherwise a valid image is staged and shown, and any other leaves the slot empty with IMAGE_INVALID, either ending the mark of the image that it replaces.  FW_ACTIVATE with nothing staged is NOT_FOUND; MODE 1, by either row, marks the staged image for the next reset; MODE 0 begins an update, UPDATING at PERMILLE 0, where the image may run under the present one and every lone engine has a stand-in.  FW_FLASH_WRITE copies the staged image to a flash copy.  ENG_RETURN of a FAILED engine loads its control store and puts it into SELF_TEST.  The model's choices here: free FW_INFO, log 2; log 66; a replaced image's mark, log 84.  Completes: `fwInfo`, `fwStage`, `fwActivate`, `fwActivateNextReset`, `fwFlashWrite`, `engReturn`. -/
def Obligations.FirmwareCommands : Prop :=
  (∀ (h : Hdr) (s : State), Admitted s h 0x0F01 none → ∃ d z, exec (.fwInfo h) s = .next (finish h 0x0F01 { data := d } z) ∧ d.length = 64 ∧
    { z with free := s.free } = tick h.t s) ∧
  (∀ (h : Hdr) (src len addr : Nat) (image : Gesso) (s : State), Admitted s h 0x0F02 none → src ≤ 1 → len ≤ 8388608 →
    let g := if src = 0 then some image else if addr = 0 then s.fw.flash0 else if addr = 8388608 then s.fw.flash1 else none
    let good := g.any (gessoValid s.fuse)
    (s.fw.update.isSome = true → exec (.fwStage h src len addr image) s = .next (failWith h 0x0F02 0x24 0 (tick h.t s))) ∧
    (s.fw.update = none → ∃ z, exec (.fwStage h src len addr image) s = .next (if good then ok h 0x0F02 z else failWith h 0x0F02 0x40 0 z) ∧
      z.fw.staged = (if good then g else none) ∧ getF z F.FW_STAT_FW_STATE 0 0 = b2n good ∧
      reg z .FW_STAGED_VER 0 0 = (if good then BitVec.ofNat 32 ((g.map Gesso.version).getD 0) else 0) ∧
      flag z F.FW_STAT_NEXT_RESET 0 0 = false ∧ z.boot = { s.boot with nextImage := false } ∧
      z.fw.running = s.fw.running ∧ z.fw.flash0 = s.fw.flash0 ∧ z.fw.flash1 = s.fw.flash1 ∧
      Only [⟨.FW_STAT, 0, 0⟩, ⟨.FW_STAGED_VER, 0, 0⟩] (tick h.t s) { z with fw := s.fw, boot := s.boot })) ∧
  (∀ (h : Hdr) (mode : Nat) (s : State), Admitted s h 0x0F03 none → mode ≤ 1 → s.fw.staged = none →
    exec (.fwActivate h mode) s = .next (failWith h 0x0F03 0x21 0 (tick h.t s)) ∧
    exec (.fwActivateNextReset h) s = .next (failWith h 0x0F03 0x21 0 (tick h.t s))) ∧
  (∀ (h : Hdr) (g : Gesso) (s : State), Admitted s h 0x0F03 none → s.fw.staged = some g →
    exec (.fwActivate h 1) s = exec (.fwActivateNextReset h) s ∧
    ∃ z, exec (.fwActivateNextReset h) s = .next (ok h 0x0F03 z) ∧ flag z F.FW_STAT_NEXT_RESET 0 0 = true ∧ z.boot.nextImage = true ∧
      Only [⟨.FW_STAT, 0, 0⟩] (tick h.t s) { z with boot := s.boot }) ∧
  (∀ (h : Hdr) (g : Gesso) (s : State), Admitted s h 0x0F03 none → s.fw.staged = some g →
    let cur := (s.fw.running.map (fun r => (r.pipe.id, r.version))).getD (0, 0)
    (s.fw.update.isSome = true → exec (.fwActivate h 0) s = .next (failWith h 0x0F03 0x24 0 (tick h.t s))) ∧
    (s.fw.update = none → g.pipe.id ≠ cur.1 ∨ cur.2 < g.minHitless → exec (.fwActivate h 0) s = .next (failWith h 0x0F03 0x41 0 (tick h.t s))) ∧
    (s.fw.update = none → g.pipe.id = cur.1 → g.minHitless ≤ cur.2 → standInsOk s g = false →
      exec (.fwActivate h 0) s = .next (failWith h 0x0F03 0x24 0 (tick h.t s))) ∧
    (s.fw.update = none → g.pipe.id = cur.1 → g.minHitless ≤ cur.2 → standInsOk s g = true → ∃ z u, exec (.fwActivate h 0) s = .next z ∧
      z.fw.update = some u ∧ u.halves = updateHalves s g ∧ u.done = 0 ∧ u.cmd = h ∧ u.rollback = none ∧ u.stopped = false ∧ z.fw.staged = some g ∧ z.fw.running = s.fw.running ∧
      getF z F.FW_STAT_FW_STATE 0 0 = 2 ∧ getF z F.FW_STAT_PERMILLE 0 0 = 0)) ∧
  (∀ (h : Hdr) (copy : Nat) (s : State), Admitted s h 0x0F04 none → copy ≤ 1 →
    (s.fw.staged = none → exec (.fwFlashWrite h copy) s = .next (failWith h 0x0F04 0x21 0 (tick h.t s))) ∧
    (∀ g, s.fw.staged = some g → exec (.fwFlashWrite h copy) s = .next (ok h 0x0F04 { tick h.t s with
      fw := if copy = 0 then { s.fw with flash0 := some g } else { s.fw with flash1 := some g } }))) ∧
  (∀ (h : Hdr) (eng : Nat) (s : State), Admitted s h 0x0F05 none → eng ≤ 63 →
    (engState s eng ≠ 5 → exec (.engReturn h eng) s = .next (badParam h 0x0F05 32 (tick h.t s))) ∧
    (engState s eng = 5 → ∃ z, exec (.engReturn h eng) s = .next z ∧ getF z F.ENG_STAT_STATE eng 0 = 4 ∧
      (engine z eng).testing = some (h, (tick h.t s).clk.mono) ∧ (∀ e, e ≠ eng → engine z e = engine s e) ∧
      getF z F.ENG_POOL_FAILED_COUNT 0 0 = getF s F.ENG_POOL_FAILED_COUNT 0 0 - 1 ∧
      Only [⟨.ENG_STAT, eng, 0⟩, ⟨.ENG_POOL, 0, 0⟩] (tick h.t s) { z with eng := s.eng }))

/-- The sequencer between packets (R278, R282, R285).  COMMAND_DISPATCH on a working COMMAND engine that is not draining marks the dispatchable command of least PRIORITY, then least SERIAL, as dispatched to it and no other; with none it changes nothing.  PROGRESS_REPLY, after a turn of the flow flush that the command runs, if any, sends an IN_PROGRESS reply of a command that asked for them, once PERMILLE has passed a multiple of 100 or 100 ms have gone by and not within a millisecond of the last.  LOCK_EXPIRED ends a lock whose lease has run out, with CMD_LOCK_EXPIRED.  The model's choices here: log 66; the pace of a flush, log 82.  Completes: `commandDispatch`, `progressReply`, `lockExpired`. -/
def Obligations.SequencerEvents : Prop :=
  (∀ (t engine : Nat) (s : State), Operating s → engine < 64 → (engState s engine = 1 ∨ engState s engine = 2) → getF s F.ENG_STAT_ROLE engine 0 = 1 →
    (tgetD s.eng engine {}).drain = false →
    (s.cmd.outstanding.filter (dispatchable s) = [] → exec (.commandDispatch t engine) s = .next (tick t s)) ∧
    (∀ o ∈ s.cmd.outstanding, dispatchable s o = true → o.serial < 2 ^ 64 →
      (∀ q ∈ s.cmd.outstanding, dispatchable s q = true → q ≠ o → o.priority < q.priority ∨ o.priority = q.priority ∧ o.serial < q.serial) →
      (∀ q ∈ s.cmd.outstanding, q.serial < 2 ^ 64) →
      exec (.commandDispatch t engine) s = .next { tick t s with cmd := { s.cmd with
        outstanding := s.cmd.outstanding.map (fun q => if q.serial = o.serial then { q with dispatched := true, engine := engine } else q) } })) ∧
  (∀ (t serial : Nat) (s : State), Operating s → serial ≠ 0 →
    let y := flushTurn serial (tick t s)
    ((∀ f ∈ s.tele.flushes, f.cmd.serial ≠ serial) → y = tick t s) ∧
    (outCmd y serial = none → exec (.progressReply t serial) s = .next y) ∧
    (∀ o, outCmd y serial = some o →
      let asks := o.prog = true ∧ (opInfo o.opcode).any OpInfo.prog = true ∧ o.dispatched = true
      let since := y.clk.mono - o.lastInterim
      let due := asks ∧ 1000000 ≤ since ∧ (o.lastPermille / 100 < o.permille / 100 ∨ 100000000 ≤ since)
      (¬ due → exec (.progressReply t serial) s = .next y) ∧
      (due → ∃ z r, exec (.progressReply t serial) s = .next z ∧
        r = (⟨o.tag, 1, o.opcode, serial, o.permille, [], 0xFFFF, masterId o.kind o.sub, o.cursor, y.clk.tod, 0⟩ : Reply) ∧
        (o.kind = 0 → o.muted = false → cqFull y o.sub = false → flag y F.CMD_RING_CFG_EN o.sub 0 = true → Out.reply 0 o.sub r ∈ z.out) ∧
        (o.kind = 1 → Out.reply 1 0 r ∈ z.out) ∧
        (o.kind = 2 → portIsUp y o.sub = true → z.cmd.ibDue = y.cmd.ibDue ++ [(o.sub, ibFrame y o.frame o.nonce r, 0)]) ∧
        (2 < o.kind → Out.reply o.kind o.sub r ∈ z.out) ∧
        (∃ q, outCmd z serial = some q ∧ q.lastInterim = y.clk.mono ∧ q.lastPermille = o.permille)))) ∧
  (∀ (t cls : Nat) (s : State), Operating s → cls < 8 →
    let due := flag s F.LOCK_STAT_HELD cls 0 = true ∧ (tgetD s.cmd.locks cls ⟨0, 0⟩).expiry ≤ (tick t s).clk.mono
    (¬ due → exec (.lockExpired t cls) s = .next (tick t s)) ∧
    (due → ∃ z, exec (.lockExpired t cls) s = .next (raise0 Ev.CMD_LOCK_EXPIRED z) ∧ flag z F.LOCK_STAT_HELD cls 0 = false ∧ tget z.cmd.locks cls = none ∧
      (∀ c, c ≠ cls → tget z.cmd.locks c = tget s.cmd.locks c) ∧
      Only [⟨.LOCK_STAT, cls, 0⟩] (tick t s) { z with cmd := s.cmd } ∧ { z.cmd with locks := s.cmd.locks } = s.cmd))

/-- Reads and writes by the host, and its link (R257, R259, R260, R261, R384, R400).  A read of one to four bytes of a word answers them and changes no register, one of a whole aligned wide value answers all its words, and in the safe state a read outside the served offsets answers all ones and changes nothing.  In the safe state every write is discarded.  A write that enables fewer than four bytes is discarded with HIF_PARTIAL_WR.  A write to an offset that no map assigns stores the offset in HIF_UNMAP_ADDR and raises HIF_UNMAPPED, and so does a read, which answers zero.  A whole write of a register of plain fields leaves in its RW and KEEP bits what was written and its other bits alone, or is ignored where it belongs to a port that a lane does not start (R37), and a change of a KEEP bit is counted and reported with its offset.  A write back of an event register clears all its event bits where its SEQ is the present one and nothing was recorded since it was read, and otherwise changes nothing.  A link that has trained shows its rate, width and FLIT mode, and LINK_DEGRADE below 6.0 × 4.  An access finds the function configured (log 9).  The model's choices here: BAR2 offsets, log 3; log 43.  Completes: `registerRead`, `registerWrite`, `unmappedAccess`, `eventRegClear`, `pcieLinkUp`. -/
def Obligations.HostAccesses : Prop :=
  (∀ (t offset bytes : Nat) (value : W32) (s : State), Served s → isSafe s = true → exec (.registerWrite t offset bytes value) s = .next (attach (tick t s))) ∧
  (∀ (t offset bytes : Nat) (value : W32) (s : State), Served s → isSafe s = false → bytes ≠ 4 →
    exec (.registerWrite t offset bytes value) s = .next (raise0 Ev.HIF_PARTIAL_WR (attach (tick t s)))) ∧
  (∀ (t offset : Nat) (value : W32) (s : State), Served s → isSafe s = false → offset % 4 = 0 → locate offset = none → inCounters offset = false →
    ∃ z, Only [⟨.HIF_UNMAP_ADDR, 0, 0⟩] (attach (tick t s)) z ∧ getF z F.HIF_UNMAP_ADDR_ADDR 0 0 = offset % 2 ^ F.HIF_UNMAP_ADDR_ADDR.w ∧
      exec (.registerWrite t offset 4 value) s = .next (raise0 Ev.HIF_UNMAPPED z) ∧
      exec (.unmappedAccess t offset true) s = .next (raise0 Ev.HIF_UNMAPPED z) ∧
      exec (.unmappedAccess t offset false) s = .next (emit (.readData 0 [0, 0, 0, 0]) (raise0 Ev.HIF_UNMAPPED z))) ∧
  (∀ (t offset : Nat) (value : W32) (k : RegKey) (s : State), Served s → isSafe s = false → offset % 4 = 0 → locate offset = some k →
    k.n ∈ [RegName.PORT_PTP, .PORT_PFC_TIME, .PORT_WD, .PORT_ADM, .HOST_FLOW, .IB_PORT_EN, .CHAIN_TIME_CFG] → domainOff s (domainOf offset) = false →
    let m : W32 := BitVec.ofNat 32 (regRow k.n).rw ||| BitVec.ofNat 32 (regRow k.n).keep
    let keep : W32 := BitVec.ofNat 32 (regRow k.n).keep
    let y := touchDomain offset (attach (tick t s))
    (noPort s k = true → exec (.registerWrite t offset 4 value) s = .next y) ∧
    (noPort s k = false → ∃ z, exec (.registerWrite t offset 4 value) s = .next z ∧ reg z k.n k.i k.j = (reg s k.n k.i k.j &&& ~~~m) ||| (value &&& m) ∧
      RegsKept ([k.n, .HIF_TOUCH_ADDR, .HIF_TOUCH_CNT] ++ eventRegs) s z ∧ (∀ i j, (i, j) ≠ (k.i, k.j) → reg z k.n i j = reg s k.n i j) ∧
      (reg s k.n k.i k.j &&& keep = value &&& keep → Only [k] y z) ∧
      (reg s k.n k.i k.j &&& keep ≠ value &&& keep → reg z .HIF_TOUCH_CNT 0 0 = reg s .HIF_TOUCH_CNT 0 0 + 1 ∧
        getF z F.HIF_TOUCH_ADDR_ADDR 0 0 = offset % 2 ^ F.HIF_TOUCH_ADDR_ADDR.w))) ∧
  (∀ (t offset : Nat) (value : W32) (k : RegKey) (s : State), Served s → isSafe s = false → offset % 4 = 0 → locate offset = some k →
    k.n ∈ [RegName.CMD_EVT, .PWR_EVT, .EPOCH_EVT, .TCAM_EVT, .LEARN_EVT, .PAL_EVT, .SCH_EVT, .TEL_EVT, .CNT_EVT, .ENG_EVT, .TWIN_EVT, .CHAIN_EVT, .FLT_EVT] →
    domainOff s (domainOf offset) = false → value &&& BitVec.ofNat 32 ((regRow k.n).keep) = reg s k.n k.i k.j &&& BitVec.ofNat 32 ((regRow k.n).keep) →
    let clears := value.toNat / 2 ^ 24 = getF s ⟨k.n, 24, 8⟩ k.i 0 ∧ (⟨k.n, k.i, 0⟩ : RegKey) ∉ s.rf.marks
    ∃ z, exec (.eventRegClear t offset value) s = .next z ∧ Only [⟨k.n, k.i, 0⟩] (touchDomain offset (attach (tick t s))) z ∧
      reg z k.n k.i 0 = if clears then reg s k.n k.i 0 &&& ~~~(BitVec.ofNat 32 ((regRow k.n).sc % 2 ^ 24)) else reg s k.n k.i 0) ∧
  (∀ (t offset : Nat) (k : RegKey) (s : State), Served s → isSafe s = false → offset % 4 = 0 → locate offset = some k → domainOff s (domainOf offset) = false →
    let y := attach (tick t s)
    (∀ at' n, wideWords k = 0 → 1 ≤ n → at' + n ≤ 4 → ∃ z, exec (.registerRead t (offset + at') n) s = .next z ∧
      z.out = .readData 0 (slice (leBytes 4 (liveWord y k).toNat) at' n) :: s.out ∧ z.rf.words = s.rf.words ∧ { z with rf := s.rf, out := s.out, free := s.free, host := s.host } = tick t s) ∧
    (k.j = 0 → wideWords k ≠ 0 → offset % (4 * wideWords k) = 0 → k.n ≠ .MAC_TS_POP →
      ∃ z, exec (.registerRead t offset (4 * wideWords k)) s = .next z ∧ z.out = .readData 0 (wordBytes (wideLive y k)) :: s.out ∧ z.rf.words = s.rf.words ∧
        { z with rf := s.rf, out := s.out, free := s.free, host := s.host } = tick t s)) ∧
  (∀ (t offset : Nat) (s : State), Served s → isSafe s = true → offset % 4 = 0 → safeServed offset = false →
    exec (.registerRead t offset 4) s = .next (emit (.readData 0 [255, 255, 255, 255]) (attach (tick t s)))) ∧
  (∀ (t gen width : Nat) (s : State), 4 ≤ gen → gen ≤ 6 → width = 1 ∨ width = 2 ∨ width = 4 →
    (halted s = false → s.flt.tripped = true ∨ bootStage s = 0 → exec (.pcieLinkUp t gen width) s = .next (tick t s)) ∧
    (Served s → ∃ z, exec (.pcieLinkUp t gen width) s = .next (if gen < 6 ∨ width < 4 then raise0 Ev.HIF_LINK_DEGRADE z else z) ∧
      getF z F.HIF_LINK_GEN 0 0 = gen ∧ getF z F.HIF_LINK_WIDTH 0 0 = width ∧ flag z F.HIF_LINK_FLIT 0 0 = decide (gen = 6) ∧
      flag z F.CLK_STAT_PCIE_REFCLK_OK 0 0 = true ∧ z.host = (attach (tick t s)).host ∧ Only [⟨.HIF_LINK, 0, 0⟩, ⟨.CLK_STAT, 0, 0⟩] (tick t s) { z with host := s.host }))

/-- Wide values (R56, R243, R257, R263, R264).  With WIDE_MODE = 0 a read of the low word of a 64-bit value answers it and holds the high word in the shadow for the read of the next offset.  A write of WIDE_MBX_ADDR while a mailbox read is in progress only sets OVERRUN, and otherwise with WIDE_MODE = 1 starts a read, which WIDE_MBX_DONE ends with VALID and the words of the value, or with ERR where no wide value begins at the address.  A VF reads bytes of the counters its table covers, of any size, and zero of other pages, with CNT_VF_DENIED once.  A read of MAC_TS_POP answers the oldest timestamp and removes it, or with WIDE_MODE = 1 answers zero and removes none.  The model's choices here: logs 43, 83.  Completes: `wideShadowRead`, `wideMbxAddrWrite`, `wideMbxDone`, `vfCounterRead`, `tsPopRead`. -/
def Obligations.WideAccess : Prop :=
  (∀ (t offset : Nat) (k : RegKey) (s : State), Served s → isSafe s = false → offset % 4 = 0 → locate offset = some k → k.j = 0 → wideWords k = 2 →
    flag s F.HIF_CFG_WIDE_MODE 0 0 = false → domainOff s (domainOf offset) = false →
    ∃ z, exec (.wideShadowRead t offset) s = .next z ∧ Out.readData 0 (leBytes 4 (liveWord (attach (tick t s)) k).toNat) ∈ z.out ∧
      tget z.rf.shadow (offset + 4) = some (liveWord (attach (tick t s)) ⟨k.n, k.i, 1⟩) ∧ z.rf.words = s.rf.words) ∧
  (∀ (t : Nat) (value : W32) (s : State), Served s → isSafe s = false → value &&& BitVec.ofNat 32 ((regRow .WIDE_MBX_ADDR).keep) = reg s .WIDE_MBX_ADDR 0 0 &&& BitVec.ofNat 32 ((regRow .WIDE_MBX_ADDR).keep) →
    ∃ z, exec (.wideMbxAddrWrite t value) s = .next z ∧ Only [⟨.WIDE_MBX_STAT, 0, 0⟩, ⟨.WIDE_MBX_ADDR, 0, 0⟩] (attach (tick t s)) z ∧
      (flag s F.WIDE_MBX_STAT_BUSY 0 0 = true → flag z F.WIDE_MBX_STAT_OVERRUN 0 0 = true ∧ reg z .WIDE_MBX_ADDR 0 0 = reg s .WIDE_MBX_ADDR 0 0) ∧
      (flag s F.WIDE_MBX_STAT_BUSY 0 0 = false → flag s F.HIF_CFG_WIDE_MODE 0 0 = true → flag z F.WIDE_MBX_STAT_BUSY 0 0 = true ∧
        flag z F.WIDE_MBX_STAT_VALID 0 0 = false ∧ flag z F.WIDE_MBX_STAT_ERR 0 0 = false ∧ flag z F.WIDE_MBX_STAT_OVERRUN 0 0 = false)) ∧
  (∀ (t : Nat) (s : State), Operating s → flag s F.WIDE_MBX_STAT_BUSY 0 0 = true → ∃ z, exec (.wideMbxDone t) s = .next z ∧
    flag z F.WIDE_MBX_STAT_BUSY 0 0 = false ∧
    let y := setF F.WIDE_MBX_STAT_BUSY 0 0 0 (tick t s)
    let at' := getF s F.WIDE_MBX_ADDR_ADDR 0 0
    (mbxValue at' y = none → flag z F.WIDE_MBX_STAT_ERR 0 0 = true ∧ flag z F.WIDE_MBX_STAT_VALID 0 0 = false) ∧
    (∀ ws x, mbxValue at' y = some (ws, x) → flag z F.WIDE_MBX_STAT_VALID 0 0 = true ∧ getF z F.WIDE_MBX_STAT_WORDS 0 0 = (ws.length - 1) % 4 ∧
      ∀ i, i < ws.length → reg z .WIDE_MBX_DATA i 0 = (ws[i]?).getD 0)) ∧
  (∀ (t vf offset size : Nat) (s : State), Served s → isSafe s = false → vf < 64 → offset + size ≤ vfBar0.size →
    let y := attach (tick t s)
    ((List.range size).all (fun k => vfSees s vf (offset + k)) = true →
      ∃ d z, exec (.vfCounterRead t vf ⟨offset, size⟩) s = .next (emit (.readData (2 + vf) d) z) ∧ d.length = size ∧ z.rf.words = s.rf.words ∧ { z with rf := s.rf } = y ∧
        (size = 8 → offset % 8 = 0 → d = leBytes 8 (counterAt y offset))) ∧
    ((List.range size).all (fun k => vfSees s vf (offset + k)) = false →
      ∃ d z, exec (.vfCounterRead t vf ⟨offset, size⟩) s = .next (emit (.readData (2 + vf) d) (raise Ev.CNT_VF_DENIED vf vf z)) ∧ d.length = size ∧
        ((List.range size).all (fun k => !vfCovers s vf ((offset + k) / 4096)) = true → d = zeros size) ∧
        reg z .VF_DENIED_CNT 0 0 = reg s .VF_DENIED_CNT 0 0 + 1 ∧ RegsKeptBut [⟨.VF_DENIED_CNT, 0, 0⟩] s z ∧ { z with rf := s.rf } = y)) ∧
  (∀ (t mac : Nat) (s : State), Served s → isSafe s = false → mac < 96 → domainOff s (11 + mac / 12) = false →
    ∃ z, exec (.tsPopRead t mac) s = .next z ∧ z.rf.words = s.rf.words ∧ { z with rf := s.rf, out := s.out, port := s.port, free := s.free, host := s.host } = tick t s ∧
      (flag s F.HIF_CFG_WIDE_MODE 0 0 = false → Out.readData 0 (leBytes 16 (tsPopHead s mac)) ∈ z.out ∧ (macRt z mac).caps = (macRt s mac).caps.drop 1) ∧
      (flag s F.HIF_CFG_WIDE_MODE 0 0 = true → Out.readData 0 (zeros 16) ∈ z.out ∧ z.port = s.port))

/-- Fields of 64 bits (R265).  The low word written to a 64-bit RW field is held and nothing else changes; the high word ends the hold, and the field takes both words together, with the low word in force where none was held.  A ring's address under EN, and one with low bits that must be zero, stays as it is (R239, R267, R287); TOD_SET's value becomes TOD.  The model's choices here: refused addresses, log 43.  Completes: `wideFieldWrite`. -/
def Obligations.FieldsOf64Bits : Prop :=
  ∀ (t offset : Nat) (value : W32) (k : RegKey) (s : State), Served s → isSafe s = false → offset % 4 = 0 → locate offset = some k →
    k.n ∈ [RegName.SMP_RING_BASE, .SMP_WB_ADDR, .SWATCH_BUF_A, .SWATCH_BUF_B, .PKT_RING_BASE, .PKT_WB_ADDR, .SQ_BASE, .CQ_BASE, .CMD_WB_ADDR, .TOD_SET] →
    (k.j = 0 → exec (.registerWrite t offset 4 value) s = .next { attach (tick t s) with rf := { s.rf with held := tset s.rf.held offset value } }) ∧
    (k.j = 1 →
      let v := (tgetD s.rf.held (offset - 4) (reg s k.n k.i 0)).toNat + value.toNat * 2 ^ 32
      let refused := v % 2 ^ lowZero k.n ≠ 0 ∨ baseLocked s k = true
      ∃ z, exec (.wideFieldWrite t offset value) s = .next z ∧ exec (.registerWrite t offset 4 value) s = .next z ∧ tget z.rf.held (offset - 4) = none ∧
        wide z k.n k.i 2 = (if refused then wide s k.n k.i 2 else v) ∧
        (k.n = .TOD_SET → z.clk.tod = v) ∧
        (k.n ≠ .TOD_SET → Only [⟨k.n, k.i, 0⟩, ⟨k.n, k.i, 1⟩] (attach (tick t s)) { z with rf := { z.rf with held := s.rf.held } }))

/-- Settings that take effect later or only within bounds (R16, R17, R67, R121, R134, R169, R223, R234).  A new pipeline in a source's field of GLB_SRC_MAP reads back at once, is pending with its marker at the tail of the old pipeline's queue, and SRC_MOVE_DONE ends the move once the marker has left the old pipeline, behind every packet that was ahead of it, and the source's scoped rows lie in the new.  A write of a parser register or of the hash seed holds the value and shows it pending.  HOLD_MAX_MS, the export period and a rate window outside their ranges are left as they were, a pool size whose sum would exceed the cells in service is refused with PAL_CFG_REFUSED, and within range each is stored.  The model's choices here: logs 47, 58.  Completes: `srcMapWrite`, `srcMoveDone`, `parseCfgWrite`, `holdMaxWrite`, `poolSizeWrite`, `expPeriodWrite`, `windowUsWrite`. -/
def Obligations.SettingsInBounds : Prop :=
  (∀ (t k new : Nat) (value : W32) (s : State), Operating s → bootStage s ≠ 0 → k < 4 → bits value.toNat (8 * k) 5 = new →
    (∀ j, j < 4 → j ≠ k → bits value.toNat (8 * j) 5 = getF s (srcField j) 0 0) →
    value &&& BitVec.ofNat 32 (regRow .GLB_SRC_MAP0).keep = reg s .GLB_SRC_MAP0 0 0 &&& BitVec.ofNat 32 (regRow .GLB_SRC_MAP0).keep →
    new ≠ getF s (srcField k) 0 0 → tget s.port.srcOld k = none →
    ∃ z, exec (.srcMapWrite t 0 value) s = .next z ∧ getF z (srcField k) 0 0 = new ∧ flag z ⟨.GLB_SRC_MAP1, 16 + k, 1⟩ 0 0 = true ∧
      tget z.port.srcOld k = some (getF s (srcField k) 0 0) ∧ tget z.port.srcTo k = some new ∧
      (∃ m, fifo z (servingPipe s 0 (getF s (srcField k) 0 0)) = fifo s (servingPipe s 0 (getF s (srcField k) 0 0)) ++ [m] ∧ m.marker = true ∧ m.src = 768 + k)) ∧
  (∀ (t src old new : Nat) (s : State), Operating s → src < 5 → tget s.port.srcOld src = some old → tget s.port.srcTo src = some new →
    let p := servingPipe s 0 old
    (markerOut s p src = false ∨ scopeReady s src new = false → exec (.srcMoveDone t src) s = .next (tick t s)) ∧
    (markerOut s p src = true → scopeReady s src new = true → getF s (srcField src) 0 0 = new → tgetD s.port.srcHeld src [] = [] →
      ∃ z, exec (.srcMoveDone t src) s = .next z ∧ tget z.port.srcOld src = none ∧ tget z.port.srcTo src = none ∧
        flag z ⟨.GLB_SRC_MAP1, 16 + src, 1⟩ 0 0 = false ∧ fifo z p = (fifo s p).filter (fun e => !(e.marker && e.src == 768 + src)))) ∧
  (∀ (t : Nat) (value : W32) (s : State), Operating s →
    (∃ z, exec (.parseCfgWrite t 0 value) s = .next z ∧ reg z .PARSE_CFG0 0 0 = value ∧ flag z F.PIPE_CFG_STAT_PARSE_PEND 0 0 = true ∧
      Only [⟨.PARSE_CFG0, 0, 0⟩, ⟨.PIPE_CFG_STAT, 0, 0⟩] (tick t s) z) ∧
    (∃ z, exec (.parseCfgWrite t 4 value) s = .next z ∧ reg z .GLB_HASH_SEED 0 0 = value ∧ flag z F.PIPE_CFG_STAT_SEED_PEND 0 0 = true ∧
      Only [⟨.GLB_HASH_SEED, 0, 0⟩, ⟨.PIPE_CFG_STAT, 0, 0⟩] (tick t s) z)) ∧
  (∀ (t : Nat) (value : W32) (s : State), Operating s →
    let v := bits value.toNat 0 14
    (v = 0 ∨ 10000 < v → exec (.holdMaxWrite t value) s = .next (tick t s)) ∧
    (1 ≤ v → v ≤ 10000 → (∀ n, n < 16 → epState s n ≠ 3) → ∃ z, exec (.holdMaxWrite t value) s = .next z ∧ getF z F.EPOCH_CFG_HOLD_MAX_MS 0 0 = v ∧
      Only [⟨.EPOCH_CFG, 0, 0⟩] (tick t s) z)) ∧
  (∀ (t i : Nat) (value : W32) (s : State), Operating s → i < 4 →
    let size := value.toNat % 2 ^ 21
    let rest := partsSum s - getF s F.PAL_POOL_SIZE_SIZE i 0
    (cellsInService s < rest + size → partsSum s < rest + size →
      exec (.poolSizeWrite t (0xC00020 + 4 * i) value) s = .next (raise0 Ev.PAL_CFG_REFUSED (tick t s))) ∧
    (rest + size ≤ cellsInService s → ∃ z, exec (.poolSizeWrite t (0xC00020 + 4 * i) value) s = .next z ∧ getF z F.PAL_POOL_SIZE_SIZE i 0 = size ∧
      ∀ j, j ≠ i → getF z F.PAL_POOL_SIZE_SIZE j 0 = getF s F.PAL_POOL_SIZE_SIZE j 0)) ∧
  (∀ (t : Nat) (value : W32) (s : State), Operating s → bootStage s ≠ 0 →
    value &&& BitVec.ofNat 32 (regRow .TEL_CFG).keep = reg s .TEL_CFG 0 0 &&& BitVec.ofNat 32 (regRow .TEL_CFG).keep →
    ∃ z, exec (.expPeriodWrite t value) s = .next z ∧ Only [⟨.TEL_CFG, 0, 0⟩] (attach (tick t s)) z ∧
    (let p := bits value.toNat 22 10
     getF z F.TEL_CFG_EXP_PERIOD_US 0 0 = if 1 ≤ p ∧ p ≤ 1000 then p else getF s F.TEL_CFG_EXP_PERIOD_US 0 0) ∧
    (let p := bits value.toNat 10 12
     getF z F.TEL_CFG_TEMPLATE_S 0 0 = if 1 ≤ p ∧ p ≤ 3600 then p else getF s F.TEL_CFG_TEMPLATE_S 0 0)) ∧
  (∀ (t src : Nat) (value : W32) (s : State), Operating s → bootStage s ≠ 0 → src < 773 → locate (0x2403000 + 4 * src) = some ⟨.PORT_RATE_CFG, src, 0⟩ →
    value &&& BitVec.ofNat 32 (regRow .PORT_RATE_CFG).keep = reg s .PORT_RATE_CFG src 0 &&& BitVec.ofNat 32 (regRow .PORT_RATE_CFG).keep →
    let v := bits value.toNat 0 26
    ∃ z, exec (.windowUsWrite t src value) s = .next z ∧
      getF z F.PORT_RATE_CFG_WINDOW_US src 0 = (if v = 0 ∨ 60000000 < v then getF s F.PORT_RATE_CFG_WINDOW_US src 0 else v) ∧
      (v ≠ 0 → v ≤ 60000000 → v ≠ getF s F.PORT_RATE_CFG_WINDOW_US src 0 → tget z.tele.winStart src = none) ∧
      Only [⟨.PORT_RATE_CFG, src, 0⟩] (attach (tick t s)) { z with tele := s.tele })

/-- Lane drivers (R40, R41, R46, R47, Table 2.10).  Tap settings whose other four taps exceed 63 are refused and otherwise leave C_MAIN no more than 63 less their sum.  RAMP ends ON after 20 µs; an overcurrent in RAMP or ON counts in TRIP_TOTAL and leads to SHORT_WAIT, or to LATCHED at RETRY_COUNT 8, a shorter one counts in OC_GLITCH; 100 ms after a trip the retry is counted and RAMP begins; 1 s ON clears RETRY_COUNT; REARM takes a LATCHED driver out with RETRY_COUNT 0; TX_SQUELCH takes a driver to OFF.  The wake of a macro, or of a Stretcher port (96 + n), ends with its SerDes powered.  A driver not in the state named is left alone.  The model's choices here: rows whose condition fails, log 17.  Completes: `laneTxeqWrite`, `rampComplete`, `txTrip`, `ocGlitch`, `shortRetry`, `retryClear`, `rearm`, `txSquelch`, `serdesWakeDone`. -/
def Obligations.LaneDrivers : Prop :=
  (∀ (t mac lane : Nat) (value : W32) (s : State), Operating s → mac < 96 → lane < 8 → portOfLane s mac lane = none →
    let others := (signed 6 (bits value.toNat 24 6)).natAbs + (signed 6 (bits value.toNat 12 6)).natAbs + (signed 6 (bits value.toNat 6 6)).natAbs + (signed 6 (bits value.toNat 0 6)).natAbs
    (63 < others → exec (.laneTxeqWrite t mac lane value) s = .next (tick t s)) ∧
    (others ≤ 63 → ∃ z, exec (.laneTxeqWrite t mac lane value) s = .next z ∧ Only [⟨.LANE_TXEQ, mac, lane⟩] (tick t s) z ∧
      getF z ⟨.LANE_TXEQ, 18, 6⟩ mac lane = min (bits value.toNat 18 6) (63 - others) ∧ getF z ⟨.LANE_TXEQ, 24, 6⟩ mac lane = bits value.toNat 24 6 ∧
      getF z ⟨.LANE_TXEQ, 0, 18⟩ mac lane = bits value.toNat 0 18)) ∧
  (∀ (t mac lane : Nat) (s : State), Operating s → drvExists mac lane = true →
    let st := drvState s mac lane
    let now := (tick t s).clk.mono
    let key : RegKey := ⟨drvCtl mac, drvUnit mac, lane⟩
    let trip : RegKey := ⟨drvTrip mac, drvUnit mac, lane⟩
    -- RAMP_COMPLETE
    (st = 1 → (laneRt s mac lane).rampAt + 20000 ≤ now → ∃ z, exec (.rampComplete t mac lane) s = .next z ∧ drvState z mac lane = 2 ∧
      (laneRt z mac lane).onSince = now ∧ Only [key] (tick t s) { z with port := s.port, out := s.out }) ∧
    (st ≠ 1 ∨ now < (laneRt s mac lane).rampAt + 20000 → exec (.rampComplete t mac lane) s = .next (tick t s)) ∧
    -- TX_TRIP
    (st = 1 ∨ st = 2 → ∃ z, exec (.txTrip t mac lane) s = .next z ∧ (drvRetry s mac lane = 8 → getF z ⟨drvCtl mac, 8, 3⟩ (drvUnit mac) lane = 4) ∧
      (drvRetry s mac lane ≠ 8 → getF z ⟨drvCtl mac, 8, 3⟩ (drvUnit mac) lane = 3) ∧
      getF z ⟨drvTrip mac, 16, 8⟩ (drvUnit mac) lane = min (getF s ⟨drvTrip mac, 16, 8⟩ (drvUnit mac) lane + 1) 255 ∧ (laneRt z mac lane).tripAt = now) ∧
    (st ≠ 1 → st ≠ 2 → exec (.txTrip t mac lane) s = .next (tick t s)) ∧
    -- OC_GLITCH
    (st = 1 ∨ st = 2 → ∃ z, exec (.ocGlitch t mac lane) s = .next z ∧ Only [trip] (tick t s) z ∧
      getF z ⟨drvTrip mac, 0, 16⟩ (drvUnit mac) lane = min (getF s ⟨drvTrip mac, 0, 16⟩ (drvUnit mac) lane + 1) 65535) ∧
    -- SHORT_RETRY
    (st = 3 → (laneRt s mac lane).tripAt + 100000000 ≤ now → ∃ z, exec (.shortRetry t mac lane) s = .next z ∧ drvState z mac lane = 1 ∧
      drvRetry z mac lane = (drvRetry s mac lane + 1) % 16 ∧ (laneRt z mac lane).rampAt = now ∧ Only [key] (tick t s) { z with port := s.port }) ∧
    (st ≠ 3 ∨ now < (laneRt s mac lane).tripAt + 100000000 → exec (.shortRetry t mac lane) s = .next (tick t s)) ∧
    -- RETRY_CLEAR
    (st = 2 → (laneRt s mac lane).onSince + 1000000000 ≤ now → ∃ z, exec (.retryClear t mac lane) s = .next z ∧ drvRetry z mac lane = 0 ∧
      drvState z mac lane = 2 ∧ Only [key] (tick t s) z) ∧
    -- REARM
    (st = 4 → ∃ z, exec (.rearm t mac lane) s = .next z ∧ (drvState z mac lane = 0 ∨ drvState z mac lane = 1) ∧ drvRetry z mac lane = 0 ∧
      (drvSquelch s mac lane = true → drvState z mac lane = 0) ∧ Only [key] (tick t s) { z with port := s.port }) ∧
    (st ≠ 4 → exec (.rearm t mac lane) s = .next (tick t s)) ∧
    -- TX_SQUELCH
    (st = 1 ∨ st = 2 ∨ st = 3 → ∃ z, exec (.txSquelch t mac lane true) s = .next z ∧ drvSquelch z mac lane = true ∧
      getF z ⟨drvCtl mac, 8, 3⟩ (drvUnit mac) lane = 0 ∧ drvRetry z mac lane = 0) ∧
    (st ≠ 0 → ∃ z, exec (.txSquelch t mac lane false) s = .next z ∧ drvSquelch z mac lane = false ∧ drvState z mac lane = st ∧ Only [key] (tick t s) z)) ∧
  (∀ (t mac w : Nat) (s : State), Operating s → mac < 96 → (macRt s mac).wakeAt = some w →
    ((tick t s).clk.mono < w → exec (.serdesWakeDone t mac) s = .next (tick t s)) ∧
    (w ≤ (tick t s).clk.mono → ∃ z, exec (.serdesWakeDone t mac) s = .next z ∧ (macRt z mac).powered = true ∧ (macRt z mac).wakeAt = none ∧
      RegsKept [.LANE_TXCTL] s z ∧ { z with rf := s.rf, port := s.port } = tick t s)) ∧
  (∀ (t n w : Nat) (s : State), Operating s → n < 4 → (stlPort s n).wakeAt = some w →
    ((tick t s).clk.mono < w → exec (.serdesWakeDone t (96 + n)) s = .next (tick t s)) ∧
    (w ≤ (tick t s).clk.mono → ∃ z, exec (.serdesWakeDone t (96 + n)) s = .next z ∧ (stlPort z n).awake = true ∧ (stlPort z n).wakeAt = none ∧
      RegsKept [.STL_LANE_TXCTL] s z ∧ { z with rf := s.rf, port := s.port, stl := s.stl } = tick t s))

/-- Time of day (R403, R404).  A write of TOD_SET's high word steps TOD to the value, sets the backup and VALID, and the register reads what was written; a whole second sets the backup from TOD and drives TOD_1PPS_OUT where it is enabled; an edge of TOD_1PPS_IN captures TOD where capture is enabled.  The model's choices here: log 22.  Completes: `todSet`, `todSecond`, `ppsCapture`. -/
def Obligations.TimeOfDay : Prop :=
  (∀ (t value : Nat) (s : State), Operating s → ∃ z, exec (.todSet t value) s = .next z ∧ z.clk.tod = value % 2 ^ 64 ∧ z.clk.aonTod = value % 2 ^ 64 ∧
    z.clk.mono = (tick t s).clk.mono ∧ flag z F.TOD_CTL_VALID 0 0 = true ∧ wide z .TOD_SET 0 2 = value % 2 ^ 64 ∧
    z.tbl = s.tbl ∧ z.eng = s.eng ∧ z.fuse = s.fuse) ∧
  (∀ (t : Nat) (s : State), Operating s →
    let y := { tick t s with clk := { (tick t s).clk with aonTod := (tick t s).clk.tod, aonMono := (tick t s).clk.mono } }
    exec (.todSecond t) s = .next (if flag s F.TOD_CTL_PPS_OUT_EN 0 0 then emit (.pin 2 1) y else y)) ∧
  (∀ (t : Nat) (s : State), Operating s →
    (flag s F.TOD_CTL_PPS_IN_EN 0 0 = false → exec (.ppsCapture t) s = .next (tick t s)) ∧
    (flag s F.TOD_CTL_PPS_IN_EN 0 0 = true → ∃ z, exec (.ppsCapture t) s = .next z ∧ wide z .TOD_PPS_CAP 0 2 = (tick t s).clk.tod % 2 ^ 64 ∧
      Only [⟨.TOD_PPS_CAP, 0, 0⟩, ⟨.TOD_PPS_CAP, 0, 1⟩] (tick t s) z))

/-- Packet, command and sample rings (R239, R266 to R268, R270, R271, R286, R287).  Enabling a ring puts its positions to 0, its sizes having changed only while it was disabled and within range; a reset ends it with EN 0 and RST_DONE 1, at once on a command ring; a tail written posts the slots up to it.  A tail of a submission ring moves the tail and takes entries only where the ring is enabled; a head of a completion ring is stored.  COAL_TIMER ends a ring's coalescing once COAL_US have passed since the first completion.  The model's choices here: command-ring reset, log 10; host memory, log 27; changes of parent that waited, log 81.  Completes: `ringEnable`, `ringReset`, `ringResetDone`, `ringTailWrite`, `cmdRingEnable`, `cmdRingReset`, `sqTailWrite`, `cqHeadWrite`, `sampleRingEnable`, `sampleConsWrite`, `coalTimer`. -/
def Obligations.Rings : Prop :=
  (∀ (t r : Nat) (value : W32) (s : State), Operating s → bootStage s ≠ 0 → r < 64 → flag s F.PKT_RING_CFG_EN r 0 = false → bit value.toNat 31 = true →
    bit value.toNat 30 = false →
    value &&& BitVec.ofNat 32 (regRow .PKT_RING_CFG).keep = reg s .PKT_RING_CFG r 0 &&& BitVec.ofNat 32 (regRow .PKT_RING_CFG).keep →
    ∃ z, exec (.ringEnable t r value) s = .next z ∧ flag z F.PKT_RING_CFG_EN r 0 = true ∧ flag z F.PKT_RING_CFG_RST_DONE r 0 = false ∧
      getF z F.RING_HEAD_HEAD r 0 = 0 ∧ getF z F.RING_TAIL_TAIL r 0 = 0 ∧ getF z F.PKT_RING_CFG_VECTOR r 0 = bits value.toNat 16 8 ∧
      getF z F.PKT_RING_CFG_SIZE_LOG2 r 0 = (if 6 ≤ bits value.toNat 0 4 then bits value.toNat 0 4 else getF s F.PKT_RING_CFG_SIZE_LOG2 r 0) ∧
      (pktRing z r).posted = [] ∧ RegsKeptExcept [⟨.PKT_RING_CFG, r, 0⟩, ⟨.RING_HEAD, r, 0⟩, ⟨.RING_TAIL, r, 0⟩] movedRegs s z ∧
      (∀ x, x ≠ r → pktRing z x = pktRing s x) ∧ z.pal = s.pal ∧ z.tbl = s.tbl ∧ z.cmd = s.cmd) ∧
  (∀ (t r : Nat) (s : State), Operating s → r < 64 →
    (∃ z, exec (.ringReset t r) s = .next z ∧ flag z F.PKT_RING_CFG_RESET r 0 = true ∧ (pktRing z r).reserved = (if r < 32 then [] else (pktRing s r).reserved) ∧
      (32 ≤ r → (pktRing z r).staged = none)) ∧
    (flag s F.PKT_RING_CFG_RESET r 0 = false → exec (.ringResetDone t r) s = .next (tick t s)) ∧
    (flag s F.PKT_RING_CFG_RESET r 0 = true → ∃ z, exec (.ringResetDone t r) s = .next z ∧ flag z F.PKT_RING_CFG_EN r 0 = false ∧
      flag z F.PKT_RING_CFG_RST_DONE r 0 = true ∧ flag z F.PKT_RING_CFG_RESET r 0 = false ∧ (pktRing z r).posted = [] ∧
      RegsKeptExcept [⟨.PKT_RING_CFG, r, 0⟩] movedRegs s z ∧ (∀ x, x ≠ r → pktRing z x = pktRing s x) ∧ z.pal = s.pal ∧ z.tbl = s.tbl ∧ z.cmd = s.cmd)) ∧
  (∀ (t r tail : Nat) (frames : List (List Byte)) (s : State), Operating s → r < 64 → tail < ringSize s r →
    let n := (tail + ringSize s r - getF s F.RING_TAIL_TAIL r 0 % ringSize s r) % ringSize s r
    ∃ z, exec (.ringTailWrite t r tail frames) s = .next z ∧ getF z F.RING_TAIL_TAIL r 0 = tail ∧
      (pktRing z r).posted.length = (pktRing s r).posted.length + n ∧ (pktRing z r).posted.take (pktRing s r).posted.length = (pktRing s r).posted ∧
      (∀ k b, k < n → frames[k]? = some b → (pktRing z r).posted[(pktRing s r).posted.length + k]? = some b) ∧ RegsKeptExcept [⟨.RING_TAIL, r, 0⟩] movedRegs s z ∧
      (∀ x, x ≠ r → pktRing z x = pktRing s x) ∧ z.pal = s.pal ∧ z.tbl = s.tbl ∧ z.cmd = s.cmd) ∧
  (∀ (t r : Nat) (value : W32) (s : State), Operating s → bootStage s ≠ 0 → r < 16 → flag s F.CMD_RING_CFG_EN r 0 = false → bit value.toNat 31 = true →
    bit value.toNat 30 = false →
    value &&& BitVec.ofNat 32 (regRow .CMD_RING_CFG).keep = reg s .CMD_RING_CFG r 0 &&& BitVec.ofNat 32 (regRow .CMD_RING_CFG).keep →
    ∃ z, exec (.cmdRingEnable t r value) s = .next z ∧ flag z F.CMD_RING_CFG_EN r 0 = true ∧ getF z F.SQ_TAIL_TAIL r 0 = 0 ∧ getF z F.SQ_HEAD_HEAD r 0 = 0 ∧
      getF z F.CQ_HEAD_HEAD r 0 = 0 ∧ getF z F.CQ_TAIL_TAIL r 0 = 0 ∧ (cmdRing z r).phase = true ∧ (cmdRing z r).waiting = [] ∧
      getF z F.CMD_RING_CFG_SQ_SIZE_LOG2 r 0 = (if 6 ≤ bits value.toNat 0 4 ∧ bits value.toNat 0 4 ≤ 12 then bits value.toNat 0 4 else getF s F.CMD_RING_CFG_SQ_SIZE_LOG2 r 0) ∧
      Only [⟨.CMD_RING_CFG, r, 0⟩, ⟨.SQ_TAIL, r, 0⟩, ⟨.SQ_HEAD, r, 0⟩, ⟨.CQ_HEAD, r, 0⟩, ⟨.CQ_TAIL, r, 0⟩] (attach (tick t s)) { z with cmd := s.cmd } ∧
      (∀ x, x ≠ r → cmdRing z x = cmdRing s x) ∧ z.cmd.outstanding = s.cmd.outstanding) ∧
  (∀ (t r : Nat) (s : State), Operating s → r < 16 → ∃ z, exec (.cmdRingReset t r) s = .next z ∧ flag z F.CMD_RING_CFG_EN r 0 = false ∧
    flag z F.CMD_RING_CFG_RST_DONE r 0 = true ∧ (cmdRing z r).waiting = [] ∧ (∀ o ∈ z.cmd.outstanding, o.kind = 0 → o.sub = r → o.muted = true) ∧
    Only [⟨.CMD_RING_CFG, r, 0⟩] (tick t s) { z with cmd := s.cmd, chain := s.chain }) ∧
  (∀ (t r tail : Nat) (entries : List (List Byte)) (s : State), halted s = false → s.flt.tripped = false → r < 16 → tail < 2 ^ 12 →
    (flag s F.CMD_RING_CFG_EN r 0 = false ∨ entries = [] → ∃ z, exec (.sqTailWrite t r tail entries) s = .next z ∧ getF z F.SQ_TAIL_TAIL r 0 = tail ∧
      Only [⟨.SQ_TAIL, r, 0⟩] (attach (tick t s)) z) ∧
    (∀ e, entries = [e] → flag s F.CMD_RING_CFG_EN r 0 = true → getF s F.SQ_HEAD_HEAD r 0 ≠ tail →
      (s.cmd.outstanding.filter (fun x => x.kind == 0)).length < share 0 →
      exec (.sqTailWrite t r tail entries) s = .next (takeEntry r e (setF F.SQ_TAIL_TAIL r 0 tail (attach (tick t s)))))) ∧
  (∀ (t r head : Nat) (s : State), halted s = false → s.flt.tripped = false → r < 16 → head < 2 ^ 12 → (cmdRing s r).waiting = [] →
    ∃ z, exec (.cqHeadWrite t r head) s = .next z ∧ getF z F.CQ_HEAD_HEAD r 0 = head ∧ Only [⟨.CQ_HEAD, r, 0⟩] (attach (tick t s)) z) ∧
  (∀ (t r : Nat) (value : W32) (s : State), Operating s → bootStage s ≠ 0 → r < 8 → flag s F.SMP_RING_CFG_EN r 0 = false → bit value.toNat 31 = true →
    value &&& BitVec.ofNat 32 (regRow .SMP_RING_CFG).keep = reg s .SMP_RING_CFG r 0 &&& BitVec.ofNat 32 (regRow .SMP_RING_CFG).keep →
    ∃ z, exec (.sampleRingEnable t r value) s = .next z ∧ flag z F.SMP_RING_CFG_EN r 0 = true ∧ reg z .PROD r 0 = 0 ∧ reg z .CONS r 0 = 0 ∧
      Only [⟨.SMP_RING_CFG, r, 0⟩, ⟨.PROD, r, 0⟩, ⟨.CONS, r, 0⟩] (attach (tick t s)) z) ∧
  (∀ (t r cons : Nat) (s : State), Operating s → bootStage s ≠ 0 → r < 8 → cons < 2 ^ 32 →
    ∃ z, exec (.sampleConsWrite t r cons) s = .next z ∧ (reg z .CONS r 0).toNat = cons ∧ Only [⟨.CONS, r, 0⟩] (attach (tick t s)) z) ∧
  (∀ (t r : Nat) (s : State), Operating s →
    (r < 16 → (cmdRing s r).coal.count ≠ 0 → getF s F.CMD_RING_TIME_COAL_US r 0 ≠ 0 →
      (cmdRing s r).coal.first + getF s F.CMD_RING_TIME_COAL_US r 0 * 1000 ≤ (tick t s).clk.mono →
      ∃ z, exec (.coalTimer t true r) s = .next z ∧ (cmdRing z r).coal = {} ∧ RegsKept [.MSIX_PBA] s z) ∧
    (r < 64 → (pktRing s r).coal.count ≠ 0 → getF s F.PKT_RING_TIME_COAL_US r 0 ≠ 0 →
      (pktRing s r).coal.first + getF s F.PKT_RING_TIME_COAL_US r 0 * 1000 ≤ (tick t s).clk.mono →
      ∃ z, exec (.coalTimer t false r) s = .next z ∧ (pktRing z r).coal = {} ∧ RegsKept [.MSIX_PBA] s z) ∧
    (r < 16 → (cmdRing s r).coal.count = 0 → exec (.coalTimer t true r) s = .next (tick t s)))

/-- Power, reset and boot (R364, R376, R385, R393, R395, R398, R401, Table 18.2, Table 18.3).  AON power applied leaves the reset state but for the fuses, the flash copies and what is outside the device; AON power lost leaves a device in which nothing acts.  RST_N without AON power does nothing, and otherwise is a cold reset: LAST_RESET 1, boot from core release, the safe state, the freeze and a thermal trip ended, and the fault history kept.  A host reset resets every packet ring, stops every DMA and disables MSI-X, WIDE_MODE and EVT_VECTOR.  Each stage's end begins the next.  The last rail in its window begins CORE_RELEASE.  A rail out of its window after core release, and a lost reference clock after Ready, bring the safe state by cause 1.  The model's choices here: logs 34, 38, 39, 40, 41; the console's lines, log 45.  Completes: `powerOn`, `aonPowerLoss`, `rstN`, `hostReset`, `bootStageDone`, `railGood`, `railFault`, `refclkLoss`. -/
def Obligations.ResetAndBoot : Prop :=
  (∀ (t : Nat) (s : State), (∃ z, exec (.powerOn t) s = .next z ∧ z.boot.off = false ∧ bootStage z = 0 ∧ isSafe z = false ∧ z.flt = {} ∧ z.clk.tod = 0 ∧
      z.tbl = {} ∧ z.pal = {} ∧ z.sched = {} ∧ z.eng = [] ∧ z.fuse.log = s.fuse.log ∧ z.fw.flash0 = s.fw.flash0 ∧ z.fw.flash1 = s.fw.flash1 ∧
      z.fw.running = none ∧ z.pending = s.pending ∧ RegsKept [.PWR_CTL] {} z) ∧
    (∃ z, exec (.aonPowerLoss t) s = .next z ∧ z.boot.off = true ∧ halted z = true ∧ isSafe z = false ∧ z.flt = {} ∧ z.fuse.log = s.fuse.log)) ∧
  (∀ (t : Nat) (s : State), (s.boot.off = true → exec (.rstN t) s = .next s) ∧
    (s.boot.off = false → ∃ z, exec (.rstN t) s = .next z ∧ getF z F.RST_STAT_LAST_RESET 0 0 = 1 ∧ bootStage z ≤ 1 ∧ isSafe z = false ∧ z.flt.frozen = false ∧
      z.flt.tripped = false ∧ z.cmd.outstanding = [] ∧ z.eng = [] ∧ z.pal.pkts = [] ∧ z.fuse.log = s.fuse.log ∧ z.fw.flash0 = s.fw.flash0 ∧
      reg z .HIST_TOTAL 0 0 = reg s .HIST_TOTAL 0 0 ∧ (∀ n j, reg z .FLT_HIST n j = reg s .FLT_HIST n j))) ∧
  (∀ (t cause : Nat) (s : State), halted s = false → s.flt.tripped = false → ∃ z, exec (.hostReset t cause) s = .next z ∧ z.host.msix = false ∧ z.host.dma = false ∧
    z.host.d3hot = decide (cause = 2) ∧ getF z F.HIF_CFG_EVT_VECTOR 0 0 = 0 ∧
    flag z F.HIF_CFG_WIDE_MODE 0 0 = false ∧ z.rf.shadow = [] ∧ (∀ r, r < 64 → flag z F.PKT_RING_CFG_RESET r 0 = true) ∧
    (cause = 1 → ∀ r, r < 16 → flag z F.CMD_RING_CFG_EN r 0 = false) ∧ z.fuse = s.fuse) ∧
  (∀ (t : Nat) (c0 c1 : Option Gesso) (s : State), Operating s →
    (bootStage s = 0 → flag s F.CLK_STAT_AON_CLK_OK 0 0 = false → getF s F.RST_STAT_RAIL_OK 0 0 = 63 → ∃ z, exec (.bootStageDone t c0 c1) s = .next z ∧ bootStage z = 1) ∧
    (bootStage s = 1 → ∃ z, exec (.bootStageDone t c0 c1) s = .next z ∧ bootStage z = 2 ∧ flag z F.CLK_STAT_REFCLK_OK 0 0 = true) ∧
    (bootStage s = 2 → ∃ z, exec (.bootStageDone t c0 c1) s = .next z ∧ bootStage z = 3) ∧
    (bootStage s = 3 → ∃ z, exec (.bootStageDone t c0 c1) s = .next z ∧
      ((bootStage z = 4 ∧ ∃ g, gessoValid s.fuse g = true ∧ z.fw.running = some g) ∨ (bootStage z = 7 ∧ flag z F.FW_STAT_RECOVERY 0 0 = true ∧ z.fw.running = none))) ∧
    (bootStage s = 3 → getF s F.RST_STAT_LAST_RESET 0 0 ≠ 2 → c0.or s.fw.flash0 = none → c1.or s.fw.flash1 = none →
      ∃ z, exec (.bootStageDone t c0 c1) s = .next z ∧ bootStage z = 7) ∧
    (bootStage s = 4 → ∃ z, exec (.bootStageDone t c0 c1) s = .next z ∧ bootStage z = 5) ∧
    (bootStage s = 5 → ∃ z, exec (.bootStageDone t c0 c1) s = .next z ∧ bootStage z = 6 ∧ getF z F.RST_STAT_PROGRESS 0 0 = 100) ∧
    (bootStage s = 6 → exec (.bootStageDone t c0 c1) s = .next (tick t s))) ∧
  (∀ (t rail : Nat) (s : State), halted s = false → rail < 6 →
    let rails := putBit (getF s F.RST_STAT_RAIL_OK 0 0) rail true
    ∃ z, exec (.railGood t rail) s = .next z ∧ getF z F.RST_STAT_RAIL_OK 0 0 = rails ∧
      (bootStage s = 0 → flag s F.CLK_STAT_AON_CLK_OK 0 0 = true → rails = 63 → bootStage z = 1 ∧ getF z F.RST_STAT_PROGRESS 0 0 = 5 ∧
        z.clk.resetAt = (tick t s).clk.mono ∧ Only [⟨.RST_STAT, 0, 0⟩] (tick t s) { z with clk := (tick t s).clk, pwr := s.pwr, out := s.out }) ∧
      (bootStage s ≠ 0 ∨ flag s F.CLK_STAT_AON_CLK_OK 0 0 = false ∨ rails ≠ 63 → Only [⟨.RST_STAT, 0, 0⟩] (tick t s) z ∧ bootStage z = bootStage s)) ∧
  (∀ (t rail : Nat) (s : State), halted s = false → rail < 6 → ∃ z, Only [⟨.RST_STAT, 0, 0⟩] (tick t s) z ∧ bit (getF z F.RST_STAT_RAIL_OK 0 0) rail = false ∧
    exec (.railFault t rail) s = .next (if bootStage s = 0 then z else safeBy 1 z)) ∧
  (∀ (t : Nat) (aon : Bool) (s : State), halted s = false → ∃ z, Only [⟨.CLK_STAT, 0, 0⟩] (tick t s) z ∧
    (if aon then flag z F.CLK_STAT_AON_CLK_OK 0 0 else flag z F.CLK_STAT_REFCLK_OK 0 0) = false ∧
    exec (.refclkLoss t aon) s = .next (if bootStage s = 6 then safeBy 1 z else z))

/-- The Varnish pin and the TAP (R387, R388, R389).  VARNISH_N with PIN_EN freezes the device with trigger 0 and TOD at the trigger, and does nothing without it.  Each TAP instruction holds its code and shifts its data register out: IDCODE its 32 bits, VSTATUS the freeze, trigger, event and TOD, MEM_SEL the code and word it had, taking the new ones from TDI, BYPASS a single 0; SCAN_DOMAIN and MEM_DATA shift registers of the device, MEM_DATA stepping its word.  Without AON power the TAP does nothing.  The model's choices here: the TAP, log 36.  Completes: `varnishTrigger`, `idcode`, `vstatus`, `scanDomain`, `memSel`, `memData`, `bypass`. -/
def Obligations.VarnishPinAndTap : Prop :=
  (∀ (t : Nat) (s : State), halted s = false →
    (flag s F.VARNISH_CFG_PIN_EN 0 0 = false → exec (.varnishTrigger t) s = .next (tick t s)) ∧
    (flag s F.VARNISH_CFG_PIN_EN 0 0 = true → ∃ z, exec (.varnishTrigger t) s = .next z ∧ z.flt.frozen = true ∧ z.flt.trigger = 0 ∧
      z.flt.trigTod = (tick t s).clk.tod ∧ { z with flt := s.flt, out := s.out } = tick t s)) ∧
  (∀ (t shift tdi dom : Nat) (s : State), s.boot.off = true → 1 ≤ dom → dom ≤ 25 →
    exec (.idcode t shift tdi) s = .next s ∧ exec (.vstatus t shift tdi) s = .next s ∧ exec (.scanDomain t dom shift tdi) s = .next s ∧
    exec (.memSel t shift tdi) s = .next s ∧ exec (.memData t shift tdi) s = .next s ∧ exec (.bypass t shift tdi) s = .next s) ∧
  (∀ (t tdi dom : Nat) (s : State), s.boot.off = false → 1 ≤ dom → dom ≤ 25 →
    let y := if s.flt.frozen then s else tick t s
    (∃ v, exec (.idcode t 32 tdi) s = .next (emit (.jtag 32 v) { y with boot := { s.boot with ir := 0x01 } }) ∧ v % 2 = 1 ∧ bits v 12 16 = 0x1536) ∧
    (∃ v, exec (.vstatus t 64 tdi) s = .next (emit (.jtag 64 v) { y with boot := { s.boot with ir := 0x10 } }) ∧ bit v 63 = s.flt.frozen ∧
      bits v 61 2 = s.flt.trigger % 4 ∧ bits v 32 16 = s.flt.trigEvent % 65536 ∧ bits v 0 32 = s.flt.trigTod % 2 ^ 32) ∧
    (∃ z, exec (.memSel t 32 tdi) s = .next z ∧ z.boot.ir = 0x40 ∧ z.boot.memCode = bits tdi 24 8 ∧ z.boot.memWord = bits tdi 0 24 ∧
      { z with boot := s.boot, out := s.out } = y) ∧
    (∃ z, exec (.memData t 128 tdi) s = .next z ∧ z.boot.ir = 0x41 ∧ z.boot.memCode = s.boot.memCode ∧ z.boot.memWord = (s.boot.memWord + 1) % 2 ^ 24 ∧
      { z with boot := s.boot, out := s.out, free := s.free } = y) ∧
    (exec (.bypass t 1 tdi) s = .next (emit (.jtag 1 0) { y with boot := { s.boot with ir := 0xFF } })) ∧
    (∀ shift, ∃ z v, exec (.scanDomain t dom shift tdi) s = .next z ∧ Out.jtag shift v ∈ z.out ∧ z.boot.ir = 0x20 + dom ∧
      { z with boot := s.boot, out := s.out, free := s.free } = y))

/-- The management controller (R272, R384, Table 17.8).  The identity, status, temperature, power and fault codes answer from the registers in every state, the address code holds an offset for the read code, and a packet or a reply asked for in the safe state is not acknowledged.  A packet reaches the sequencer as the master of kind 1 with the next SERIAL; its reply is read back whole, or an empty block while there is none.  ENTDAA gives the target its address.  The model's choices here: logs 11, 18, 44.  Completes: `bmcIdRead`, `bmcStatusRead`, `bmcTempRead`, `bmcPowerRead`, `bmcFaultSummary`, `bmcRegRead`, `entdaa`, `bmcAddrWrite`, `bmcCommandWrite`, `bmcReplyRead`. -/
def Obligations.ManagementController : Prop :=
  (∀ (t : Nat) (s : State), halted s = false →
    exec (.bmcIdRead t) s = .next (emit (.bmc 0x00 (wordBytes [liveWord s ⟨.HIF_ID0, 0, 0⟩, liveWord s ⟨.HIF_ID1, 0, 0⟩, liveWord s ⟨.HIF_SERIAL, 0, 0⟩, liveWord s ⟨.HIF_SERIAL, 0, 1⟩])) (tick t s)) ∧
    (∃ b, exec (.bmcStatusRead t) s = .next (emit (.bmc 0x01 b) (tick t s)) ∧ leAt b 0 1 = 128 * b2n (isSafe s) + getF s F.RST_STAT_PROGRESS 0 0 ∧ b.length = 1) ∧
    exec (.bmcTempRead t) s = .next (emit (.bmc 0x10 (leBytes 2 (getF s F.PWR_STAT2_HOT_T 0 0))) (tick t s)) ∧
    exec (.bmcPowerRead t) s = .next (emit (.bmc 0x11 (leBytes 2 (getF s F.PWR_STAT0_PWR_EST_W 0 0))) (tick t s)) ∧
    (∃ b, exec (.bmcFaultSummary t) s = .next (emit (.bmc 0x20 b) (tick t s)) ∧ b.length = 32 ∧ leAt b 0 1 % 2 = b2n (isSafe s) ∧
      leAt b 1 1 = getF s F.FLT_STAT_SAFE_CAUSE 0 0 ∧ leAt b 2 2 = getF s F.FLT_SAFE_EVENT_EVENT_ID 0 0 ∧ leAt b 4 4 = (reg s .CLASS_CNT 1 0).toNat ∧
      leAt b 16 4 = (reg s .CLASS_CNT 4 0).toNat ∧ leAt b 20 4 = (reg s .HIST_TOTAL 0 0).toNat ∧ leAt b 24 8 = wide s .FLT_SAFE_TOD 0 2) ∧
    (∃ b, exec (.bmcRegRead t) s = .next (emit (.bmc 0x31 b) (tick t s)) ∧
      (safeServed s.host.bmc.addr = false → inCounters s.host.bmc.addr = false → b = [0x15, 0, 0, 0, 0, 0]) ∧
      (∀ k, safeServed s.host.bmc.addr = true → locate s.host.bmc.addr = some k → b = [0, 0] ++ leBytes 4 (liveWord (tick t s) k).toNat)) ∧
    (∀ addr, exec (.entdaa t addr) s = .next { tick t s with host := { s.host with bmc := { s.host.bmc with i3c := some (addr % 128) } } })) ∧
  (∀ (t addr : Nat) (bytes : List Byte) (s : State), halted s = false → isSafe s = true →
    exec (.bmcAddrWrite t addr) s = .next (emit (.bmcNack 0x30) (tick t s)) ∧
    (s.flt.tripped = false → exec (.bmcCommandWrite t bytes) s = .next (emit (.bmcNack 0x40) (tick t s)) ∧
      exec (.bmcReplyRead t) s = .next (emit (.bmcNack 0x41) (tick t s)))) ∧
  (∀ (t addr : Nat) (s : State), halted s = false → isSafe s = false →
    exec (.bmcAddrWrite t addr) s = .next { tick t s with host := { s.host with bmc := { s.host.bmc with addr := addr % 2 ^ 32 } } } ∧
    (s.flt.tripped = false → exec (.bmcReplyRead t) s = .next (emit (.bmc 0x41 ((s.host.bmc.reply.map replyBytes).getD [])) (tick t s)))) ∧
  (∀ (t : Nat) (bytes : List Byte) (s : State), halted s = false → s.flt.tripped = false → isSafe s = false →
    let serial := wide s .CMD_SERIAL 0 2 + 1
    exec (.bmcCommandWrite t bytes) s = .next (sequence 1 0 bytes (decide (bytes.length = 32 + 4 * pParamLen bytes)) 0 [] 0
      { tick t s with host := { s.host with bmc := { s.host.bmc with last := some serial, reply := none } } }))

/-- The sequencer takes a packet (R276, R280, R281, Table 12.4): one that passes the checks made at once, for this device and within its master's share, gets the next SERIAL and waits, not dispatched, holding its objects; a packet that would exceed the share is BUSY.  Either way exactly one SERIAL is given.  The model's choices here: log 66. -/
def Obligations.SequencerTakesPackets : Prop :=
  ∀ (kind sub : Nat) (p : List Byte) (lenOk : Bool) (rbuf nonce : Nat) (frame : List Byte) (s : State),
    earlyChecks s kind p lenOk = none → (pTarget p = 0xFFF ∨ pTarget p = 0 ∨ pTarget p = devId s) →
    let mine := (s.cmd.outstanding.filter (fun x => x.kind == kind)).length
    (mine < share kind → firstReserved p 32 (paramReserved (pOpcode p) p) = none →
      ∃ o, (sequence kind sub p lenOk rbuf frame nonce s).cmd.outstanding = s.cmd.outstanding ++ [o] ∧ o.serial = wide s .CMD_SERIAL 0 2 + 1 ∧
        o.kind = kind ∧ o.sub = sub ∧ o.tag = pTag p ∧ o.opcode = pOpcode p ∧ o.dispatched = false ∧ o.holds = true ∧ o.objs = objsOf (pOpcode p) p ∧
        wide (sequence kind sub p lenOk rbuf frame nonce s) .CMD_SERIAL 0 2 = (wide s .CMD_SERIAL 0 2 + 1) % 2 ^ 64 ∧
        Only [⟨.CMD_SERIAL, 0, 0⟩, ⟨.CMD_SERIAL, 0, 1⟩] s { sequence kind sub p lenOk rbuf frame nonce s with cmd := s.cmd }) ∧
    (share kind ≤ mine → wide (sequence kind sub p lenOk rbuf frame nonce s) .CMD_SERIAL 0 2 = (wide s .CMD_SERIAL 0 2 + 1) % 2 ^ 64)

/-- In-band commands and the console (R274, R288, R289).  A frame of the command type whose version, enables, key or HMAC do not hold raises CMD_IB_AUTH_FAIL, one whose NONCE is not above the last CMD_IB_REPLAY, each counted and without other effect; an accepted one stores its NONCE and hands its packet to the sequencer.  A formed reply is sent by its port as the oldest waiting, once class 7 is not paused and the MAC is free, counted, and its command stops being outstanding.  A console byte is held while the console is enabled and the 64-byte queue has room, otherwise discarded with HIF_UART_ERR.  The model's choices here: opaque HMAC, log 5; log 45.  Completes: `inbandCommandRx`, `inbandReplyTx`, `uartRxByte`. -/
def Obligations.InbandAndConsole : Prop :=
  (∀ (t port n : Nat) (frame : Frame) (s : State), Operating s → port < 768 → ibHeaderLen frame.bytes = some n →
    let pay := frame.bytes.drop n
    let body := pay.take (pay.length - 32)
    let y := takeHanded port frame.bytes (tick t s)
    leAt pay 0 1 ≠ 1 ∨ leAt pay 1 1 = 0 →
    exec (.inbandCommandRx t port frame) s = .next
      (if leAt pay 0 1 ≠ 1 ∨ flag s F.IB_CFG_IB_EN 0 0 = false ∨ mapBit s .IB_PORT_EN port = false ∨ s.fuse.keyGen = 0 ∨ leAt pay 4 4 ≠ s.fuse.keyGen ∨
          leNum (pay.drop (pay.length - 32)) ≠ Config.hmacSha256 s.fuse.ibKey body.length (leNum body) then
        raise0 Ev.CMD_IB_AUTH_FAIL (bump .IB_AUTH_FAIL_CNT 0 0 1 y)
      else if leAt pay 8 8 ≤ wide s .IB_NONCE_LAST 0 2 then raise0 Ev.CMD_IB_REPLAY (bump .IB_REPLAY_CNT 0 0 1 y)
      else sequence 2 port (body.drop 16) (decide ((body.drop 16).length = 32 + 4 * pParamLen (body.drop 16))) 0 (frame.bytes.take n) (leAt pay 8 8)
        (setWide .IB_NONCE_LAST 0 (leAt pay 8 8) 2 y))) ∧
  (∀ (t port : Nat) (s : State), Operating s → port < 768 →
    let y := tick t s
    let free := ibReady y port && portIsUp s port && macIdle y port
    (s.cmd.ibDue.find? (fun d => d.1 == port) = none ∨ free = false → exec (.inbandReplyTx t port) s = .next y) ∧
    (∀ f serial, s.cmd.ibDue.find? (fun d => d.1 == port) = some (port, f, serial) → free = true → ∃ z, exec (.inbandReplyTx t port) s = .next z ∧
      z.out = .exportFrame port f :: s.out ∧ outCmd z serial = none ∧ z.cmd.ibDue = s.cmd.ibDue.erase (port, f, serial) ∧
      ctr z 1 port 10 = (ctr s 1 port 10 + 1) % 2 ^ 64 ∧ ctr z 1 port 11 = (ctr s 1 port 11 + f.length + 4) % 2 ^ 64 ∧
      { z with out := s.out, cmd := s.cmd, tele := s.tele } = y)) ∧
  (∀ (t : Nat) (byte : Byte) (framing : Bool) (s : State), Operating s →
    (flag s F.UART_CFG_EN 0 0 = false → exec (.uartRxByte t byte framing) s = .next (tick t s)) ∧
    (flag s F.UART_CFG_EN 0 0 = true → framing = false → s.host.uart.length < 64 →
      exec (.uartRxByte t byte framing) s = .next { tick t s with host := { s.host with uart := s.host.uart ++ [byte] } }) ∧
    (flag s F.UART_CFG_EN 0 0 = true → framing = true ∨ 64 ≤ s.host.uart.length →
      exec (.uartRxByte t byte framing) s = .next (raise0 Ev.HIF_UART_ERR (bump .UART_ERR_CNT 0 0 1 (tick t s)))))

/-- Frames and pauses at a port (R36, R44, R49, R51, R52, R53, R177, R182).  A port that is down takes no frame; a frame with a bad FCS, below 64 bytes or above the maximum is counted and discarded; another is offered to its pipeline, counted once its good end has come, and a head whose tail is to come leaves the port open for RX_TAIL_ERROR, which settles it; the codewords corrected and not correctable since the last row count on a port that is down too.  A PFC frame pauses or releases each enabled class of a port in PFC mode, PAUSE every class in PAUSE mode, and any other is counted as discarded; PAUSE_TIMER_EXPIRE releases a class whose time is past; a queued pause frame is sent first in order, behind a frame in transmission, and counted; a refresh queues the classes, or the PAUSE frame, whose interval has passed.  The model's choices here: the operand `ended`, log 24; the source address of a pause frame, a free value.  Completes: `frameRx`, `rxTailError`, `pfcFrameRx`, `pauseTimerExpire`, `pfcFrameTx`, `pfcRefresh`. -/
def Obligations.FramesAndPauses : Prop :=
  (∀ (t port corrected uncorrected : Nat) (frame : Frame) (good ended : Bool) (s : State), Operating s → port < 768 →
    let len := frame.bytes.length + 4
    let y := countCodewords port corrected uncorrected (tick t s)
    let rx := exec (.frameRx t port frame ⟨good, ended⟩ ⟨corrected, uncorrected⟩) s
    let takes := portIsUp y port = true ∧ (portRt y port).rxOpen = none
    let sized := 64 ≤ len ∧ len ≤ maxFrameIn y port
    (startsPort s port = true → ctr y 1 port 13 = (ctr s 1 port 13 + corrected) % 2 ^ 64 ∧ ctr y 1 port 14 = (ctr s 1 port 14 + uncorrected) % 2 ^ 64) ∧
    (¬ takes → rx = .next y) ∧
    (takes → ended = true → good = false → rx = .next (addCtr 1 port 2 1 y)) ∧
    (takes → ended = true → good = true → len < 64 → rx = .next (addCtr 1 port 4 1 y)) ∧
    (takes → ended = true → good = true → 64 ≤ len → maxFrameIn y port < len → rx = .next (addCtr 1 port 3 1 y)) ∧
    (takes → ended = true → good = true → sized → beAt frame.bytes 12 2 ≠ 0x8808 →
      rx = .next (rxGood port len (offer port (frameIclass y port frame.bytes) frame.bytes true (rxStamp y port) y))) ∧
    (takes → ended = true → good = true → sized → beAt frame.bytes 12 2 = 0x8808 →
      ∃ z, rx = .next z ∧ ctr z 1 port 5 = (ctr y 1 port 5 + 1) % 2 ^ 64 ∧ z.pal.fifo = y.pal.fifo) ∧
    (takes → ended = false → ¬ sized ∨ beAt frame.bytes 12 2 = 0x8808 → rx = .next y) ∧
    (takes → ended = false → sized → beAt frame.bytes 12 2 ≠ 0x8808 →
      ∃ z, rx = .next z ∧ (portRt z port).rxOpen = some (y.pal.nextId, len) ∧
        { z with port := (offer port (frameIclass y port frame.bytes) frame.bytes false (rxStamp y port) y).port } =
          offer port (frameIclass y port frame.bytes) frame.bytes false (rxStamp y port) y)) ∧
  (∀ (src ic ts : Nat) (f : List Byte) (ended : Bool) (s : State), betweenPipes s 0 src = false → movingFrom s src = none →
    let p := ingressPipe s src
    let cls := admClass s src ic f
    let level := getF s F.FIFO_STAT_LEVEL p 0
    let z := offer src ic f ended ts s
    (level + f.length + 4 ≤ fifoLimit s p cls → level + f.length + 4 < 2 ^ F.FIFO_STAT_LEVEL.w → ∃ e, fifo z p = fifo s p ++ [e] ∧ e.id = s.pal.nextId ∧ e.frame = f ∧
      e.src = src ∧ e.ended = ended ∧ e.admClass = cls ∧ e.iclass = ic ∧ e.ts = ts % 2 ^ 64 ∧ getF z F.FIFO_STAT_LEVEL p 0 = level + f.length + 4) ∧
    (fifoLimit s p cls < level + f.length + 4 → fifo z p = fifo s p ∧
      (let n := if cls = 0 then RegName.FIFO_DROP_LOSSY else if cls = 1 then .FIFO_DROP_LOSSLESS else .FIFO_DROP_CONTROL
       reg z n p 0 = reg s n p 0 + 1))) ∧
  (∀ (t port id len : Nat) (s : State), Operating s → port < 768 →
    ((portRt s port).rxOpen = none → ∀ good, exec (.rxTailError t port good) s = .next (tick t s)) ∧
    ((portRt s port).rxOpen = some (id, len) → ∃ z, exec (.rxTailError t port true) s = .next z ∧ (portRt z port).rxOpen = none ∧
      ctr z 1 port 0 = (ctr s 1 port 0 + 1) % 2 ^ 64 ∧ ctr z 1 port 1 = (ctr s 1 port 1 + len) % 2 ^ 64 ∧ z.rf = s.rf ∧ (∀ p ∈ z.pal.pkts, p.id = id → p.ended = true ∧ p.tailBad = false)) ∧
    ((portRt s port).rxOpen = some (id, len) → s.pal.copies.all (fun c => !(c.pkt == id && c.phase = .sending)) = true →
      ∃ z, exec (.rxTailError t port false) s = .next z ∧ (portRt z port).rxOpen = none ∧ ctr z 1 port 2 = (ctr s 1 port 2 + 1) % 2 ^ 64 ∧ z.rf = s.rf ∧
        (∀ p ∈ z.pal.pkts, p.id = id → p.ended = true ∧ p.tailBad = true))) ∧
  (∀ (t port opcode enable : Nat) (quanta : List Nat) (s : State), Operating s → port < 768 →
    (portIsUp s port = false → exec (.pfcFrameRx t port opcode enable quanta) s = .next (tick t s)) ∧
    (portIsUp s port = true → ∃ z, exec (.pfcFrameRx t port opcode enable quanta) s = .next z ∧ ctr z 1 port 5 = (ctr s 1 port 5 + 1) % 2 ^ 64 ∧
      (∀ c, c < 8 → bit (getF z F.PORT_STAT_PAUSED_RX (port / 8) (port % 8)) c =
        (let acts := (decide (opcode = 0x0101) && flowMode s port == 2 && bit enable c && bit (getF s F.PORT_FLOW_PFC_RX_EN (port / 8) (port % 8)) c) ||
            (decide (opcode = 0x0001) && flowMode s port == 1)
         let q := (quanta[if opcode = 0x0101 then c else 0]?).getD 0
         if acts then decide (q ≠ 0) else bit (getF s F.PORT_STAT_PAUSED_RX (port / 8) (port % 8)) c)) ∧
      RegsKeptExcept [⟨.PORT_STAT, port / 8, port % 8⟩] movedRegs s z)) ∧
  (∀ (t port cls e : Nat) (s : State), Operating s → port < 768 → cls < 8 → tget (portRt s port).pauseRx cls = some e →
    ((tick t s).clk.mono * 1000 < e → exec (.pauseTimerExpire t port cls) s = .next (tick t s)) ∧
    (e ≤ (tick t s).clk.mono * 1000 → ∃ z, exec (.pauseTimerExpire t port cls) s = .next z ∧
      bit (getF z F.PORT_STAT_PAUSED_RX (port / 8) (port % 8)) cls = false ∧ tget (portRt z port).pauseRx cls = none ∧
      RegsKeptExcept [⟨.PORT_STAT, port / 8, port % 8⟩] movedRegs s z)) ∧
  (∀ (t port : Nat) (s : State), Operating s → port < 768 →
    let y := tick t s
    let busy := s.pal.copies.any (fun c => c.port == port && c.phase = .sending)
    ((portRt s port).toSend = [] ∨ portIsUp s port = false ∨ busy = true → exec (.pfcFrameTx t port) s = .next y) ∧
    (∀ f rest, (portRt s port).toSend = f :: rest → portIsUp s port = true → busy = false → ∃ z, exec (.pfcFrameTx t port) s = .next z ∧
      z.out = .pause port (pauseBytes port f) :: s.out ∧ (portRt z port).toSend = rest ∧ ctr z 1 port 9 = (ctr s 1 port 9 + 1) % 2 ^ 64 ∧
      { z with out := s.out, port := s.port, tele := s.tele } = y) ∧
    (flowMode s port ≠ 1 → flowMode s port ≠ 2 → exec (.pfcRefresh t port) s = .next y) ∧
    (flowMode s port = 1 → getF s F.PORT_STAT_PAUSED_TX (port / 8) (port % 8) = 0 ∨ announceDue y port 8 = false → exec (.pfcRefresh t port) s = .next y) ∧
    (flowMode s port = 1 → getF s F.PORT_STAT_PAUSED_TX (port / 8) (port % 8) ≠ 0 → announceDue y port 8 = true →
      ∃ z, exec (.pfcRefresh t port) s = .next z ∧ { z with port := s.port } = y ∧ tget (portRt z port).announced 8 = some (y.clk.mono * 1000) ∧
        (∃ f, (portRt z port).toSend = (portRt s port).toSend ++ [f] ∧ f.pfc = false ∧ f.times = [(0, pfcQuanta y port)])) ∧
    (flowMode s port = 2 →
      let cs := (List.range 8).filter fun c => bit (getF s F.PORT_STAT_PAUSED_TX (port / 8) (port % 8)) c &&
        bit (getF s F.PORT_FLOW_PFC_TX_EN (port / 8) (port % 8)) c && announceDue y port c
      (cs = [] → exec (.pfcRefresh t port) s = .next y) ∧
      (cs ≠ [] → ∃ z, exec (.pfcRefresh t port) s = .next z ∧ { z with port := s.port } = y ∧
        (∀ c ∈ cs, tget (portRt z port).announced c = some (y.clk.mono * 1000)) ∧
        ∃ f, (portRt z port).toSend.getLast? = some f ∧ f.pfc = true ∧ ∀ c ∈ cs, (c, pfcQuanta y port) ∈ f.times)))

/-- Link bring-up at a port (R42, R43, R44).  PORT_UP sets the port's PORT_UP once its PCS has been ready and locked for 1 ms, with LINK_CHANGE, and otherwise changes nothing; PORT_DOWN, by a local or a received remote fault, ends what is in the MAC, clears it with LINK_CHANGE and starts bring-up over; AN_RESTART of a port that negotiates raises AN_FAIL and waits 1 s; LT_FAIL raises it and takes the port back to negotiation.  Negotiation complete with a common PHY type lets training begin, and without one fails; training done shows the trained taps, and the lock of a ready PCS starts the hold.  The model's choices here: logs 17, 67, 78.  Completes: `portUp`, `portDown`, `anRestart`, `ltFail`, `anComplete`, `linkTrainingDone`, `pcsLock`. -/
def Obligations.LinkBringUp : Prop :=
  (∀ (t port : Nat) (s : State), Operating s → port < 768 →
    (∀ l, (portRt s port).lockSince = some l → pcsReady s port = true → portIsUp s port = false → l + 1000000 ≤ (tick t s).clk.mono →
      ∃ z, exec (.portUp t port) s = .next (showSignal port (raise Ev.MAC_LINK_CHANGE (port / 8) 0 z)) ∧ portIsUp z port = true ∧
        (∀ q, q < 768 → q ≠ port → portIsUp z q = portIsUp s q) ∧ Only [⟨.MAC_MACRO_CFG, port / 8, 0⟩] (tick t s) z) ∧
    ((portRt s port).lockSince = none ∨ pcsReady s port = false ∨ portIsUp s port = true ∨ (∀ l, (portRt s port).lockSince = some l → (tick t s).clk.mono < l + 1000000) →
      exec (.portUp t port) s = .next (tick t s))) ∧
  (∀ (t port : Nat) (remote : Bool) (s : State), Operating s → port < 768 →
    let y := dropReplies port (dropInMac port (tick t s))
    let fresh (z : State) : Prop := (portRt z port).anDone = false ∧ (portRt z port).ltDone = false ∧ (portRt z port).lockSince = none ∧
      (portRt z port).anRetryAt = none ∧ (portRt z port).pauseRx = [] ∧ (portRt z port).toSend = [] ∧ (portRt z port).fault = (if remote then 2 else 1)
    (startsPort s port = false → exec (.portDown t ⟨port, remote⟩) s = .next (tick t s)) ∧
    (startsPort s port = true → portIsUp y port = false → ∃ z, exec (.portDown t ⟨port, remote⟩) s = .next (showSignal port z) ∧ fresh z ∧ { z with port := y.port } = y) ∧
    (startsPort s port = true → portIsUp y port = true → ∃ z, exec (.portDown t ⟨port, remote⟩) s = .next (showSignal port (raise Ev.MAC_LINK_CHANGE (port / 8) 0 z)) ∧
      portIsUp z port = false ∧ fresh z ∧ getF z F.PORT_STAT_PAUSED_RX (port / 8) (port % 8) = 0 ∧
      Only [⟨.MAC_MACRO_CFG, port / 8, 0⟩, ⟨.PORT_STAT, port / 8, port % 8⟩] y { z with port := y.port })) ∧
  (∀ (t port : Nat) (s : State), Operating s → port < 768 → startsPort s port = true → anOn s port = true → lanesOn s port = true → (portRt s port).anDone = false →
    ((∀ r, (portRt s port).anRetryAt = some r → r ≤ (tick t s).clk.mono) →
      ∃ z, exec (.anRestart t port) s = .next (sendPage port (raise Ev.MAC_AN_FAIL (port / 8) 0 z)) ∧
        portRt z port = { portRt s port with anRetryAt := some ((tick t s).clk.mono + 1000000000) } ∧ { z with port := s.port } = tick t s) ∧
    (∀ r, (portRt s port).anRetryAt = some r → (tick t s).clk.mono < r → exec (.anRestart t port) s = .next (tick t s))) ∧
  (∀ (t port : Nat) (s : State), Operating s → port < 768 →
    (inTraining s port = false → exec (.ltFail t port) s = .next (tick t s)) ∧
    (inTraining s port = true → ∃ z, exec (.ltFail t port) s = .next (sendPage port (raise Ev.MAC_LT_FAIL (port / 8) 0 z)) ∧
      portRt z port = { portRt s port with anDone := false, ltDone := false } ∧ { z with port := s.port } = tick t s)) ∧
  (∀ (t port : Nat) (taps : List Nat) (partner : BasePage) (s : State), Operating s → port < 768 →
    let y := tick t s
    let waits := startsPort s port = true ∧ anOn s port = true ∧ lanesOn s port = true ∧ (portRt s port).anDone = false
    (¬ waits → exec (.anComplete t ⟨port, partner⟩) s = .next y) ∧
    (waits → sharesType (basePage y port) partner = true → ∃ z, exec (.anComplete t ⟨port, partner⟩) s = .next z ∧
      portRt z port = { portRt s port with anDone := true, ltDone := false, anRetryAt := none } ∧ { z with port := s.port } = y) ∧
    (waits → sharesType (basePage y port) partner = false → ∃ z, exec (.anComplete t ⟨port, partner⟩) s = .next (raise Ev.MAC_AN_FAIL (port / 8) 0 z) ∧
      portRt z port = { portRt s port with anRetryAt := some (y.clk.mono + 1000000000) } ∧ { z with port := s.port } = y) ∧
    (inTraining s port = false → exec (.linkTrainingDone t port taps) s = .next y) ∧
    (inTraining s port = true → ∃ z, exec (.linkTrainingDone t port taps) s = .next z ∧ portRt z port = { portRt s port with ltDone := true } ∧
      RegsKept [.LANE_TXEQ] s z ∧ { z with rf := s.rf, port := s.port } = y ∧
      (∀ l w, txLanes s port = [l] → taps = [w] → (reg z .LANE_TXEQ (port / 8) l).toNat % 2 ^ 30 = w % 2 ^ 30)) ∧
    (pcsReady s port = false ∨ (portRt s port).lockSince.isSome = true → exec (.pcsLock t port) s = .next y) ∧
    (pcsReady s port = true → (portRt s port).lockSince = none → ∃ z, exec (.pcsLock t port) s = .next (showSignal port z) ∧
      portRt z port = { portRt s port with lockSince := some y.clk.mono, fault := 0 } ∧ { z with port := s.port } = y))

/-- Micro-sequencing (R293 to R297, Tables 13.3, 13.6, 13.7).  An engine that runs and is not in WAIT executes the word at its micro-PC; the row of each SEQ runs it where the word has that SEQ and otherwise nothing.  Without a fault and with IE 0 the micro-PC, SP, micro-stack, WAIT and HALT follow SEQ, and URET restores the frame.  A fault outside a trap takes its vector with the frame of Table 13.7 and discards the word; in a trap it fails the engine with DOUBLE_TRAP, a double-bit control-store error with cause 2.  With IE 1 and outside a trap the lowest pending interrupt is taken after the word.  The model's choices here: logs 12, 65.  Completes: `uNext`, `uBr`, `uBrt`, `uBrf`, `uCall`, `uRet`, `uUret`, `uWait`, `uHalt`. -/
def Obligations.MicroSequencing : Prop :=
  ∀ (t e w : Nat) (env : MicroEnv) (s : State), Operating s → e < 64 → (engState s e = 1 ∨ engState s e = 3) → (engine s e).waiting = false → fetchWord s e = w →
  ∀ c ∈ ([(0, .uNext t e env), (1, .uBr t e env), (2, .uBrt t e env), (3, .uBrf t e env), (4, .uCall t e env), (5, .uRet t e env), (6, .uUret t e env), (7, .uWait t e env), (8, .uHalt t e env)] : List (Nat × Instr)),
    let x := engine s e
    let inc := (x.upc + 1) % 8192
    (mwSeq w ≠ c.1 → exec c.2 s = .next (tick t s)) ∧
    (mwSeq w = c.1 → env.cs = 2 → exec c.2 s = exec (.engFailed t e 2) s) ∧
    (mwSeq w = c.1 → env.cs = 0 → microFault x w env = none → bit x.flags 11 = false → bit x.frame.flags 11 = false →
      ∃ z, exec c.2 s = .next z ∧
        (mwSeq w ≠ 7 → (engine z e).upc = (if mwSeq w = 1 ∨ mwSeq w = 4 then mwTarget w
          else if mwSeq w = 2 then (if bit x.flags (mwCond w) then mwTarget w else inc)
          else if mwSeq w = 3 then (if bit x.flags (mwCond w) then inc else mwTarget w)
          else if mwSeq w = 5 then (x.stack[x.sp - 1]?).getD 0
          else if mwSeq w = 6 then x.frame.next
          else if mwSeq w = 8 then x.upc else inc) ∧ (engine z e).waiting = false) ∧
        (engine z e).sp = (if mwSeq w = 4 then x.sp + 1 else if mwSeq w = 5 then x.sp - 1 else if mwSeq w = 6 then x.frame.sp else x.sp) ∧
        (engine z e).stack = (if mwSeq w = 4 then listSet x.stack x.sp inc else x.stack) ∧ (engine z e).frame = x.frame ∧
        (mwSeq w = 6 → xreg (engine z e) 28 = x.frame.x28 % 2 ^ 64 ∧ xreg (engine z e) 29 = x.frame.x29 % 2 ^ 64 ∧ xreg (engine z e) 30 = x.frame.x30 % 2 ^ 64 ∧
          xreg (engine z e) 31 = x.frame.x31 % 2 ^ 64 ∧ ∀ k, k < 8 ∨ k = 11 ∨ k = 12 → bit (engine z e).flags k = bit x.frame.flags k) ∧
        (mwSeq w = 7 → mwMem w ≠ 6 → (engine z e).waiting = (pendingIrq x).isNone ∧ (engine z e).upc = if (pendingIrq x).isNone then x.upc else inc) ∧
        (mwSeq w = 8 → getF z F.ENG_STAT_STATE e 0 = 6) ∧
        (mwMem w ≠ 6 → ∀ q, q ≠ e → engine z q = engine s q) ∧
        (mwMem w ≠ 4 → mwMem w ≠ 6 → Only (if mwSeq w = 8 then [⟨.ENG_STAT, e, 0⟩] else []) (tick t s) { z with eng := s.eng, free := s.free })) ∧
    -- faults
    (mwMem w = 0 ∨ mwMem w = 7 → (mwSeq w = 0 ∧ x.upc = 8191) ∨ (mwSeq w = 4 ∧ x.sp = 8) ∨ (mwSeq w = 5 ∧ x.sp = 0) ∨ (mwSeq w = 6 ∧ bit x.flags 12 = false) →
      microFault x w env = some 3) ∧
    (∀ v, mwSeq w = c.1 → env.cs = 0 → microFault x w env = some v → bit x.flags 12 = true → exec c.2 s = exec (.engFailed t e 1) s) ∧
    (∀ v, mwSeq w = c.1 → env.cs = 0 → microFault x w env = some v → bit x.flags 12 = false →
      ∃ z next, exec c.2 s = .next z ∧ (v ≠ 3 → next = nextUpc x w) ∧
        (engine z e).frame = ⟨xreg x 28, xreg x 29, xreg x 30, xreg x 31, v, x.sp, next, x.upc, x.flags⟩ ∧ (engine z e).upc = v ∧
        bit (engine z e).flags 12 = true ∧ bit (engine z e).flags 11 = false ∧
        { engine z e with frame := x.frame, upc := x.upc, flags := x.flags } = x ∧ (∀ q, q ≠ e → engine z q = engine s q) ∧
        reg z .ENG_TRAPS e 0 = reg s .ENG_TRAPS e 0 + 1 ∧ getF z F.ENG_STAT_LAST_VECTOR e 0 = v ∧
        Only [⟨.ENG_TRAPS, e, 0⟩, ⟨.ENG_STAT, e, 0⟩] (tick t s) { z with eng := s.eng, free := s.free }) ∧
    -- interrupts
    (∀ v, mwSeq w = c.1 → c.1 ≤ 5 → env.cs = 0 → microFault x w env = none → mwMem w ≠ 6 → bit x.flags 11 = true → bit x.flags 12 = false → pendingIrq x = some v →
      ∃ z, exec c.2 s = .next z ∧ (engine z e).upc = v ∧ (engine z e).frame.vector = v ∧ (engine z e).frame.next = nextUpc x w ∧ (engine z e).frame.ended = x.upc ∧
        bit (engine z e).flags 12 = true ∧ bit (engine z e).flags 11 = false ∧ reg z .ENG_TRAPS e 0 = reg s .ENG_TRAPS e 0 + 1 ∧
        getF z F.ENG_STAT_LAST_VECTOR e 0 = v)

/-- The ALU (Table 13.4, Table 13.1).  The row of each operation runs the word where it has that operation and otherwise nothing; without a fault DST takes the result unless the word loads or compares, every other register keeps its value, Z and N follow the result, C and V of addition, subtraction and comparison are the carry or borrow and the signed overflow, and a comparison with DST 0 sets U0 to U3.  A shift by 64 or more, the bits of a deposit outside its field, and C and V of the other operations are free values (log 2).  The model's choices here: flags the table does not define, log 65.  Completes: `uPassA`, `uAdd`, `uSubtract`, `uAnd`, `uOr`, `uXor`, `uShiftLeft`, `uShiftRight`, `uArithmeticShiftRight`, `uMinimum`, `uMaximum`, `uMultiply`, `uCrc32cStep`, `uPopulationCount`, `uCompare`, `uDeposit`. -/
def Obligations.MicroAlu : Prop :=
  ∀ (t e w : Nat) (env : MicroEnv) (s : State), Operating s → e < 64 → (engState s e = 1 ∨ engState s e = 3) → (engine s e).waiting = false → fetchWord s e = w →
  ∀ c ∈ ([(0, .uPassA t e env), (1, .uAdd t e env), (2, .uSubtract t e env), (3, .uAnd t e env), (4, .uOr t e env), (5, .uXor t e env), (6, .uShiftLeft t e env), (7, .uShiftRight t e env), (8, .uArithmeticShiftRight t e env), (9, .uMinimum t e env), (10, .uMaximum t e env), (11, .uMultiply t e env), (12, .uCrc32cStep t e env), (13, .uPopulationCount t e env), (14, .uCompare t e env), (15, .uDeposit t e env)] : List (Nat × Instr)),
    let x := engine s e
    let a := srcA x w
    let b := srcB x w
    (mwAlu w ≠ c.1 → exec c.2 s = .next (tick t s)) ∧
    (mwAlu w = c.1 → env.cs = 0 → microFault x w env = none →
      ∃ z r, exec c.2 s = .next z ∧ r < 2 ^ 64 ∧
        -- the result
        (c.1 = 0 → r = a % 2 ^ 64) ∧ (c.1 = 1 → r = (a + b) % 2 ^ 64) ∧ (c.1 = 2 ∨ c.1 = 14 → r = (a + 2 ^ 64 - b) % 2 ^ 64) ∧
        (c.1 = 3 → r = Nat.land a b % 2 ^ 64) ∧ (c.1 = 4 → r = Nat.lor a b % 2 ^ 64) ∧ (c.1 = 5 → r = Nat.xor a b % 2 ^ 64) ∧
        (c.1 = 6 → b < 64 → r = a * 2 ^ b % 2 ^ 64) ∧ (c.1 = 7 → b < 64 → r = a / 2 ^ b % 2 ^ 64) ∧
        (c.1 = 8 → b < 64 → signed 64 r = signed 64 a / (2 ^ b : Nat)) ∧
        (c.1 = 9 → r = min a b % 2 ^ 64) ∧ (c.1 = 10 → r = max a b % 2 ^ 64) ∧ (c.1 = 11 → r = a * b % 2 ^ 64) ∧
        (c.1 = 12 → r = crcByteLsb 0x82F63B78 (a % 2 ^ 32) (BitVec.ofNat 8 b) % 2 ^ 64) ∧ (c.1 = 13 → r = countIx 64 (bit a)) ∧
        (c.1 = 15 → ∀ k, k < min (b % 256) 64 → bits (mwImm w) 8 6 + k < 64 → bit r (bits (mwImm w) 8 6 + k) = bit a k) ∧
        -- where it goes
        (c.1 ≠ 14 → mwMem w ≠ 1 → mwMem w ≠ 3 → mwMem w ≠ 5 → (mwSeq w = 6 → mwDst w < 28) →
          xreg (engine z e) (mwDst w) = if mwDst w = 0 then 0 else r) ∧
        (∀ n, n ≠ mwDst w → (mwSeq w = 6 → n < 28) → xreg (engine z e) n = xreg x n) ∧
        -- the flags
        (mwSeq w ≠ 6 → bit (engine z e).flags 0 = decide (r = 0) ∧ bit (engine z e).flags 1 = bit r 63 ∧
          (c.1 = 1 → bit (engine z e).flags 2 = decide (2 ^ 64 ≤ a + b)) ∧ (c.1 = 2 ∨ c.1 = 14 → bit (engine z e).flags 2 = decide (a < b)) ∧
          (c.1 = 1 → a < 2 ^ 64 → b < 2 ^ 64 → bit (engine z e).flags 3 = decide (signed 64 r ≠ signed 64 a + signed 64 b)) ∧
          (c.1 = 2 ∨ c.1 = 14 → a < 2 ^ 64 → b < 2 ^ 64 → bit (engine z e).flags 3 = decide (signed 64 r ≠ signed 64 a - signed 64 b)) ∧
          bits (engine z e).flags 4 4 = (if c.1 = 14 ∧ mwDst w = 0 then bits (mwImm w) 0 4 else bits x.flags 4 4) ∧
          (bit x.flags 11 = false → mwMem w ≠ 6 → ∀ k, 8 ≤ k → bit (engine z e).flags k = bit x.flags k)))

/-- Scratch, the engine bus and the work queues (Table 13.5).  A load puts eight bytes of scratch, least significant first, into DST; a store writes source B's eight bytes at A + MEM_OFF and leaves every other byte; a load from the engine bus gives a value the spec leaves to the registers on it (a free value, log 2), a store puts address and value out; a pop takes the head of the engine's queue, a push appends source B to the queue of engine MEM_OFF and sets its DB; an acknowledgement restarts the watchdog.  An offset beyond 64 KiB, a refused access and an uncorrectable read are faults, and a row whose MEM_OP the word has not runs nothing.  The model's choices here: free bus value, log 2; scratch bytes, log 8.  Completes: `uLoadScratch`, `uStoreScratch`, `uLoadEngineBus`, `uStoreEngineBus`, `uPopWorkQueue`, `uPushWorkQueue`, `uWatchdogAck`. -/
def Obligations.MicroMemory : Prop :=
  ∀ (t e w : Nat) (env : MicroEnv) (s : State), Operating s → e < 64 → (engState s e = 1 ∨ engState s e = 3) → (engine s e).waiting = false → fetchWord s e = w →
    let x := engine s e
    let a := memAddr x w
    let d := mwDst w
    (∀ c ∈ ([(1, .uLoadScratch t e env), (2, .uStoreScratch t e env), (3, .uLoadEngineBus t e env), (4, .uStoreEngineBus t e env), (5, .uPopWorkQueue t e env), (6, .uPushWorkQueue t e env), (7, .uWatchdogAck t e env)] : List (Nat × Instr)), mwMem w ≠ c.1 → exec c.2 s = .next (tick t s)) ∧
    (mwMem w = 1 ∨ mwMem w = 2 → 65536 < a + 8 → microFault x w env = some 2) ∧
    (mwMem w = 3 ∨ mwMem w = 4 → env.busRefused = true → microFault x w env = some 2) ∧
    (mwMem w = 1 → a + 8 ≤ 65536 → env.scratchUe = true → microFault x w env = some 1) ∧
    (mwMem w = 6 → 64 ≤ mwOff w → microFault x w env = some 2) ∧
    (env.cs = 0 → microFault x w env = none → bit x.flags 11 = false → mwSeq w ≠ 6 → mwSeq w ≠ 8 →
      (mwMem w = 1 → ∃ z, exec (.uLoadScratch t e env) s = .next z ∧ (d ≠ 0 → xreg (engine z e) d = Scratch.readN x.scratch a 8 % 2 ^ 64) ∧
        (engine z e).scratch = x.scratch ∧ (engine z e).work = x.work ∧ (∀ q, q ≠ e → engine z q = engine s q) ∧ { z with eng := s.eng, free := s.free } = tick t s) ∧
      (mwMem w = 2 → Scratch.wf x.scratch = true → ∃ z, exec (.uStoreScratch t e env) s = .next z ∧
        (∀ k, k < 8 → Scratch.read (engine z e).scratch (a + k) = BitVec.ofNat 8 (srcB x w / 256 ^ k)) ∧
        (∀ j, j < a ∨ a + 8 ≤ j → Scratch.read (engine z e).scratch j = Scratch.read x.scratch j) ∧
        (engine z e).work = x.work ∧ (∀ q, q ≠ e → engine z q = engine s q) ∧ { z with eng := s.eng, free := s.free } = tick t s) ∧
      (mwMem w = 3 → ∃ z v, exec (.uLoadEngineBus t e env) s = .next z ∧ (d ≠ 0 → xreg (engine z e) d = v) ∧ v < 2 ^ 64 ∧
        (engine z e).scratch = x.scratch ∧ (∀ q, q ≠ e → engine z q = engine s q) ∧ { z with eng := s.eng, free := s.free } = tick t s) ∧
      (mwMem w = 4 → ∃ z, exec (.uStoreEngineBus t e env) s = .next z ∧ z.out = .bus e a (srcB x w) :: s.out ∧
        (engine z e).scratch = x.scratch ∧ (∀ q, q ≠ e → engine z q = engine s q) ∧ { z with eng := s.eng, free := s.free, out := s.out } = tick t s) ∧
      (∀ v rest, mwMem w = 5 → x.work = v :: rest → ∃ z, exec (.uPopWorkQueue t e env) s = .next z ∧ (engine z e).work = rest ∧
        (d ≠ 0 → xreg (engine z e) d = v % 2 ^ 64) ∧ (engine z e).scratch = x.scratch ∧ (∀ q, q ≠ e → engine z q = engine s q) ∧
        { z with eng := s.eng, free := s.free } = tick t s) ∧
      (mwMem w = 5 → x.work = [] → ∃ z, exec (.uPopWorkQueue t e env) s = .next z ∧ (engine z e).work = [] ∧ { z with eng := s.eng, free := s.free } = tick t s) ∧
      (mwMem w = 6 → mwSeq w ≠ 7 → ∃ z, exec (.uPushWorkQueue t e env) s = .next z ∧ (engine z (mwOff w)).work = (engine s (mwOff w)).work ++ [srcB x w] ∧
        (∀ q, q ≠ e → q ≠ mwOff w → engine z q = engine s q) ∧
        ((engine s (mwOff w)).waiting = false → bit (engine z (mwOff w)).flags 8 = true ∧ { z with eng := s.eng, free := s.free } = tick t s)) ∧
      (mwMem w = 7 → ∃ z, exec (.uWatchdogAck t e env) s = .next z ∧ (engine z e).ackAt = (tick t s).clk.mono ∧ (engine z e).scratch = x.scratch ∧
        (engine z e).work = x.work ∧ (∀ q, q ≠ e → engine z q = engine s q) ∧ { z with eng := s.eng, free := s.free } = tick t s))

/-- The scratch memories keep their canonical form (addresses rising, no zero byte listed) through every row of Tables 13.3 to 13.5: the premise of `MicroMemory`'s store.  The model's choices here: the canonical form, log 8. -/
def Obligations.ScratchStaysCanonical : Prop :=
  ∀ (t e : Nat) (env : MicroEnv) (s z : State), (∀ q, Scratch.wf (engine s q).scratch = true) →
  ∀ c ∈ ([.uNext t e env, .uBr t e env, .uBrt t e env, .uBrf t e env, .uCall t e env, .uRet t e env, .uUret t e env, .uWait t e env, .uHalt t e env, .uPassA t e env, .uAdd t e env, .uSubtract t e env, .uAnd t e env, .uOr t e env, .uXor t e env, .uShiftLeft t e env, .uShiftRight t e env, .uArithmeticShiftRight t e env, .uMinimum t e env, .uMaximum t e env, .uMultiply t e env, .uCrc32cStep t e env, .uPopulationCount t e env, .uCompare t e env, .uDeposit t e env, .uLoadScratch t e env, .uStoreScratch t e env, .uLoadEngineBus t e env, .uStoreEngineBus t e env, .uPopWorkQueue t e env, .uPushWorkQueue t e env, .uWatchdogAck t e env] : List Instr),
    exec c s = .next z → ∀ q, Scratch.wf (engine z q).scratch = true

/-- What ends or moves an engine's work (R29, R299 to R302, R305 to R308).  The watchdog fails an engine after 1 ms without acknowledgement; a failed engine shows FAILED, its cause and micro-PC, loses its scratch and work queue, and stops a hitless update; after 20 µs a spare takes its role, and gives it up once the engine works again.  A slice begins at its period, and one that still runs at the next is cut off and counted.  A half without commands in flight is loaded from the staged image and PERMILLE advances; FW_DONE makes the staged image the running one, FW_ROLLBACK puts the running one back everywhere.  50 µs after its start a self-test returns the engine to its role or to FAILED with SELF_TEST.  The model's choices here: logs 12, 66, 84.  Completes: `engWatchdog`, `engFailed`, `taskMigrated`, `periodicSlice`, `overrun`, `engSelfTestDone`, `hitlessHalfDone`, `fwDone`, `fwRollback`. -/
def Obligations.EngineEvents : Prop :=
  (∀ (t e : Nat) (s : State), Operating s → e < 64 →
    let x := engine s e
    let now := (tick t s).clk.mono
    -- ENG_WATCHDOG
    ((engState s e = 1 ∨ engState s e = 3) → x.waiting = false → x.ackAt + 1000000 ≤ now → exec (.engWatchdog t e) s = exec (.engFailed t e 3) s) ∧
    (x.waiting = true ∨ now < x.ackAt + 1000000 ∨ (engState s e ≠ 1 ∧ engState s e ≠ 3) → exec (.engWatchdog t e) s = .next (tick t s)) ∧
    -- ENG_FAILED
    (∀ cause, 1 ≤ cause → cause ≤ 5 → working s e = false → engState s e ≠ 6 → exec (.engFailed t e cause) s = .next (tick t s)) ∧
    (∀ cause, 1 ≤ cause → cause ≤ 5 → working s e = true ∨ engState s e = 6 → ∃ z, exec (.engFailed t e cause) s = .next z ∧
      getF z F.ENG_STAT_STATE e 0 = 5 ∧ getF z F.ENG_FAIL_CAUSE e 0 = cause ∧ getF z F.ENG_FAIL_FAIL_UPC e 0 = x.upc % 2 ^ 13 ∧
      (engine z e).scratch = [] ∧ (engine z e).work = [] ∧ (engine z e).slice = false ∧
      (∀ q, q ≠ e → { engine z q with standFor := none, migrateAt := none } = { engine s q with standFor := none, migrateAt := none }) ∧
      (∀ u, s.fw.update = some u → u.rollback = none → z.fw.update = some { u with rollback := some e, stopped := decide (u.halves.length ≤ u.done) })) ∧
    -- TASK_MIGRATED
    ((∀ p, p < 64 → (engine s p).standFor ≠ some e) → exec (.taskMigrated t e) s = .next (tick t s)) ∧
    (∀ p, p < 64 → (engine s p).standFor = some e → (∀ q, q < p → (engine s q).standFor ≠ some e) →
      (∀ at0, (engine s p).migrateAt = some at0 → now < at0 → exec (.taskMigrated t e) s = .next (tick t s)) ∧
      (∀ at0, (engine s p).migrateAt = some at0 → at0 ≤ now → ∃ z, exec (.taskMigrated t e) s = .next
          ((List.range (missedPeriods (tick t s) (engRole s e) (at0 - 20000))).foldl (fun y _ => sliceLost e (engRole s e) y) (raise Ev.ENG_TASK_MIGRATED p 0 z)) ∧
        getF z F.ENG_STAT_ROLE p 0 = getF s F.ENG_STAT_ROLE e 0 ∧ getF z F.ENG_STAT_STATE p 0 = 1 ∧ engine z p = { engine s p with migrateAt := none, ackAt := now } ∧
        (∀ q, q ≠ p → engine z q = engine s q) ∧ Only [⟨.ENG_STAT, p, 0⟩] (tick t s) { z with eng := s.eng }) ∧
      ((engine s p).migrateAt = none → working s e = false → exec (.taskMigrated t e) s = .next (tick t s)) ∧
      ((engine s p).migrateAt = none → working s e = true → ∃ z, exec (.taskMigrated t e) s = .next (raise Ev.ENG_TASK_MIGRATED p 0 z) ∧
        getF z F.ENG_STAT_ROLE p 0 = 6 ∧ getF z F.ENG_STAT_STATE p 0 = 6 ∧ (engine z p).standFor = none ∧
        (∀ q, q ≠ p → engine z q = engine s q) ∧ Only [⟨.ENG_STAT, p, 0⟩] (tick t s) { z with eng := s.eng })) ∧
    -- PERIODIC_SLICE, OVERRUN
    (working s e = false ∨ x.slice = true → exec (.periodicSlice t e) s = .next (tick t s)) ∧
    (working s e = true → x.slice = false → ∃ z, exec (.periodicSlice t e) s = .next z ∧ (engine z e).slice = true ∧ (∀ q, q ≠ e → engine z q = engine s q) ∧
      (x.waiting = false → bit (engine z e).flags 9 = true ∧ (engine z e).upc = x.upc ∧ { z with eng := s.eng } = tick t s)) ∧
    (working s e = false ∨ x.slice = false → exec (.overrun t e) s = .next (tick t s)) ∧
    (working s e = true → x.slice = true → ∃ z, exec (.overrun t e) s = .next z ∧ reg z .ENG_OVERRUN e 0 = reg s .ENG_OVERRUN e 0 + 1 ∧
      reg z .AGE_OVERRUN 0 0 = (if getF s F.ENG_STAT_ROLE e 0 = 2 then reg s .AGE_OVERRUN 0 0 + 1 else reg s .AGE_OVERRUN 0 0) ∧
      { z.tbl with ageDel := s.tbl.ageDel } = s.tbl ∧ z.tbl.ageDel = (if getF s F.ENG_STAT_ROLE e 0 = 2 then [] else s.tbl.ageDel) ∧
      (x.waiting = false → bit (engine z e).flags 9 = true) ∧ (∀ q, q ≠ e → engine z q = engine s q)) ∧
    -- ENG_SELF_TEST_DONE
    (∀ passed, x.testing = none → exec (.engSelfTestDone t e passed) s = .next (tick t s)) ∧
    (∀ passed h from0, x.testing = some (h, from0) → now < from0 + 50000 → exec (.engSelfTestDone t e passed) s = .next (tick t s)) ∧
    (∀ h from0, x.testing = some (h, from0) → from0 + 50000 ≤ now →
      (∃ z, exec (.engSelfTestDone t e false) s = .next (ok h 0x0F05 z) ∧ getF z F.ENG_STAT_STATE e 0 = 5 ∧ getF z F.ENG_FAIL_CAUSE e 0 = 4 ∧
        engine z e = { x with testing := none } ∧ Only [⟨.ENG_STAT, e, 0⟩, ⟨.ENG_FAIL, e, 0⟩, ⟨.ENG_POOL, 0, 0⟩] (tick t s) { z with eng := s.eng }) ∧
      (∃ z, exec (.engSelfTestDone t e true) s = .next (ok h 0x0F05 (raise Ev.ENG_RETURNED e 0 z)) ∧
        let role := ((s.fw.running.map (fun g => (g.roles[e]?).getD 6)).getD 6)
        getF z F.ENG_STAT_ROLE e 0 = role % 16 ∧ getF z F.ENG_STAT_STATE e 0 = (if role = 6 then 6 else 1) ∧ getF z F.ENG_FAIL_CAUSE e 0 = 0 ∧
        engine z e = { store := x.store, ackAt := now } ∧ (∀ q, q ≠ e → engine z q = engine s q) ∧ RegsKept [.ENG_STAT, .ENG_FAIL] s z ∧
        (role ≠ 0 → Only [⟨.ENG_STAT, e, 0⟩, ⟨.ENG_FAIL, e, 0⟩] (tick t s) { z with eng := s.eng })))) ∧
  -- HITLESS_HALF_DONE
  (∀ (t : Nat) (u : FwUpdate) (g : Gesso) (es : List Nat) (s : State), Operating s → s.fw.update = some u → s.fw.staged = some g → u.halves[u.done]? = some es → u.stopped = false →
    (s.cmd.outstanding.any (fun o => o.dispatched && o.holds && es.contains o.engine) = true → exec (.hitlessHalfDone t) s = .next (tick t s)) ∧
    (s.cmd.outstanding.any (fun o => o.dispatched && o.holds && es.contains o.engine) = false → ∃ z, exec (.hitlessHalfDone t) s = .next z ∧
      (∃ v, z.fw.update = some v ∧ v.halves = u.halves ∧ v.done = u.done + 1 ∧ v.cmd = u.cmd ∧ v.rollback = u.rollback ∧ v.stopped = u.rollback.isSome) ∧ z.fw.staged = some g ∧
      (∀ o, outCmd z u.cmd.serial = some o → o.permille = 1000 * (u.done + 1) / u.halves.length) ∧ (u.rollback.isSome = true → getF z F.FW_STAT_FW_STATE 0 0 = 3) ∧ z.fw.running = s.fw.running ∧
      getF z F.FW_STAT_PERMILLE 0 0 = 1000 * (u.done + 1) / u.halves.length ∧
      (∀ e, e ∈ es → engState s e ≠ 5 → (engine z e).store = storeFor g ((g.roles[e]?).getD 6)) ∧
      (u.rollback.isSome = true ∨ u.halves[u.done + 1]? = none → ∀ e, e ∉ es → engine z e = engine s e))) ∧
  (∀ (t : Nat) (s : State), Operating s → s.fw.update = none ∨ s.fw.staged = none ∨ (∀ u, s.fw.update = some u → u.stopped = true ∨ u.halves[u.done]? = none) →
    exec (.hitlessHalfDone t) s = .next (tick t s)) ∧
  -- FW_DONE
  (∀ (t : Nat) (s : State), Operating s → s.fw.update = none ∨ s.fw.staged = none → exec (.fwDone t) s = .next (tick t s)) ∧
  (∀ (t : Nat) (u : FwUpdate) (g : Gesso) (s : State), Operating s → s.fw.update = some u → s.fw.staged = some g →
    (u.rollback.isSome = true ∨ u.done < u.halves.length → exec (.fwDone t) s = .next (tick t s)) ∧
    (u.rollback = none → u.halves.length ≤ u.done → ∃ z, exec (.fwDone t) s = .next (finishOpen u.cmd 0x0F03 {} (raise0 Ev.ENG_FW_DONE z)) ∧
      z.fw = { s.fw with running := some g, staged := none, update := none } ∧ reg z .FW_RUN_VER 0 0 = BitVec.ofNat 32 g.version ∧
      getF z F.FW_STAT_FW_STATE 0 0 = 0 ∧ reg z .FW_STAGED_VER 0 0 = 0 ∧
      Only [⟨.FW_RUN_VER, 0, 0⟩, ⟨.FW_STAT, 0, 0⟩, ⟨.FW_STAGED_VER, 0, 0⟩] (tick t s) { z with fw := s.fw, boot := s.boot } ∧ z.boot = { s.boot with nextImage := false })) ∧
  -- FW_ROLLBACK
  (∀ (t eng : Nat) (u : FwUpdate) (g : Gesso) (s : State), Operating s → eng < 64 → s.fw.update = some u → s.fw.running = some g →
    (u.rollback ≠ some eng ∨ u.stopped = false → exec (.fwRollback t eng) s = .next (tick t s)) ∧
    (u.rollback = some eng → u.stopped = true → ∃ z, exec (.fwRollback t eng) s =
        .next (finishOpen u.cmd 0x0F03 { status := 0x31, detail := eng } (raise0 Ev.ENG_FW_ROLLBACK z)) ∧
      z.fw = { s.fw with update := none } ∧
      (∀ h e, h ∈ u.halves.take u.done → e ∈ h → engState s e ≠ 5 → (engine z e).store = storeFor g ((g.roles[e]?).getD 6)) ∧
      RegsKept [.ENG_STAT, .FW_STAT, .FW_STAGED_VER] s z ∧ withRegs { z with eng := s.eng, fw := s.fw, boot := s.boot } (tick t s) = tick t s))

/-- A packet's way through the device (R16, R17, R24, R45, R58, R65, R82, R158, R159, R163, R164, R168, R177, R191, R193, R196).  An ingress pipeline takes up to two frames a clock from its FIFO, none while it is quarantined, wakes or its write queue is full; drain markers go with them.  The oldest packet of a pipeline that presents one is resolved: a control frame goes to the engines without a record, a packet dropped by its program or its tail is counted and closes at point 1.  The write allocator's pointer moves and the packet at a head takes the next bank's cell.  A selection, where the reader's round robin offers it to the port, moves the head copy of the queue picked to its port's reader, or discards it where the port is down; otherwise it gives nothing.  Cells of a completed match are passed on in order.  A copy with enough cells passed on runs through egress and becomes ready or is discarded; a ready copy begins at its port, unless the MAC is busy, an export frame waits, a pause holds it or too little of it is written, is transmitted when wholly read, or is discarded where its tail was bad or its port is down.  The model's choices here: logs 6, 20, 25, 58, 62.  Completes: `pipelineEntry`, `actionResolve`, `cellWrite`, `schedSelect`, `bankMatch`, `egressPipeline`, `frameTx`. -/
def Obligations.PacketPath : Prop :=
  -- PIPELINE_ENTRY
  (∀ (t p : Nat) (s : State), Operating s → p < 32 →
    (flag s F.PIPE_STAT_QUARANTINED p 0 = true ∨ (tget s.pal.waking p).isSome = true ∨ 64 ≤ writeLevel s p → exec (.pipelineEntry t p) s = .next (tick t s)) ∧
    (flag s F.PIPE_STAT_QUARANTINED p 0 = false → tget s.pal.waking p = none → writeLevel s p < 64 →
      let l := (fifo s p).filter (fun e => !e.marker)
      ((fifo s p).all (fun e => !e.marker) = true → ∃ z, exec (.pipelineEntry t p) s = .next z ∧ fifo z p = (fifo s p).drop 2 ∧ (∀ q, q ≠ p → fifo z q = fifo s q) ∧
        z.pal.pkts = s.pal.pkts ∧ z.pal.copies = s.pal.copies ∧
        ∃ n, tgetD z.pal.inPipe p [] = tgetD s.pal.inPipe p [] ++ n ∧ n.map Pkt.id = ((fifo s p).take 2).map FifoEnt.id ∧ n.map Pkt.frame = ((fifo s p).take 2).map FifoEnt.frame) ∧
      (l = [] → ∃ z, exec (.pipelineEntry t p) s = .next z ∧ fifo z p = [] ∧ { z with pal := { z.pal with fifo := s.pal.fifo }, port := s.port } = tick t s ∧
        (fifo s p = [] → z.port = s.port)))) ∧
  -- ACTION_RESOLVE
  (∀ (t slotA slotB : Nat) (s : State), Operating s → (∀ k, k < 32 → bit slotA k = true ∨ bit slotB k = true → tgetD s.pal.inPipe k [] = []) →
    exec (.actionResolve t ⟨slotA, slotB⟩) s = .next { tick t s with pal := { s.pal with resPtr := (s.pal.resPtr + 1) % 32 } }) ∧
  (∀ (t slotA slotB pipe : Nat) (p : Pkt) (rest : List Pkt) (s : State), Operating s → pipe < 32 → s.pal.resPtr < 32 →
    (∀ k, k < 32 → bit slotA k = decide (k = pipe) ∧ bit slotB k = false) → tgetD s.pal.inPipe pipe [] = p :: rest →
    ∃ z, exec (.actionResolve t ⟨slotA, slotB⟩) s = .next z ∧ z.pal.resPtr = (s.pal.resPtr + 1) % 32 ∧
      tgetD z.pal.inPipe pipe [] = rest ∧ (∀ q, q ≠ pipe → tgetD z.pal.inPipe q [] = tgetD s.pal.inPipe q []) ∧
      (p.hdr.ctrl = true → getF z F.EPOCH_INFLIGHT_COUNT p.epoch 0 = getF s F.EPOCH_INFLIGHT_COUNT p.epoch 0 - 1 ∧ z.pal.pkts = s.pal.pkts ∧
        z.pal.copies = s.pal.copies ∧ (p.src < 768 → z.pal.handed = s.pal.handed ++ [(p.src, p.frame)] ∧
        Only [⟨.EPOCH_INFLIGHT, p.epoch, 0⟩] (tick t s) { z with pal := s.pal })) ∧
      (p.hdr.ctrl = false → ctr z 3 p.dec.tac 1 = (ctr s 3 p.dec.tac 1 + 1) % 2 ^ 64 ∧ ctr z 3 p.dec.tac 0 = (ctr s 3 p.dec.tac 0 + p.len) % 2 ^ 64) ∧
      (∀ why, p.hdr.ctrl = false → why = (if p.dec.drop ≠ 0 then p.dec.drop else 0x10) → p.dec.drop ≠ 0 ∨ p.tailBad = true → why < 256 →
        ctr z 3 p.dec.tac 2 = (ctr s 3 p.dec.tac 2 + 1) % 2 ^ 64 ∧ reg z .PAL_DROP_CNT why 0 = reg s .PAL_DROP_CNT why 0 + 1 ∧ z.pal.pkts = s.pal.pkts ∧
        z.pal.copies = s.pal.copies ∧ z.sched = s.sched)) ∧
  -- CELL_WRITE
  (∀ (t : Nat) (s : State), Operating s → ∃ z, exec (.cellWrite t) s = .next z ∧ z.pal.admPtr = (s.pal.admPtr + 1) % 32 ∧
    ((∀ q, q < 32 → tgetD s.pal.writeQ q [] = []) → { z with pal := { z.pal with admPtr := s.pal.admPtr } } = tick t s) ∧
    (∀ q id rest p b i, q < 32 → (∀ r, r < 32 → r ≠ q → tgetD s.pal.writeQ r [] = []) → tgetD s.pal.writeQ q [] = id :: rest → pktOf s id = some p →
      p.cells.length + 4 < writable p → nextBank s [] = some (b, i) → ∃ p', pktOf z id = some p' ∧ p'.cells.take (p.cells.length + 1) = p.cells ++ [(b, i)] ∧
        i ∈ bankUsed z b)) ∧
  -- SCHED_SELECT
  (∀ (t port : Nat) (s : State), Operating s → port < 773 →
    let s1 := syncPort port (tick t s)
    (turnOf s1 port = false → exec (.schedSelect t port) s = .next s1) ∧
    (∀ x y id l c p, turnOf s1 port = true → (∀ n ∈ s1.sched.nodes, n.2.moves = []) → nodeDown s1 port = false →
      pickChild s1 ⟨2, port⟩ (serviceLen s1) = some x → pickChild s1 x.2.1 (headLen s1) = some y → queueOf s1 y.2.1 = id :: l →
      copyOf s1 id = some c → pktOf s1 c.pkt = some p → p.tailBad = false → c.node = y.2.1 →
      ∃ z c', exec (.schedSelect t port) s = .next z ∧ copyOf z id = some c' ∧ c'.phase = .reading ∧ c'.selSeq = s1.pal.selSeq ∧
        id ∈ (reader z (readerOf s1 c.port)).copies ∧ queueOf z y.2.1 = l.filter (· ≠ id) ∧ tget z.sched.lastPort (readerOf s1 port) = some port) ∧
    (∀ x q id l c p, turnOf s1 port = true → (∀ n ∈ s1.sched.nodes, n.2.moves = []) → nodeDown s1 port = true →
      pickChild s1 ⟨2, port⟩ (serviceLen s1) = some x → queueFrom s1 x.2.1 = some q →
      queueOf s1 q = id :: l → copyOf s1 id = some c → pktOf s1 c.pkt = some p → ∃ z, exec (.schedSelect t port) s = .next z ∧ copyOf z id = none ∧
        reg z .PAL_DROP_CNT 7 0 = reg s .PAL_DROP_CNT 7 0 + 1)) ∧
  -- BANK_MATCH
  (∀ (t : Nat) (s : State), Operating s →
    (s.pal.readers = [] → s.pal.flight = [[], [], []] → exec (.bankMatch t) s = .next (tick t s)) ∧
    (∀ g r x c, s.pal.readers = [(g.reader, r)] → s.pal.flight = [[], [], [g]] → r.copies = [] → r.slots = [x] → x.st = 1 → x.copy = g.copy → x.cell = g.cell →
      copyOf s g.copy = some c → ∃ z c', exec (.bankMatch t) s = .next z ∧ copyOf z g.copy = some c' ∧ c'.passed = c.passed + 1 ∧ (reader z g.reader).slots = [] ∧
        z.pal.flight = [[], [], []])) ∧
  -- EGRESS_PIPELINE
  (∀ (t id : Nat) (s : State), Operating s → copyOf s id = none → exec (.egressPipeline t id) s = .next (tick t s) ∧ exec (.frameTx t id) s = .next (tick t s)) ∧
  (∀ (t id : Nat) (c : Copy) (p : Pkt) (s : State), Operating s → copyOf s id = some c → pktOf s c.pkt = some p →
    let leaves (s : State) (t id : Nat) (c : Copy) : Prop := ∃ z bytes pre post, exec (.frameTx t id) s = .next z ∧ copyOf z id = none ∧
      z.out = pre ++ .frame c.port bytes true :: (post ++ s.out) ∧ bytes.length = c.img.bytes.length ∧ ctr z 1 c.port 6 = (ctr s 1 c.port 6 + 1) % 2 ^ 64
    let pipe := egressPipe s c.port
    let y := tick t s
    (c.phase ≠ .reading ∨ c.passed < min 2 (cdiv p.len 256) ∨ heldBehind s c = true ∨ (tget s.pal.waking (32 + pipe)).isSome = true ∨ betweenPipes s 1 c.port = true →
      exec (.egressPipeline t id) s = .next y) ∧
    (c.phase = .reading → min 2 (cdiv p.len 256) ≤ c.passed → heldBehind s c = false → tget s.pal.waking (32 + pipe) = none → betweenPipes s 1 c.port = false →
      let r := runEgress p c pipe { y with pal := { y.pal with lastUse := tset y.pal.lastUse (32 + pipe) y.clk.mono } }
      (r.drop = 0 → ∃ z c', exec (.egressPipeline t id) s = .next z ∧ copyOf z id = some c' ∧ c'.phase = .ready ∧ c'.pkt = c.pkt ∧ c'.port = c.port ∧
        c'.img.tsAction = r.img.tsAction ∧ c'.img.tsTag = r.img.tsTag) ∧
      (r.drop ≠ 0 → r.drop < 256 → ∃ z, exec (.egressPipeline t id) s = .next z ∧ copyOf z id = none ∧ reg z .PAL_DROP_CNT r.drop 0 = reg s .PAL_DROP_CNT r.drop 0 + 1)) ∧
    -- FRAME_TX
    (c.port = 772 ∨ (c.phase ≠ .sending ∧ c.phase ≠ .ready) → exec (.frameTx t id) s = .next y) ∧
    (c.phase = .ready → behindOnPort s c = true → exec (.frameTx t id) s = .next y) ∧
    (c.port ≠ 772 → c.phase = .ready → behindOnPort s c = false → p.tailBad = true → ∃ z, exec (.frameTx t id) s = .next z ∧ copyOf z id = none ∧
      reg z .PAL_DROP_CNT 0x10 0 = reg s .PAL_DROP_CNT 0x10 0 + 1) ∧
    (c.port < 768 → c.phase = .ready → behindOnPort s c = false → p.tailBad = false → portIsUp s c.port = false → ∃ z, exec (.frameTx t id) s = .next z ∧
      copyOf z id = none ∧ reg z .PAL_DROP_CNT 7 0 = reg s .PAL_DROP_CNT 7 0 + 1) ∧
    (c.port < 768 → c.phase = .ready → behindOnPort s c = false → p.tailBad = false → portIsUp s c.port = true →
      (macIdle y c.port = false ∨ exportWaits y c.port = true ∨ pauseHolds y c = true ∨ mayBegin y c p = false → exec (.frameTx t id) s = .next y) ∧
      (macIdle y c.port = true → exportWaits y c.port = false → pauseHolds y c = false → mayBegin y c p = true →
        (p.writing = true ∨ allRead s c = false → exec (.frameTx t id) s = .next (setCopy (firstBit c p y) y)) ∧
        (p.writing = false → allRead s c = true → leaves s t id c))) ∧
    (c.phase = .sending → nodeDown s c.port = false → c.port < 772 → (768 ≤ c.port → stlUp s (c.port - 768) = true) →
      (p.writing = true ∨ allRead s c = false → exec (.frameTx t id) s = .next y) ∧
      (c.port < 768 → p.writing = false → allRead s c = true → leaves s t id c)) ∧
    (768 ≤ c.port → c.port < 772 → c.phase = .ready → behindOnPort s c = false → p.tailBad = false → stlIsDown s (c.port - 768) = false →
      let open' := stlUp s (c.port - 768) && !flag s F.STL_PORT_STAT_XOFF_RX (c.port - 768) 0 && mayBegin y c p
      (open' = false → exec (.frameTx t id) s = .next y) ∧
      (open' = true → p.writing = true ∨ allRead s c = false → exec (.frameTx t id) s = .next (setCopy (firstBit c p y) y))))

/-- What time does to shapers, watched classes, detaching queues and the CPU's rings (R181, R190, R200, R201, R267 to R269, R271).  A node's entry of the wheel leaves when it is due and none is due earlier, and one more than 64 ns late is counted.  A class that its partner has paused for WD_MS enters drop mode, and leaves it after RESTORE_MS without a pause.  A detaching queue that holds nothing is detached and its command completes.  Buffers of a ring's oldest reserved copy are written and with the last the frame completes; a head copy that has lacked descriptors for HOLD_US is dropped; the transmit rings are served in turn, the first that has a malformed frame, a frame not yet staged or a staged frame that now fits, a malformed frame being counted and passed over.  The model's choices here: logs 55, 64, 81.  Completes: `shaperRelease`, `pfcWdDrop`, `pfcWdRestore`, `detachDone`, `cpuRxDeliver`, `rxHoldExpire`, `txFrameServe`. -/
def Obligations.WheelWatchdogAndCpuRings : Prop :=
  -- SHAPER_RELEASE
  (∀ (t kind ix : Nat) (s : State), Operating s → ix < nodeCount kind → s.sched.wheel.find? (fun w => w.node == ⟨kind, ix⟩) = none →
    exec (.shaperRelease t kind ix) s = .next (tick t s)) ∧
  (∀ (t kind ix : Nat) (w : WheelEnt) (s : State), Operating s → ix < nodeCount kind → s.sched.wheel.find? (fun w => w.node == ⟨kind, ix⟩) = some w →
    let now := (tick t s).clk.mono
    (now < w.due ∨ (∃ x ∈ s.sched.wheel, x.due < w.due) → exec (.shaperRelease t kind ix) s = .next (tick t s)) ∧
    (w.due ≤ now → (∀ x ∈ s.sched.wheel, w.due ≤ x.due) → (w.parked = true → tokensAbove (tick t s) ⟨kind, ix⟩ = true) → ∃ z, exec (.shaperRelease t kind ix) s = .next z ∧
      z.sched.wheel = s.sched.wheel.filter (fun x => x.node ≠ ⟨kind, ix⟩) ∧
      reg z .SCH_LATE_CNT 0 0 = (if 64 < now - w.due then reg s .SCH_LATE_CNT 0 0 + 1 else reg s .SCH_LATE_CNT 0 0)) ∧
    (w.due ≤ now → (∀ x ∈ s.sched.wheel, w.due ≤ x.due) → w.parked = true → tokensAbove (tick t s) ⟨kind, ix⟩ = false → ∃ z, exec (.shaperRelease t kind ix) s = .next z ∧
      (∃ x ∈ z.sched.wheel, x.node = ⟨kind, ix⟩ ∧ now < x.due) ∧ (∀ x, x.node ≠ ⟨kind, ix⟩ → (x ∈ z.sched.wheel ↔ x ∈ s.sched.wheel)) ∧
      Only [⟨.SCH_STAT, 0, 0⟩, ⟨.SCH_PARK_CNT, 0, 0⟩] (tick t s) { z with sched := s.sched })) ∧
  -- PFC_WD_DROP, PFC_WD_RESTORE
  (∀ (t port cls : Nat) (s : State), Operating s → port < 768 → cls < 8 →
    let act := getF s F.PORT_WD_WD_ACTIVE port 0
    let now := (tick t s).clk.mono
    (tget (portRt s port).pausedSince cls = none ∨ bit (getF s F.PORT_WD_WD_EN port 0) cls = false ∨ bit act cls = true →
      exec (.pfcWdDrop t port cls) s = .next (tick t s)) ∧
    (∀ at0, tget (portRt s port).pausedSince cls = some at0 → now < at0 + getF s F.PAL_WD_CFG_WD_MS 0 0 * 1000000 → exec (.pfcWdDrop t port cls) s = .next (tick t s)) ∧
    (∀ at0, tget (portRt s port).pausedSince cls = some at0 → at0 + getF s F.PAL_WD_CFG_WD_MS 0 0 * 1000000 ≤ now →
      bit (getF s F.PORT_WD_WD_EN port 0) cls = true → bit act cls = false →
      ∃ z, exec (.pfcWdDrop t port cls) s = .next (wdEmpty port cls (raise0 Ev.PAL_WD_DROP z)) ∧ getF z F.PORT_WD_WD_ACTIVE port 0 = putBit act cls true ∧
        Only [⟨.PORT_WD, port, 0⟩] (tick t s) z) ∧
    (bit act cls = false ∨ now < tgetD (portRt s port).lastPause cls 0 + getF s F.PAL_WD_CFG_RESTORE_MS 0 0 * 1000000 →
      exec (.pfcWdRestore t port cls) s = .next (tick t s)) ∧
    (bit act cls = true → tgetD (portRt s port).lastPause cls 0 + getF s F.PAL_WD_CFG_RESTORE_MS 0 0 * 1000000 ≤ now →
      ∃ z, exec (.pfcWdRestore t port cls) s = .next (raise0 Ev.PAL_WD_RESTORE z) ∧ getF z F.PORT_WD_WD_ACTIVE port 0 = putBit act cls false ∧
        Only [⟨.PORT_WD, port, 0⟩] (tick t s) z)) ∧
  -- DETACH_DONE
  (∀ (t kind ix : Nat) (s : State), Operating s → ix < nodeCount kind → kind = 0 ∨ kind = 3 →
    let n : Node := ⟨kind, ix⟩
    (detachPend s n = false ∨ heldBy s n ≠ 0 → exec (.detachDone t kind ix) s = .next (tick t s)) ∧
    (∀ h, detachPend s n = true → heldBy s n = 0 → (nodeRt s n).detachCmd = some h →
      ∃ z, exec (.detachDone t kind ix) s = .next (finishOpen h 0x0302 {} (raise0 Ev.SCH_DETACH_DONE z)) ∧ (nodeRt z n).moves = [] ∧ flag z ⟨nodeReg0 kind, 31, 1⟩ ix 0 = false ∧
        flag z ⟨nodeReg0 kind, 30, 1⟩ ix 0 = false ∧ (nodeRt z n).detachCmd = none ∧ (∀ m, ∀ l ∈ (nodeRt z m).active, n ∉ l) ∧
        Only [⟨nodeReg0 kind, ix, 0⟩] (tick t s) { z with sched := s.sched })) ∧
  -- CPU_RX_DELIVER
  (∀ (t r count : Nat) (s : State), Operating s → r < 32 → (pktRing s r).reserved = [] → exec (.cpuRxDeliver t r count) s = .next (tick t s)) ∧
  (∀ (t r count id d : Nat) (rest : List (Nat × Nat)) (c : Copy) (p : Pkt) (s : State), Operating s → r < 32 → (pktRing s r).reserved = (id, d) :: rest →
    copyOf s id = some c → pktOf s c.pkt = some p →
    let k := max 1 (cdiv c.img.bytes.length (1024 * getF s F.PKT_RING_CFG_BUF_KB r 0))
    (c.phase ≠ .ready ∨ allRead s c = false ∨ flag s F.PKT_RING_CFG_RESET r 0 = true → exec (.cpuRxDeliver t r count) s = .next (tick t s)) ∧
    (c.phase = .ready → allRead s c = true → flag s F.PKT_RING_CFG_RESET r 0 = false → (pktRing s r).written + count < k →
      ∃ z ds, exec (.cpuRxDeliver t r count) s = .next z ∧ (pktRing z r).written = (pktRing s r).written + count ∧ z.out = ds ++ s.out ∧ ds.length = count ∧
        (∀ o ∈ ds, ∃ a b, o = .dma a b) ∧ { z with host := s.host, out := s.out } = tick t s) ∧
    (c.phase = .ready → allRead s c = true → flag s F.PKT_RING_CFG_RESET r 0 = false → k ≤ (pktRing s r).written + count →
      ∃ z, exec (.cpuRxDeliver t r count) s = .next z ∧ copyOf z id = none ∧ (pktRing z r).written = 0 ∧
        getF z F.RING_HEAD_HEAD r 0 = (getF s F.RING_HEAD_HEAD r 0 + k) % ringSize s r ∧ (pktRing z r).posted = (pktRing s r).posted.drop k ∧
        ctr z 1 772 6 = (ctr s 1 772 6 + 1) % 2 ^ 64)) ∧
  -- RX_HOLD_EXPIRE
  (∀ (t q : Nat) (s : State), Operating s → q < 48 →
    let y := syncHold (tick t s)
    let r := getF s F.CPU_QMAP_RING q 0
    (tget y.host.hold q = none → exec (.rxHoldExpire t q) s = .next y) ∧
    (∀ id n, tget y.host.hold q = some (id, n, none) → exec (.rxHoldExpire t q) s = .next y) ∧
    (∀ id n at0, tget y.host.hold q = some (id, n, some at0) → n + (y.clk.mono - at0) < getF s F.PKT_RING_TIME_HOLD_US r 0 * 1000 → exec (.rxHoldExpire t q) s = .next y) ∧
    (∀ id n at0 c p, tget y.host.hold q = some (id, n, some at0) → getF s F.PKT_RING_TIME_HOLD_US r 0 * 1000 ≤ n + (y.clk.mono - at0) →
      copyOf s id = some c → pktOf s c.pkt = some p → ∃ z, exec (.rxHoldExpire t q) s = .next z ∧ copyOf z id = none ∧ reg z .DROP_CNT r 0 = reg s .DROP_CNT r 0 + 1)) ∧
  -- TX_FRAME_SERVE
  (∀ (t : Nat) (s : State), Operating s → (∀ r, 32 ≤ r → r < 64 → flag s F.PKT_RING_CFG_EN r 0 = false ∨ flag s F.PKT_RING_CFG_RESET r 0 = true) →
    exec (.txFrameServe t) s = .next (tick t s)) ∧
  (∀ (t : Nat) (l : List (List Byte)) (s : State), Operating s →
    ∀ k, k < 32 → (∀ j, j < k → serveTx (32 + (s.host.txRr + 1 + j) % 32) (tick t s) = none) →
    let r := 32 + (s.host.txRr + 1 + k) % 32
    flag s F.PKT_RING_CFG_EN r 0 = true → flag s F.PKT_RING_CFG_RESET r 0 = false → (pktRing s r).staged = none → nextFrame (pktRing s r).posted = some l →
    (txMalformed l = true → ∃ z, exec (.txFrameServe t) s = .next z ∧ reg z .DROP_CNT r 0 = reg s .DROP_CNT r 0 + 1 ∧ z.host.txRr = r - 32 ∧
      getF z F.RING_HEAD_HEAD r 0 = (getF s F.RING_HEAD_HEAD r 0 + l.length) % ringSize s r ∧ (pktRing z r).posted = (pktRing s r).posted.drop l.length ∧
      z.pal = s.pal) ∧
    (let f := l.flatMap txBuffer ++ zeros (60 - (l.flatMap txBuffer).length)
     txMalformed l = false → txRoom s f = false → ∃ z, exec (.txFrameServe t) s = .next z ∧ (pktRing z r).staged = some (f, l.length) ∧ z.host.txRr = r - 32 ∧
      { z with host := s.host } = tick t s) ∧
    (let f := l.flatMap txBuffer ++ zeros (60 - (l.flatMap txBuffer).length)
     txMalformed l = false → txRoom s f = true → ∃ z, exec (.txFrameServe t) s = .next z ∧ z.host.txRr = r - 32 ∧
      getF z F.RING_HEAD_HEAD r 0 = (getF s F.RING_HEAD_HEAD r 0 + l.length) % ringSize s r ∧ (pktRing z r).posted = (pktRing s r).posted.drop l.length ∧
      reg z .DROP_CNT r 0 = reg s .DROP_CNT r 0)) ∧
  (∀ (t k n : Nat) (f : List Byte) (s : State), Operating s → k < 32 → (∀ j, j < k → serveTx (32 + (s.host.txRr + 1 + j) % 32) (tick t s) = none) →
    let r := 32 + (s.host.txRr + 1 + k) % 32
    flag s F.PKT_RING_CFG_EN r 0 = true → flag s F.PKT_RING_CFG_RESET r 0 = false → (pktRing s r).staged = some (f, n) → txRoom s f = true →
    ∃ z, exec (.txFrameServe t) s = .next z ∧ (pktRing z r).staged = none ∧ z.host.txRr = r - 32 ∧ (pktRing z r).posted = (pktRing s r).posted.drop n ∧
      getF z F.RING_HEAD_HEAD r 0 = (getF s F.RING_HEAD_HEAD r 0 + n) % ringSize s r ∧ reg z .DROP_CNT r 0 = reg s .DROP_CNT r 0)

/-- Tables in the background (R89, R94, R95, R97, R99, R101, R103, R107, R108, R110).  The update window of 40 ns of TOD comes once; it takes up to four events of the learn FIFO, places and counts a learned key that is absent and has a free slot, passes one without to the engines, and makes up to 16 writes that commands left; with nothing waiting it changes nothing else.  A tick that is due advances the table's ticks and its slice, and the ages set for it take effect.  The end of a rehash leaves the table STABLE or RESIDUAL with what could not be moved, the end of a repack and of a flush advances GEN and answers the command that began it, a flush with the number of its deletes and with no entry left that it matched from where its walk stood; a retry is due again after 100 ms.  Nothing is done where no such operation stands.  The model's choices here: logs 60, 61, 76.  Completes: `updateWindow`, `agingTick`, `rehashDone`, `residualRetry`, `flushDone`. -/
def Obligations.TableBackground : Prop :=
  -- UPDATE_WINDOW
  (∀ (t : Nat) (s : State), Operating s → s.tbl.winAt = some ((tick t s).clk.tod / 40) → exec (.updateWindow t) s = .next (tick t s)) ∧
  (∀ (t : Nat) (s : State), Operating s → s.tbl.winAt ≠ some ((tick t s).clk.tod / 40) →
    let noBg := s.tbl.learnEng = [] ∧ s.tbl.ageDel = [] ∧ s.tbl.stageCmd = none ∧ s.tbl.commitCmd = none ∧ ∀ id, id < 64 → bgOf s id = none
    ∃ z, exec (.updateWindow t) s = .next z ∧ z.tbl.learnFifo = s.tbl.learnFifo.drop 4 ∧ z.tbl.winAt = some ((tick t s).clk.tod / 40) ∧
      getF z F.LEARN_STAT_FIFO_LEVEL 0 0 = (s.tbl.learnFifo.length - 4) % 2 ^ 17 ∧
      (s.tbl.learnFifo = [] → z.tbl.winUsed = s.tbl.winUsed - 16) ∧
      (s.tbl.learnFifo = [] → noBg → Only [⟨.LEARN_STAT, 0, 0⟩] { tick t s with tbl := { s.tbl with winAt := some ((tick t s).clk.tod / 40), winUsed := s.tbl.winUsed - 16 } } z) ∧
      (∀ v d, s.tbl.learnFifo = [v] → noBg → exDef s v.table = some d → (∀ e ∈ (exTab s d.id).ents, e.key ≠ v.key) →
        (∀ p, placeFree (exTab s d.id) (placeCands s d (exTab s d.id) v.key) (seedCur s d.id) = some p →
          ∃ e, (exTab z d.id).ents = (exTab s d.id).ents ++ [e] ∧ e.key = v.key ∧ e.data = v.data ∧ e.static = false ∧
            e.origin = 1 ∧ e.region = p.region ∧ e.pos = p.pos ∧ reg z .LEARN_APPLIED 0 0 = reg s .LEARN_APPLIED 0 0 + 1 ∧ z.tbl.winUsed = s.tbl.winUsed - 15) ∧
        (placeFree (exTab s d.id) (placeCands s d (exTab s d.id) v.key) (seedCur s d.id) = none → z.tbl.learnEng = [v] ∧ (exTab z d.id).ents = (exTab s d.id).ents))) ∧
  -- AGING_TICK
  (∀ (t table : Nat) (s : State), Operating s → table < 64 → exDef s table = none → exec (.agingTick t table) s = .next (tick t s)) ∧
  (∀ (t table : Nat) (d : ExactDef) (s : State), Operating s → table < 64 → exDef s table = some d →
    let a := (exTab s table).age
    let sweep := (a.newSet.map (fun x => x.2.1)).getD a.sweepTicks
    (d.ageable = false ∨ (tick t s).clk.mono < a.nextAt → exec (.agingTick t table) s = .next (tick t s)) ∧
    (d.ageable = true → a.nextAt ≤ (tick t s).clk.mono → ∃ z, exec (.agingTick t table) s = .next z ∧ (exTab z table).age.ticks = a.ticks + 1 ∧
      (exTab z table).age.slice = (if a.slice = 0 ∨ sweep ≤ a.slice then 1 else a.slice + 1) ∧ (exTab z table).age.newSet = none ∧ (exTab z table).age.sweepTicks = sweep ∧
      (∀ n m on, a.newSet = some (n, m, on) → (exTab z table).age.ageTicks = n ∧ (exTab z table).age.en = on) ∧
      (exTab z table).ents.map ExEnt.key = (exTab s table).ents.map ExEnt.key ∧ ∃ l, z.tbl.ageDel = s.tbl.ageDel ++ l ∧ ∀ x ∈ l, x.1 = d.id ∧ x.2.static = false)) ∧
  -- REHASH_DONE
  (∀ (t table : Nat) (s : State), Operating s → table < 64 → bgOf s table = none →
    exec (.rehashDone t table) s = .next (tick t s) ∧ exec (.flushDone t table) s = .next (tick t s)) ∧
  (∀ (t table : Nat) (b : BgOp) (s : State), Operating s → table < 64 → bgOf s table = some b → b.flush = true → exec (.rehashDone t table) s = .next (tick t s)) ∧
  (∀ (t table : Nat) (b : BgOp) (s : State), Operating s → table < 64 → bgOf s table = some b → b.flush = false → exDef s table = none →
    ∃ z, exec (.rehashDone t table) s = .next (match b.cmd with
        | some h => finishOpen h 0x0106 {} (raise0 Ev.LEARN_BG_DONE z)
        | none => raise0 Ev.LEARN_BG_DONE z) ∧ bgOf z table = none ∧ getF z F.TBL_STAT0_BG_OP table 0 = 0 ∧ getF z F.TBL_STAT0_PERMILLE table 0 = 0 ∧
      getF z F.TBL_STAT0_GEN table 0 = (getF s F.TBL_STAT0_GEN table 0 + 1) % 2 ^ 16 ∧ Only [⟨.TBL_STAT0, table, 0⟩] (tick t s) { z with tbl := s.tbl }) ∧
  (∀ (t table : Nat) (b : BgOp) (d : ExactDef) (s : State), Operating s → table < 64 → bgOf s table = some b → b.flush = false → exDef s table = some d → hashState s table = 1 →
    ∃ z r, exec (.rehashDone t table) s = .next z ∧ getF z F.TBL_STAT3_RESIDUAL table 0 = r % 2 ^ 20 ∧ getF z F.TBL_STAT0_HASH_STATE table 0 = (if r = 0 then 0 else 2) ∧
      getF z F.TBL_STAT0_GEN table 0 = (getF s F.TBL_STAT0_GEN table 0 + 1) % 2 ^ 16 ∧ r = residuals z table (exTab z table) ∧ ((exTab s table).ents = [] → r = 0) ∧
      ∃ y, z = startPeerFlush table (bgReply 0x0106 b (if r = 0 then {} else { status := 0x20, detail := r }) y)) ∧
  -- RESIDUAL_RETRY
  (∀ (t table : Nat) (s : State), Operating s → table < 64 →
    (exDef s table = none ∨ hashState s table ≠ 2 ∨ (tick t s).clk.mono < (exTab s table).retryAt → exec (.residualRetry t table) s = .next (tick t s)) ∧
    (∀ d, exDef s table = some d → hashState s table = 2 → (exTab s table).retryAt ≤ (tick t s).clk.mono →
      ∃ z, exec (.residualRetry t table) s = .next z ∧ (exTab z table).retryAt = (tick t s).clk.mono + 100000000)) ∧
  -- FLUSH_DONE
  (∀ (t table : Nat) (b : BgOp) (d : ExactDef) (p : TblFlush) (s : State), Operating s → table < 64 → exDef s table = some d → bgOf s table = some b →
    b.params = some p → b.flush = true →
    ∃ z y, exec (.flushDone t table) s = .next z ∧
      z = startPeerFlush table (bgReply 0x0105 b { detail := b.deleted + (bgTodo (tick t s) d b b.visited b.total).length } y) ∧
      (hashState s table ≠ 2 → getF z F.TBL_STAT0_GEN table 0 = (getF s F.TBL_STAT0_GEN table 0 + 1) % 2 ^ 16) ∧
      (((exTab s table).ents.map ExEnt.key).Nodup → ∀ e ∈ (exTab z table).ents, flushMatch d p e = true →
        ∃ e0 ∈ (exTab s table).ents, e0.key = e.key ∧ (slotIx d e0 < b.visited ∨ b.total ≤ slotIx d e0)) ∧
      (s.twin.flushTables.contains table = false → bgOf z table = none))

/-- Versions and epochs (R24, R25, R121, R124, R129 to R134, R379).  The rewrite makes a staged epoch PENDING and answers POL_STAGE with its number; the commit strobe makes it CURRENT, the former one DRAINING from that instant, and answers with epoch and TOD.  An epoch DRAINING for HOLD_MAX_MS expires; OLDEST, superseded and without packets, is reclaimed, after which its number is FREE, OLDEST has advanced and the entries that ended with the next epoch are gone.  A packet removed counts once, however many copies of it wait.  The scrubber rewrites a row that disagrees, and a copy of scoped rows ends where one stands; a pipeline's return waits while its sibling holds packets of its ports.  The model's choices here: logs 47, 60.  Completes: `epochRewriteDone`, `commitStrobe`, `epochExpire`, `epochReclaim`, `epochReclaimDone`, `scrubVisit`, `scopeCopyDone`. -/
def Obligations.EpochsAndScopes : Prop :=
  (∀ (t : Nat) (s : State), Operating s →
    let p := pendEpoch s
    let old := curEpoch s
    let y := tick t s
    -- EPOCH_REWRITE_DONE
    (isStaged s = false ∨ s.tbl.rewriteDone = true → exec (.epochRewriteDone t) s = .next y) ∧
    (isStaged s = true → s.tbl.rewriteDone = false → ∃ z, exec (.epochRewriteDone t) s = .next (match s.tbl.stageCmd with
        | some h => finishOpen h 0x0201 { data := leBytes 4 p } z
        | none => z) ∧ epState z p = 1 ∧ z.tbl.rewriteDone = true ∧ z.tbl.stageCmd = none ∧
      (s.tbl.image.isSome = true → ∀ e ∈ z.tbl.tcam, e.vfrom = p → p = oldEpoch s) ∧ z.tbl.tcam.length = s.tbl.tcam.length) ∧
    -- COMMIT_STROBE
    (s.tbl.commitCmd = none ∨ isStaged s = false ∨ s.tbl.rewriteDone = false → exec (.commitStrobe t) s = .next y) ∧
    (∀ h, s.tbl.commitCmd = some h → isStaged s = true → s.tbl.rewriteDone = true → ∃ z,
      exec (.commitStrobe t) s = .next (finish h 0x0202 { data := leBytes 8 p ++ leBytes 8 y.clk.tod } (raise0 Ev.EPOCH_COMMITTED z)) ∧
      curEpoch z = p ∧ pendEpoch z = (p + 1) % 16 ∧ isStaged z = false ∧ epState z p = 2 ∧ (old ≠ p → epState z old = 3) ∧
      tget z.tbl.drainSince old = some y.clk.mono ∧ z.tbl.commitCmd = none ∧ z.tbl.undo = [] ∧ (tget z.tbl.cfgOf p).isSome = true ∧ flag z F.PIPE_CFG_STAT_PARSE_PEND 0 0 = false ∧
      flag z F.PIPE_CFG_STAT_SEED_PEND 0 0 = false ∧
      Only [⟨.EPOCH_STAT, 0, 0⟩, ⟨.EPOCH_STATE0, 0, 0⟩, ⟨.EPOCH_STATE1, 0, 0⟩, ⟨.PIPE_CFG_STAT, 0, 0⟩] y { z with tbl := s.tbl }) ∧
    -- EPOCH_EXPIRE
    (∀ e, e < 16 → holdPassed y e = false → exec (.epochExpire t e) s = .next y) ∧
    (∀ e, e < 16 → holdPassed y e = true → ∃ z, exec (.epochExpire t e) s = .next z ∧ epState z e = 4 ∧
      reg z .EPOCH_EXPIRE_DROPS 0 0 = reg s .EPOCH_EXPIRE_DROPS 0 0 + BitVec.ofNat 32 ((s.pal.copies.filter (fun c =>
        (c.phase = .placing || c.phase = .queued) && (pktOf s c.pkt).any (fun k => k.epoch == e))).map Copy.pkt).eraseDups.length) ∧
    -- EPOCH_RECLAIM, EPOCH_RECLAIM_DONE
    (let n := oldEpoch s
     ((epState s n = 3 ∨ epState s n = 4) → getF s F.EPOCH_INFLIGHT_COUNT n 0 = 0 → ∃ z, exec (.epochReclaim t) s = .next z ∧ epState z n = 5 ∧
        Only [⟨.EPOCH_STAT, 0, 0⟩, ⟨.EPOCH_STATE0, 0, 0⟩, ⟨.EPOCH_STATE1, 0, 0⟩] y z) ∧
     ((epState s n ≠ 3 ∧ epState s n ≠ 4) ∨ getF s F.EPOCH_INFLIGHT_COUNT n 0 ≠ 0 → exec (.epochReclaim t) s = .next y) ∧
     (epState s n ≠ 5 → exec (.epochReclaimDone t) s = .next y) ∧
     (epState s n = 5 → ∃ z, exec (.epochReclaimDone t) s = .next (raise0 Ev.EPOCH_RECLAIMED z) ∧ epState z n = 0 ∧ oldEpoch z = (n + 1) % 16 ∧
        (s.tbl.image.isSome = true → ∀ e ∈ z.tbl.tcam, e.openEnd = false → e.vuntil ≠ (n + 1) % 16) ∧ (∀ e ∈ z.tbl.tcam, e ∈ s.tbl.tcam) ∧
        tget z.tbl.cfgOf n = none))) ∧
  -- SCRUB_VISIT
  (∀ (t pipe handle : Nat) (s : State), Operating s → pipe < 32 →
    (∃ z, exec (.scrubVisit t pipe 0) s = .next z ∧ reg z .SCRUB_SWEEPS 0 0 = reg s .SCRUB_SWEEPS 0 0 + 1 ∧ Only [⟨.SCRUB_SWEEPS, 0, 0⟩] (tick t s) z) ∧
    (handle ≠ 0 → tcamEnt s handle = none → exec (.scrubVisit t pipe handle) s = .next (tick t s)) ∧
    (∀ e, handle ≠ 0 → tcamEnt s handle = some e → e.badIn.contains pipe = false → exec (.scrubVisit t pipe handle) s = .next (tick t s)) ∧
    (∀ e, handle ≠ 0 → tcamEnt s handle = some e → e.badIn.contains pipe = true → ∃ z, exec (.scrubVisit t pipe handle) s = .next (raise Ev.TCAM_SCRUB_FIX pipe 0 z) ∧
      tcamEnt z handle = some { e with badIn := e.badIn.filter (· ≠ pipe) } ∧ reg z .SCRUB_FIX_CNT 0 0 = reg s .SCRUB_FIX_CNT 0 0 + 1 ∧
      Only [⟨.SCRUB_FIX_CNT, 0, 0⟩] (tick t s) { z with tbl := s.tbl })) ∧
  -- SCOPE_COPY_DONE
  (∀ (t ix : Nat) (s : State), Operating s → ix < 64 →
    (s.flt.copying.contains ix = false → exec (.scopeCopyDone t 0 ix) s = .next (tick t s)) ∧
    (s.flt.copying.contains ix = true → ∃ z, exec (.scopeCopyDone t 0 ix) s = .next z ∧ ix ∉ z.flt.copying) ∧
    (returning s 0 ix = none → exec (.scopeCopyDone t 1 ix) s = .next (tick t s)) ∧
    (∀ r, returning s 0 ix = some r → r.tested = false → exec (.scopeCopyDone t 1 ix) s = .next (tick t s)) ∧
    (∀ r, returning s 0 ix = some r → r.tested = true → ix / 32 = 1 → ∃ z, exec (.scopeCopyDone t 1 ix) s = .next z ∧
      flag z F.PIPE_STAT_QUARANTINED (ix % 32) 1 = false) ∧
    (∀ r, returning s 0 ix = some r → r.tested = true → ix < 32 →
      let blocked := (tgetD s.pal.inPipe (servingPipe s 0 ix) []).any (fun p => p.pipe ≠ ix && (pipePorts (tick t s) ix).contains p.src)
      (blocked = true → exec (.scopeCopyDone t 1 ix) s = .next (tick t s)) ∧
      (blocked = false → ∃ z, exec (.scopeCopyDone t 1 ix) s = .next z ∧ flag z F.PIPE_STAT_QUARANTINED ix 0 = false ∧ getF z F.PIPE_STAT_SERVED_BY ix 0 = ix)) ∧
    (ix < 5 → tget s.port.srcTo ix = none → exec (.scopeCopyDone t 2 ix) s = .next (tick t s)) ∧
    (∀ new, ix < 5 → tget s.port.srcTo ix = some new → rowsFit s 0 (768 + ix) (servingPipe s 0 new) = false ∨ rowsFit s 1 (768 + ix) (servingPipe s 1 new) = false →
      exec (.scopeCopyDone t 2 ix) s = .next (raise0 Ev.TCAM_SCOPE_HELD (tick t s)))) ∧
  (∀ (t port : Nat) (s : State), Operating s → port < 773 → s.tbl.scopeMoves = [] → exec (.scopeCopyDone t 3 port) s = .next (tick t s))

/-- Faults (R121, R372, R377 to R382, R386, R425).  With no Varnish trigger set, a wire fault makes its source fail: a pipeline is to be quarantined, a bank retired, an engine, macro or tile link fails, a device-wide source brings the safe state.  A corrected memory error is recorded with code and location; an uncorrectable one acts by its code.  A decided quarantine empties the pipeline and gives its macros to the first free sibling; a retired bank leaves service once none of its cells is used and FREE_CELLS can give its cells up; a failed macro or tile link is shown.  The test of a unit's return ends it with DETAIL 1 where it fails, otherwise the bank or macro is back, and a pipeline's rows are copied next.  The model's choices here: logs 46, 47, 80.  Completes: `wireFault`, `memCe`, `memUe`, `pipeQuarantine`, `bankDrainDone`, `macroPllLoss`, `tileLinkRetry`, `tileLinkDown`, `returnTestDone`. -/
def Obligations.FaultActions : Prop :=
  ∀ (t : Nat) (s : State), Operating s →
    let y := tick t s
    let quiet := (∀ ev, armedFor s ev = false) ∧ (∀ c, classTrips s c = false)
    -- WIRE_FAULT
    (quiet → ∀ k, k < 32 → flag s F.PIPE_STAT_QUARANTINED k 0 = false → s.flt.quarantining.contains k = false →
      ∃ z, exec (.wireFault t k) s = .next z ∧ z.flt.quarantining = s.flt.quarantining ++ [k]) ∧
    (quiet → ∀ k, k < 32 → flag s F.PIPE_STAT_QUARANTINED k 1 = false → s.flt.quarantining.contains (32 + k) = false →
      ∃ z, exec (.wireFault t (256 + k)) s = .next z ∧ z.flt.quarantining = s.flt.quarantining ++ [32 + k]) ∧
    (quiet → ∀ b, b < 128 → mapBit s .BANK_RETIRED b = false → ∃ z, exec (.wireFault t (512 + b)) s = .next z ∧ mapBit z .BANK_RETIRED b = true ∧
      bankOpen z b = false) ∧
    (quiet → ∀ e, e < 64 → engState s e ≠ 5 → ∃ z, exec (.wireFault t (768 + e)) s = .next z ∧ getF z F.ENG_STAT_STATE e 0 = 5 ∧ getF z F.ENG_FAIL_CAUSE e 0 = 5) ∧
    (quiet → ∀ m, m < 96 → macFailed s m = false → ∃ z, exec (.wireFault t (1024 + m)) s = .next z ∧ macFailed z m = true) ∧
    (quiet → ∀ k, k < 8 → ∃ z, exec (.wireFault t (1280 + k)) s = .next z ∧ bit (getF z F.TILE_LINK_STAT_DOWN 0 0) k = true) ∧
    (quiet → ∀ k, k < 6 → ∃ z, exec (.wireFault t (1536 + k)) s = .next z ∧ isSafe z = true ∧ getF z F.FLT_STAT_SAFE_CAUSE 0 0 = 1) ∧
    -- MEM_CE
    (∀ code inst loc, memInst code inst = true → code = 0 ∨ 10 < code → exec (.memCe t code inst loc) s = .next y ∧ exec (.memUe t code inst loc) s = .next y) ∧
    (∀ code inst loc, memInst code inst = true → 1 ≤ code → code ≤ 9 → exec (.memCe t code inst loc) s = .next (raise Ev.FLT_MEM_CE inst (code * 2 ^ 24 + loc % 2 ^ 24) y)) ∧
    (quiet → ∀ inst loc, inst < 64 → exec (.memCe t 10 inst loc) s = .next (raise0 Ev.ENG_CS_CORRECTED (raise Ev.FLT_MEM_CE inst (10 * 2 ^ 24 + loc % 2 ^ 24) y))) ∧
    -- MEM_UE
    (quiet → ∀ b ix, b < 128 → ∃ z, exec (.memUe t 1 b ix) s = .next z ∧ reg z .BANK_UE_CNT b 0 = reg s .BANK_UE_CNT b 0 + 1) ∧
    (quiet → ∀ c loc, c < 8 → ∃ z, exec (.memUe t 2 c loc) s = .next z ∧ c ∈ z.flt.missNext) ∧
    (quiet → ∀ k loc, k < 64 → flag s F.PIPE_STAT_QUARANTINED (k % 32) (k / 32) = false → s.flt.quarantining.contains k = false →
      ∃ z, exec (.memUe t 3 k loc) s = .next z ∧ z.flt.quarantining = s.flt.quarantining ++ [k]) ∧
    (quiet → ∀ p loc e, p < 32 → (fifo s p).find? (fun x => !x.marker) = some e → ∃ z, exec (.memUe t 4 p loc) s = .next z ∧
      fifo z p = (fifo s p).filter (fun x => x.id ≠ e.id) ∧
      (let n := if e.admClass = 0 then RegName.FIFO_DROP_LOSSY else if e.admClass = 1 then .FIFO_DROP_LOSSLESS else .FIFO_DROP_CONTROL
       reg z n p 0 = reg s n p 0 + 1)) ∧
    (quiet → ∀ c loc e, c < 8 → loc < 2 ^ 23 → ((tgetD s.tele.flows c []).filter (fun e => e.set == loc / 8))[loc % 8]? = some e →
      ∃ z, exec (.memUe t 5 c loc) s = .next z ∧ tgetD z.tele.flows c [] = (tgetD s.tele.flows c []).filter (· ≠ e)) ∧
    (quiet → ∀ code inst loc, 6 ≤ code → code ≤ 8 → ∃ z, exec (.memUe t code inst loc) s = .next z ∧ isSafe z = true) ∧
    (quiet → ∀ k loc, k < 64 → s.tbl.tcam = [] → exec (.memUe t 9 k loc) s = .next (raiseAs 1 Ev.FLT_MEM_UE 2 k (9 * 2 ^ 24 + loc % 2 ^ 24) false y)) ∧
    (quiet → ∀ e loc, e < 64 → engState s e ≠ 5 → ∃ z, exec (.memUe t 10 e loc) s = .next z ∧ getF z F.ENG_STAT_STATE e 0 = 5 ∧ getF z F.ENG_FAIL_CAUSE e 0 = 2) ∧
    -- PIPE_QUARANTINE
    (∀ dir p, dir < 2 → p < 32 → s.flt.quarantining.contains (32 * dir + p) = false → exec (.pipeQuarantine t dir p) s = .next y) ∧
    (∀ dir p, dir < 2 → p < 32 → s.flt.quarantining.contains (32 * dir + p) = true → ∃ z, exec (.pipeQuarantine t dir p) s = .next z ∧
      flag z F.PIPE_STAT_QUARANTINED p dir = true ∧ mapBit z (if dir = 0 then .PIPE_QUAR_IN else .PIPE_QUAR_EG) p = true ∧ (dir = 0 → fifo z p = []) ∧
      (quiet → (∀ k, k < 32 → flag s F.PIPE_STAT_QUARANTINED k dir = false) → getF s F.PIPE_STAT_SERVED_BY p dir = p →
        getF z F.PIPE_STAT_SERVED_BY p dir = Nat.xor p 1 ∧ 32 * dir + p ∈ z.flt.copying)) ∧
    -- BANK_DRAIN_DONE
    (∀ b, b < 128 → s.pal.bankDrain.contains b = false ∨ bankUsed s b ≠ [] ∨ getF s F.PAL_STAT0_FREE_CELLS 0 0 < 10240 → exec (.bankDrainDone t b) s = .next y) ∧
    (∀ b, b < 128 → s.pal.bankDrain.contains b = true → bankUsed s b = [] → 10240 ≤ getF s F.PAL_STAT0_FREE_CELLS 0 0 → ∃ z, exec (.bankDrainDone t b) s = .next z ∧
      z.pal.bankDrain = s.pal.bankDrain.filter (· ≠ b) ∧ z.pal.bankOut = b :: s.pal.bankOut ∧
      getF z F.PAL_STAT0_BANKS_IN_SERVICE 0 0 = getF s F.PAL_STAT0_BANKS_IN_SERVICE 0 0 - 1 ∧
      getF z F.PAL_STAT0_FREE_CELLS 0 0 = getF s F.PAL_STAT0_FREE_CELLS 0 0 - 10240) ∧
    -- MACRO_PLL_LOSS
    (∀ m, m < 96 → macFailed s m = false → (macRt s m).powered = false → exec (.macroPllLoss t m) s = .next y) ∧
    (∀ m, m < 96 → macFailed s m = false → (macRt s m).powered = true → ∃ z, exec (.macroPllLoss t m) s = .next (raise Ev.FLT_MACRO_FAIL m 0 z) ∧ macFailed z m = true) ∧
    (∀ m, m < 96 → macFailed s m = true → returning s 2 m = none → exec (.macroPllLoss t m) s = .next y) ∧
    -- TILE_LINK_RETRY, TILE_LINK_DOWN
    (∀ k lost, k < 8 → bit (getF s F.TILE_LINK_STAT_DOWN 0 0) k = true → (∀ ok, exec (.tileLinkRetry t k ok lost) s = .next y) ∧ exec (.tileLinkDown t k) s = .next y) ∧
    (∀ k lost, k < 8 → bit (getF s F.TILE_LINK_STAT_DOWN 0 0) k = false →
      exec (.tileLinkRetry t k true lost) s = .next (raise Ev.FLT_TILE_LINK_CE k 0 y) ∧
      (∃ z, exec (.tileLinkRetry t k false lost) s = .next z ∧ reg z .TILE_LINK_DROP 0 0 = reg s .TILE_LINK_DROP 0 0 + BitVec.ofNat 32 lost ∧
        Only [⟨.TILE_LINK_DROP, 0, 0⟩] y z) ∧
      (∃ z, exec (.tileLinkDown t k) s = .next z ∧ bit (getF z F.TILE_LINK_STAT_DOWN 0 0) k = true ∧
        (quiet → s.flt.returns = [] → ∀ j, j < 12 → macFailed z (12 * k + j) = true))) ∧
    -- RETURN_TEST_DONE
    (∀ kind ix passed, kind < 3 → ix < (if kind = 0 then 64 else if kind = 1 then 128 else 96) →
      (returning s kind ix = none → exec (.returnTestDone t kind ix passed) s = .next y) ∧
      (∀ r, returning s kind ix = some r → r.tested = true ∨ (kind ≠ 1 ∧ y.clk.mono < r.since + 500000) → exec (.returnTestDone t kind ix passed) s = .next y) ∧
      (∀ r, returning s kind ix = some r → r.tested = false → kind = 1 ∨ r.since + 500000 ≤ y.clk.mono → quiet →
        (passed = false → ∃ z, exec (.returnTestDone t kind ix passed) s = .next (finishOpen r.cmd (returnOp kind) { detail := 1 } z) ∧ returning z kind ix = none) ∧
        (passed = true → kind = 0 → ∃ z, exec (.returnTestDone t kind ix passed) s = .next z ∧ returning z 0 ix = some { r with tested := true } ∧
          { z with flt := s.flt } = y) ∧
        (passed = true → kind = 1 → ∃ z, exec (.returnTestDone t kind ix passed) s = .next (finishOpen r.cmd 0x0702 {} z) ∧ returning z 1 ix = none ∧
          mapBit z .BANK_RETIRED ix = false ∧ ix ∉ z.pal.bankOut) ∧
        (passed = true → kind = 2 → ∃ z, exec (.returnTestDone t kind ix passed) s = .next (finishOpen r.cmd 0x0705 {} z) ∧ returning z 2 ix = none ∧
          macFailed z ix = false ∧ bit (getF z F.TILE_LINK_STAT_DOWN 0 0) (ix / 12) = false)))

/-- Power, temperature and ageing (R350, R352, R353, R356, R357, R359 to R365, R369).  A sample of the sensors shows every reading, the hottest valid one, the thermal level and T_OVER, and a sensor at 115 °C in two samples trips the device; a check shows which sensors are valid, and a region with none holds level 3.  A stretched cycle is counted, a burst tightens.  A pass puts the settings into force, shows voltage, estimate and mean, tightens the ladder when the mean stands above the cap 16 passes after the last tightening, and relaxes it after 1 ms at 40 W below.  A confirmed voltage lets the clock rise, 64 µs without a pass limit it to 1.8 GHz.  The monitors' consumption and the worst of them are shown.  The model's choices here: operands of the measurement, logs 28, 29, 30, 54, 69.  Completes: `thermSample`, `sensorCheck`, `droopDetect`, `powerLoopPass`, `voltageConfirmed`, `loopStall`, `ageingReadout`. -/
def Obligations.PowerAndTemperature : Prop :=
  -- THERM_SAMPLE, SENSOR_CHECK
  (∀ (t : Nat) (temps : List Int) (s : State), Powered s → s.flt.tripped = true → exec (.thermSample t temps) s = .next (tick t s) ∧ exec (.sensorCheck t temps) s = .next (tick t s)) ∧
  (∀ (t : Nat) (temps : List Int) (i : Nat) (T : Int) (s : State), Powered s → s.flt.tripped = false → s.pwr.checked = true → hottest temps s = some (i, T) →
    ∃ z, exec (.thermSample t temps) s = .next z ∧ (∀ k, k < 64 → getF z F.TEMP_TEMP k 0 = unsignedOf 16 ((temps[k]?).getD 0)) ∧
      getF z F.PWR_STAT2_HOT_T 0 0 = unsignedOf 16 T ∧ getF z F.PWR_STAT2_HOT_SENSOR 0 0 = i % 64 ∧
      getF z F.PWR_STAT1_THR_THERM 0 0 = thermLevel s T ∧
      (((16 * getF s F.PWR_THRESH_T3 0 0 : Nat) : Int) ≤ T → thermLevel s T = 3) ∧
      (T < 1664 → flag z F.PWR_STAT2_T_OVER 0 0 = false) ∧ (1696 ≤ T → flag z F.PWR_STAT2_T_OVER 0 0 = true) ∧
      (1664 ≤ T → T < 1696 → flag z F.PWR_STAT2_T_OVER 0 0 = flag s F.PWR_STAT2_T_OVER 0 0) ∧
      ((∃ k, k < 64 ∧ flag s F.TEMP_VALID k 0 = true ∧ 1840 ≤ (temps[k]?).getD 0 ∧ k ∈ s.pwr.tooHot) → z.flt.tripped = true ∧ flag z F.PWR_STAT2_TRIP_SEEN 0 0 = true) ∧
      ((∀ k, k < 64 → (temps[k]?).getD 0 < 1840) → z.flt.tripped = false ∧ z.pwr.tooHot = [])) ∧
  (∀ (t : Nat) (temps : List Int) (s : State), Powered s → s.flt.tripped = false → ∃ z, exec (.sensorCheck t temps) s = .next z ∧
    (∀ k, k < 64 → flag z F.TEMP_VALID k 0 = sensorOk temps k) ∧ (∀ k, k < 64 → getF z F.TEMP_TEMP k 0 = getF s F.TEMP_TEMP k 0) ∧ z.pwr.checked = true ∧
    ((∃ k, k < 64 ∧ ∀ j ∈ regionOf k, sensorOk temps j = false) → z.pwr.heldRegion = true ∧ getF z F.PWR_STAT1_THR_THERM 0 0 = 3)) ∧
  -- DROOP_DETECT
  (∀ (t d : Nat) (s : State), Operating s → (2 ≤ d ∧ d ≤ 10) ∨ d = 20 →
    let n := (s.pwr.droops.filter (fun a => decide ((tick t s).clk.mono < a + 1000000))).length + 1
    (n ≤ 1000 → ∃ z, exec (.droopDetect t d) s = .next z ∧ reg z .DROOP_CNT 0 0 = reg s .DROOP_CNT 0 0 + 1 ∧ z.pwr.droops.length = n ∧
      z.pwr.droopTight = s.pwr.droopTight ∧ Only [⟨.DROOP_CNT, 0, 0⟩] (tick t s) { z with pwr := s.pwr }) ∧
    (1000 < n → ∃ z, exec (.droopDetect t d) s = .next (raise0 Ev.PWR_DROOP_BURST z) ∧ reg z .DROOP_CNT 0 0 = reg s .DROOP_CNT 0 0 + 1 ∧
      z.pwr.droopTight = true ∧ Only [⟨.DROOP_CNT, 0, 0⟩] (tick t s) { z with pwr := s.pwr })) ∧
  -- POWER_LOOP_PASS
  (∀ (t vr est static proj : Nat) (s : State), Operating s → bootStage s ≠ 6 → exec (.powerLoopPass t vr est static proj) s = .next (tick t s)) ∧
  (∀ (t vr est static proj : Nat) (s : State), Operating s → bootStage s = 6 →
    let l := (min 2047 est :: s.pwr.last).take 16
    let avg := l.sum / max 1 l.length
    let step := getF s F.PWR_STAT0_CAP_STEP 0 0
    ∃ z, exec (.powerLoopPass t vr est static proj) s = .next z ∧
      getF z F.PWR_CTL_CAP_W 0 0 = (s.pwr.cap.getD (getF s F.PWR_CTL_CAP_W 0 0)) % 2 ^ F.PWR_CTL_CAP_W.w ∧
      getF z F.PWR_CTL_MODE 0 0 = (s.pwr.mode.getD (getF s F.PWR_CTL_MODE 0 0)) % 2 ∧
      z.pwr.cap = none ∧ z.pwr.mode = none ∧ z.pwr.thresh = none ∧ z.pwr.stalled = false ∧ z.pwr.passAt = (tick t s).clk.mono ∧ z.pwr.last = l ∧
      getF z F.PWR_STAT1_VCORE_MV 0 0 = vr % 2 ^ F.PWR_STAT1_VCORE_MV.w ∧ getF z F.PWR_STAT0_PWR_EST_W 0 0 = min 2047 est ∧
      getF z F.PWR_STAT0_PWR_AVG_W 0 0 = avg % 2 ^ F.PWR_STAT0_PWR_AVG_W.w ∧
      -- in MODE 1 (no boost) with no setting that waits
      (s.pwr.cap = none → s.pwr.mode = none → s.pwr.stalled = false → flag s F.PWR_CTL_MODE 0 0 = true → flag s F.PWR_STAT0_BOOST_OK 0 0 = false → avg ≤ 2047 →
        (getF s F.PWR_CTL_CAP_W 0 0 < avg → 15 ≤ s.pwr.sinceTight → step < 22 → step < getF z F.PWR_STAT0_CAP_STEP 0 0 ∧ getF z F.PWR_STAT0_CAP_STEP 0 0 ≤ 22 ∧
          reg z .STEP_CNT 0 0 = reg s .STEP_CNT 0 0 + 1 ∧ z.pwr.sinceTight = 0) ∧
        (∀ a, avg + 40 ≤ getF s F.PWR_CTL_CAP_W 0 0 → s.pwr.lowSince = some a → a + 1000000 ≤ (tick t s).clk.mono → s.pwr.changedAt + 1000000 ≤ (tick t s).clk.mono →
          0 < step → flag s F.PWR_STAT2_T_OVER 0 0 = false → s.pwr.droopTight = false → signed 16 (getF s F.PWR_STAT2_HOT_T 0 0) < 1696 →
          proj + 40 ≤ getF s F.PWR_CTL_CAP_W 0 0 → getF z F.PWR_STAT0_CAP_STEP 0 0 < step ∧ reg z .STEP_CNT 0 0 = reg s .STEP_CNT 0 0))) ∧
  -- VOLTAGE_CONFIRMED, LOOP_STALL
  (∀ (t : Nat) (s : State), Operating s →
    (s.pwr.wantMhz = none → exec (.voltageConfirmed t) s = .next (tick t s)) ∧
    (∀ m, s.pwr.wantMhz = some m → ∃ z, exec (.voltageConfirmed t) s = .next z ∧ getF z F.PWR_STAT1_CORE_MHZ 0 0 = m % 2 ^ F.PWR_STAT1_CORE_MHZ.w ∧
      flag z F.PWR_STAT0_BOOST 0 0 = decide (1800 < m) ∧ z.pwr = { s.pwr with wantMhz := none } ∧
      Only [⟨.PWR_STAT0, 0, 0⟩, ⟨.PWR_STAT1, 0, 0⟩] (tick t s) { z with pwr := s.pwr }) ∧
    (s.pwr.stalled = true ∨ (tick t s).clk.mono < s.pwr.passAt + 64000 → exec (.loopStall t) s = .next (tick t s)) ∧
    (s.pwr.stalled = false → s.pwr.passAt + 64000 ≤ (tick t s).clk.mono → ∃ z, exec (.loopStall t) s = .next (raise0 Ev.PWR_LOOP_STALL z) ∧
      getF z F.PWR_STAT1_CORE_MHZ 0 0 = min 1800 (getF s F.PWR_STAT1_CORE_MHZ 0 0) ∧ z.pwr = { s.pwr with stalled := true, wantMhz := none } ∧
      Only [⟨.PWR_STAT0, 0, 0⟩, ⟨.PWR_STAT1, 0, 0⟩] (tick t s) { z with pwr := s.pwr, out := s.out })) ∧
  -- AGEING_READOUT
  (∀ (t : Nat) (consumed : List Nat) (s : State), Operating s →
    let c (m : Nat) : Nat := min 1000 ((consumed[m]?).getD 0)
    ∃ z, (exec (.ageingReadout t consumed) s = .next z ∨ exec (.ageingReadout t consumed) s = .next (raise0 Ev.PWR_AGE_WARN z)) ∧
      (s.pwr.ageWarned = false → (∃ m, m < 96 ∧ 800 ≤ c m) → exec (.ageingReadout t consumed) s = .next (raise0 Ev.PWR_AGE_WARN z) ∧ z.pwr.ageWarned = true) ∧
      ((∀ m, m < 96 → c m < 800) → exec (.ageingReadout t consumed) s = .next z) ∧
      (∀ m, m < 96 → getF z F.AGE_CONSUMED m 0 = c m ∧ c m ≤ getF z F.AGE_WORST_CONSUMED 0 0) ∧
      getF z F.AGE_WORST_CONSUMED 0 0 = c (getF z F.AGE_WORST_MONITOR 0 0) ∧ RegsKept [.AGE, .AGE_WORST] s z ∧
      withRegs { z with pwr := s.pwr, free := s.free } (tick t s) = tick t s)

/-- Sleep and wake (R366, Table 16.4).  A pipeline without work for 1 µs is gated and runs again when it wakes, its cluster domain with it; a cluster domain whose pipelines all sleep and that has seen no access for 100 µs sleeps.  The model's choices here: log 35.  Completes: `unitSleep`, `unitWake`. -/
def Obligations.SleepAndWake : Prop :=
  (∀ (t kind ix : Nat) (s : State), Operating s → kind < 2 → ix < 32 →
    let p := 32 * kind + ix
    (pipeEmpty s p = false ∨ (tget s.pal.waking p).isSome = true ∨ (tick t s).clk.mono < tgetD s.pal.lastUse p 0 + 1000 → exec (.unitSleep t kind ix) s = .next (tick t s)) ∧
    (pipeEmpty s p = true → tget s.pal.waking p = none → tgetD s.pal.lastUse p 0 + 1000 ≤ (tick t s).clk.mono → ∃ z, exec (.unitSleep t kind ix) s = .next z ∧
      flag z F.PIPE_STAT_CLOCK_GATED ix kind = true ∧ tget z.pal.waking p = some (tick t s).clk.mono ∧ Only [⟨.PIPE_STAT, ix, kind⟩] (tick t s) { z with pal := s.pal }) ∧
    (tget s.pal.waking p = none → exec (.unitWake t kind ix) s = .next (tick t s)) ∧
    ((tget s.pal.waking p).isSome = true → ∃ z, exec (.unitWake t kind ix) s = .next z ∧ flag z F.PIPE_STAT_CLOCK_GATED ix kind = false ∧
      tget z.pal.waking p = none ∧ ix / 4 ∉ z.host.asleep ∧ Only [⟨.PIPE_STAT, ix, kind⟩] (tick t s) { z with pal := s.pal, host := s.host })) ∧
  (∀ (t n : Nat) (s : State), Operating s → n < 8 →
    let all := ∀ k, k < 4 → (tget s.pal.waking (4 * n + k)).isSome = true ∧ (tget s.pal.waking (32 + 4 * n + k)).isSome = true
    (¬ all ∨ (tick t s).clk.mono < tgetD s.host.awake n 0 + 100000 ∨ n ∈ s.host.asleep → exec (.unitSleep t 2 n) s = .next (tick t s)) ∧
    (all → tgetD s.host.awake n 0 + 100000 ≤ (tick t s).clk.mono → n ∉ s.host.asleep → exec (.unitSleep t 2 n) s = .next { tick t s with host := { s.host with asleep := n :: s.host.asleep } }) ∧
    exec (.unitWake t 2 n) s = .next { tick t s with host := { s.host with asleep := s.host.asleep.filter (· ≠ n) } }) ∧
  (∀ (t kind ix : Nat) (s : State), Operating s → 3 ≤ kind → ix < 96 → exec (.unitSleep t kind ix) s = .next (tick t s) ∧ exec (.unitWake t kind ix) s = .next (tick t s))

/-- Export, Swatch and rate windows (R209, R212, R213, R220 to R224, R234, R239, R244, R245, R250, R256).  Where a target's period ends, a batch not yet on the wire is late, a target to be disabled ends, and otherwise the filling batch begins its transmission; a new period holds from the end of a period on.  A batch whose frames have left completes and is counted; an export frame leaves when tokens, pause, link and MAC allow.  A scan flushes idle and long-lived flows and ends a flush that runs.  A minute closes at its boundary.  A capture takes place at its instant, or does not start where its buffer is held or a snapshot is being written, a periodic one then being counted as skipped; it completes within 2 ms and ends with its snapshot written and its buffer held.  A rate window enters the peaks and the next begins.  Waiting records move into a host ring as far as it has room.  Neither DMA moves while the host has stopped it.  The model's choices here: logs 9, 21, 52, 53, 83.  Completes: `exportPeriod`, `batchComplete`, `exportFrameTx`, `flowScan`, `minuteClose`, `swatchCapture`, `swatchDone`, `rateWindowEnd`, `sampleDma`. -/
def Obligations.ExportAndSnapshots : Prop :=
  ∀ (t : Nat) (s : State), Operating s →
    let y := tick t s
    -- EXPORT_PERIOD
    (let grid := decide (y.clk.tod % (s.tele.periodUs * 1000) = 0)
     let ends := grid || (List.range 16).any fun n => (target s n).dueMono.isSome && periodEnds y (target s n) false
     let new := getF s F.TEL_CFG_EXP_PERIOD_US 0 0
     (ends = false → s.tele.offers = [] → exec (.exportPeriod t) s = .next y) ∧
     (∃ z, exec (.exportPeriod t) s = .next z ∧ z.tele.periodUs = (if ends then new else s.tele.periodUs) ∧
       (∀ n, n < 16 → periodEnds y (target s n) grid = true →
         ((target s n).sending = true → reg z .BATCH_LATE_CNT n 0 = reg s .BATCH_LATE_CNT n 0 + 1 ∧
           reg z .REC_LATE n 0 = reg s .REC_LATE n 0 + BitVec.ofNat 32 (target s n).sendRecs.length) ∧
         ((target s n).ending = true → (target z n).cfg = none ∧ (target z n).ending = false) ∧
         (∀ c, (target s n).ending = false → (target s n).cfg = some c →
           (target z n).dueMono = (if ends = true ∧ new ≠ s.tele.periodUs then some (y.clk.mono + new * 1000) else none) ∧ (target z n).fillStart = y.clk.tod ∧
           ((target s n).filling = [] → (target z n).sending = false) ∧
           ((target s n).filling ≠ [] → (target z n).sending = true ∧ (target z n).sendRecs = (target s n).filling ∧ (target z n).sendStart = (target s n).fillStart))))) ∧
    -- BATCH_COMPLETE, EXPORT_FRAME_TX
    (∀ n, n < 16 → (target s n).sending = false ∨ (target s n).frames ≠ [] → exec (.batchComplete t n) s = .next y) ∧
    (∀ n, n < 16 → (target s n).sending = true → (target s n).frames = [] → ∃ z, exec (.batchComplete t n) s = .next z ∧
      target z n = { target s n with sendRecs := [], sending := false, batchSeq := (target s n).batchSeq + 1, offset := (target s n).nextOff } ∧
      reg z .BATCHES n 0 = reg s .BATCHES n 0 + 1 ∧ reg z .REC_SENT n 0 = reg s .REC_SENT n 0 + BitVec.ofNat 32 (target s n).sendRecs.length ∧
      (∀ c, (target s n).cfg = some c → c.kind = 1 → wide z .GPOS n 2 = (c.gbase + (target s n).nextOff) % 2 ^ 64 ∧ reg z .WRAP_COUNT n 0 = BitVec.ofNat 32 (target s n).nextWraps) ∧
      Only [⟨.BATCHES, n, 0⟩, ⟨.REC_SENT, n, 0⟩, ⟨.GPOS, n, 0⟩, ⟨.GPOS, n, 1⟩, ⟨.WRAP_COUNT, n, 0⟩] y { z with tele := s.tele }) ∧
    (∀ n, n < 16 → (target s n).cfg = none ∨ (target s n).frames = [] ∨ (target s n).sending = false → exec (.exportFrameTx t n) s = .next y) ∧
    (∀ n c f rest, n < 16 → (target s n).cfg = some c → (target s n).frames = f :: rest →
      (portIsUp s c.port = false ∨ classPaused s c.port c.expClass = true ∨ macIdle s c.port = false ∨ y.clk.mono * 1000 < (target s n).tokensAt → exec (.exportFrameTx t n) s = .next y) ∧
      ((target s n).sending = true → portIsUp s c.port = true → classPaused s c.port c.expClass = false → macIdle s c.port = true → (target s n).tokensAt ≤ y.clk.mono * 1000 →
        ∃ z, exec (.exportFrameTx t n) s = .next z ∧ (target z n).frames = rest ∧ z.out = .exportFrame c.port (exportFrame y n c f) :: s.out ∧
          ctr z 1 c.port 10 = (ctr s 1 c.port 10 + 1) % 2 ^ 64 ∧ y.clk.mono * 1000 ≤ (target z n).tokensAt ∧ (target z n).tmplAt = (if f.tmpl then some y.clk.mono else (target s n).tmplAt) ∧
          reg z .NEXT_SEQ n 0 = (if c.kind = 1 then BitVec.ofNat 32 (((reg s .NEXT_SEQ n 0).toNat + 1) % 2 ^ 24) else reg s .NEXT_SEQ n 0 + BitVec.ofNat 32 f.recs) ∧
          Only [⟨.NEXT_SEQ, n, 0⟩] y { z with tele := s.tele, out := s.out })) ∧
    -- FLOW_SCAN
    (y.clk.mono < s.tele.scanAt + 100000000 → exec (.flowScan t) s = .next y) ∧
    (s.tele.scanAt + 100000000 ≤ y.clk.mono → ∃ z, exec (.flowScan t) s = .next z ∧ z.tele.scanAt = y.clk.mono ∧ z.tele.flushes = [] ∧
      ∀ n, n < 8 → s.tele.flushes = [] → let idle (e : FlowEnt) : Bool := decide (e.lastMono + getF s F.FLOW_CFG_IDLE_S 0 0 * 1000000000 < y.clk.mono)
        let old (e : FlowEnt) : Bool := decide (e.firstMono.getD y.clk.mono + getF s F.FLOW_CFG_ACTIVE_S 0 0 * 1000000000 < y.clk.mono)
        (∀ e ∈ tgetD z.tele.flows n [], idle e = false) ∧
        reg z .FLOW_EXPORTED n 0 = reg s .FLOW_EXPORTED n 0 + BitVec.ofNat 32 ((tgetD s.tele.flows n []).filter (fun e => idle e || old e)).length ∧
        (∀ e ∈ tgetD s.tele.flows n [], idle e = false → old e = false → e ∈ tgetD z.tele.flows n [])) ∧
    -- MINUTE_CLOSE
    (minuteAt y y.clk.tod ≠ y.clk.tod ∨ y.clk.tod ≤ wide s .METER_LAST_END 0 2 → exec (.minuteClose t) s = .next y) ∧
    (minuteAt y y.clk.tod = y.clk.tod → wide s .METER_LAST_END 0 2 < y.clk.tod → ∃ z, exec (.minuteClose t) s = .next z ∧
      wide z .METER_LAST_END 0 2 = y.clk.tod % 2 ^ 64) ∧
    -- SWATCH_CAPTURE
    (let period := getF s F.SWATCH_CFG_PERIOD_MS 0 0 * 1000000
     (period = 0 → (∀ c ∈ s.tele.asked, y.clk.tod < c.time) → exec (.swatchCapture t) s = .next y) ∧
     (∀ c, period = 0 → s.tele.asked = [c] → c.time ≤ y.clk.tod →
       (swatchBlocked s c.seq = true → exec (.swatchCapture t) s = .next { y with tele := { s.tele with asked := [] } }) ∧
       (swatchBlocked s c.seq = false → ∃ z k, exec (.swatchCapture t) s = .next z ∧ z.tele.writing = some k ∧ k.seq = c.seq ∧ k.time = c.time ∧
         y.clk.mono ≤ k.doneAt ∧ k.doneAt ≤ y.clk.mono + 2000000 ∧ z.tele.asked = [] ∧ flag z F.SWATCH_STAT_CAPTURING 0 0 = true ∧
         (∀ u, ctr z 1 u 15 = 0 ∧ ctr z 1 u 16 = 0) ∧ (∀ f u k, f ≠ 1 ∨ (k ≠ 15 ∧ k ≠ 16) → ctr z f u k = ctr s f u k) ∧
         Only [⟨.SWATCH_STAT, 0, 0⟩] y { z with tele := s.tele, free := s.free })) ∧
     (period ≠ 0 → s.tele.asked = [] → y.clk.tod % period = 0 → s.tele.swatchNext = y.clk.tod →
       (swatchBlocked s (s.tele.swatchK + 1) = true → ∃ z, exec (.swatchCapture t) s = .next (raise0 Ev.CNT_SWATCH_SKIP z) ∧
         reg z .SWATCH_SKIP_CNT 0 0 = reg s .SWATCH_SKIP_CNT 0 0 + 1 ∧ z.tele = { s.tele with swatchK := s.tele.swatchK + 1, swatchNext := y.clk.tod + period } ∧
         Only [⟨.SWATCH_SKIP_CNT, 0, 0⟩] y { z with tele := s.tele }) ∧
       (swatchBlocked s (s.tele.swatchK + 1) = false → ∃ z k, exec (.swatchCapture t) s = .next z ∧ z.tele.writing = some k ∧ k.seq = s.tele.swatchK + 1 ∧
         k.time = y.clk.tod ∧ z.tele.swatchK = s.tele.swatchK + 1 ∧ z.tele.swatchNext = y.clk.tod + period))) ∧
    -- SWATCH_DONE
    (getF s F.SWATCH_CFG_PERIOD_MS 0 0 = 0 → s.tele.writing = none ∨ dmaOn s = false → exec (.swatchDone t) s = .next y) ∧
    (∀ c, getF s F.SWATCH_CFG_PERIOD_MS 0 0 = 0 → s.tele.writing = some c →
      (y.clk.mono < c.doneAt → exec (.swatchDone t) s = .next y) ∧
      (c.doneAt ≤ y.clk.mono → dmaOn s = true → ∃ z, exec (.swatchDone t) s = .next (raise0 Ev.CNT_SWATCH_DONE z) ∧ z.tele.writing = none ∧
        (reg z .SWATCH_SEQ 0 0).toNat = c.seq % 2 ^ 32 ∧ flag z F.SWATCH_STAT_CAPTURING 0 0 = false ∧
        (c.seq % 2 = 0 → flag z F.SWATCH_STAT_HELD_A 0 0 = true ∧ z.tele.heldA = c.seq) ∧ (c.seq % 2 = 1 → flag z F.SWATCH_STAT_HELD_B 0 0 = true ∧ z.tele.heldB = c.seq) ∧
        z.out = .snapshot (wide s (if c.seq % 2 = 0 then .SWATCH_BUF_A else .SWATCH_BUF_B) 0 2) c.mask (swatchHeader c y.clk.tod) c.regs c.vals :: s.out ∧
        Only [⟨.SWATCH_SEQ, 0, 0⟩, ⟨.SWATCH_STAT, 0, 0⟩] y { z with tele := s.tele, out := s.out })) ∧
    -- RATE_WINDOW_END
    (∀ src, src < 773 → y.clk.tod % (getF s F.PORT_RATE_CFG_WINDOW_US src 0 * 1000) ≠ 0 → exec (.rateWindowEnd t src) s = .next y) ∧
    (∀ src, src < 773 → y.clk.tod % (getF s F.PORT_RATE_CFG_WINDOW_US src 0 * 1000) = 0 → ∃ z, exec (.rateWindowEnd t src) s = .next z ∧
      tget z.tele.winStart src = some (y.clk.tod, ctr s 1 src 1, ctr s 1 src 7 + ctr s 1 src 11) ∧
      (∀ a rx tx, tget s.tele.winStart src = some (a, rx, tx) → ctr z 1 src 15 = max (ctr s 1 src 15) (ctr s 1 src 1 - rx) ∧
        ctr z 1 src 16 = max (ctr s 1 src 16) (ctr s 1 src 7 + ctr s 1 src 11 - tx)) ∧
      { z with tele := s.tele } = y) ∧
    -- SAMPLE_DMA
    (∀ r, r < 8 → dmaOn s = false ∨ flag s F.SMP_RING_CFG_EN r 0 = false ∨ tgetD s.tele.devRing r [] = [] ∨ sampleRoom s r = 0 → exec (.sampleDma t r) s = .next y) ∧
    (∀ r, r < 8 → dmaOn s = true → flag s F.SMP_RING_CFG_EN r 0 = true → tgetD s.tele.devRing r [] ≠ [] → sampleRoom s r ≠ 0 →
      let l := tgetD s.tele.devRing r []
      let k := min l.length (sampleRoom s r)
      ∃ z, exec (.sampleDma t r) s = .next z ∧ tgetD z.tele.devRing r [] = l.drop k ∧ reg z .PROD r 0 = reg s .PROD r 0 + BitVec.ofNat 32 k ∧
        getF z F.DEV_LEVEL_DEV_LEVEL r 0 = (l.length - k) % 2 ^ 14 ∧ RegsKept [.PROD, .DEV_LEVEL, .MSIX_PBA] s z ∧
        (∀ i r', i < k → l[i]? = some r' → .dma (wide s .SMP_RING_BASE r 2 + ((reg s .PROD r 0).toNat + i) % 2 ^ getF s F.SMP_RING_CFG_SIZE_LOG2 r 0 * 256) r'.bytes ∈ z.out))

/-- Stretcher lanes, blocks and ports (R311, R314 to R323, R327, R328).  Codewords are counted on an aligned lane, and four bad ones of sixteen cost its alignment; a lane that is adapted hunts, is aligned and deskewed where its skew and number allow, and starts over without signal; a reference beyond 200 ppm costs the alignment, its loss takes every port down.  Blocks that cannot stand are counted, a frame begins with its length and class on a port that is UP, a bad frame is counted; FLOW sets and clears XOFF, which lapses after 4 µs without one, and frames that waited for it then leave; FLOW is sent on a change and every 1 µs while XOFF holds.  A resize that lasts 1 ms, or a last gasp, takes the port down; wider lanes good for RESTORE_S begin a resize where restoring is enabled.  The model's choices here: logs 32, 68.  Completes: `codewordRx`, `stlBlockRx`, `stlFrameRx`, `flowRx`, `flowTx`, `xoffLapse`, `stlRxSignal`, `laneAdapted`, `adaptRestart`, `laneAligned`, `refMismatch`, `resizeTimeout`, `laneRestore`, `lastGaspRx`, `refLost`, `refLock`. -/
def Obligations.StretcherLanesAndBlocks : Prop :=
  ∀ (t n l : Nat) (s : State), Operating s → n < 4 → l < 8 →
    let y := tick t s
    let up := stlUp s n
    let aligned := flag s F.STL_LANE_STAT_ALIGNED n l
    -- CODEWORD_RX
    (∀ bad cor stuff, aligned = false → ∃ z, exec (.codewordRx t n l bad cor stuff) s = .next z ∧
      reg z .STUFF_VIOL n 0 = reg s .STUFF_VIOL n 0 + BitVec.ofNat 32 stuff ∧ Only [⟨.STUFF_VIOL, n, 0⟩] y z) ∧
    (∀ bad cor stuff, aligned = true → ∃ z, exec (.codewordRx t n l bad cor stuff) s = .next z ∧
      let seen := (bad :: (stlLane s n l).cws).take 16
      reg z .STUFF_VIOL n 0 = reg s .STUFF_VIOL n 0 + BitVec.ofNat 32 stuff ∧
      reg z .CW_UNCORR n 0 = (if bad && !cor then reg s .CW_UNCORR n 0 + 1 else reg s .CW_UNCORR n 0) ∧
      reg z .CW_CORR n 0 = (if !bad && cor then reg s .CW_CORR n 0 + 1 else reg s .CW_CORR n 0) ∧
      (bad = true → cor = false → (stlPort s n).rx.isSome = true → (stlPort z n).rx = none) ∧
      (4 ≤ (seen.filter id).length → flag z F.STL_LANE_STAT_ALIGNED n l = false ∧ flag z F.STL_LANE_STAT_DESKEWED n l = false ∧
        reg z .LOCK_LOSS_CNT n 0 = reg s .LOCK_LOSS_CNT n 0 + 1) ∧
      ((seen.filter id).length < 4 → flag z F.STL_LANE_STAT_ALIGNED n l = true ∧ (stlLane z n l).cws = seen ∧ reg z .LOCK_LOSS_CNT n 0 = reg s .LOCK_LOSS_CNT n 0)) ∧
    -- STL_BLOCK_RX
    (∀ b, (stlPort s n).enabled = false → exec (.stlBlockRx t n b) s = .next y) ∧
    (∀ b, (stlPort s n).enabled = true → (beAt b 0 1 ≠ 1 ∧ beAt b 0 1 ≠ 2) ∨ (beAt b 0 1 = 2 ∧ (up = false ∨ (stlPort s n).rx = none)) →
      ∃ z, exec (.stlBlockRx t n b) s = .next z ∧ reg z .BAD_BLOCK n 0 = reg s .BAD_BLOCK n 0 + 1 ∧ (stlPort z n).rx = none ∧
        reg z .FRAME_ERR n 0 = (if (stlPort s n).rx.isSome then reg s .FRAME_ERR n 0 + 1 else reg s .FRAME_ERR n 0) ∧
        Only [⟨.BAD_BLOCK, n, 0⟩, ⟨.FRAME_ERR, n, 0⟩] y { z with stl := s.stl }) ∧
    (∀ body, (stlPort s n).enabled = true → up = true → (stlPort s n).rx = none → body.length = 31 → 64 ≤ leAt body 0 2 → leAt body 0 2 ≤ 16368 →
      ∃ z, exec (.stlBlockRx t n (0x01 :: 0x2D :: body)) s = .next z ∧ (stlPort z n).rx = some (leAt body 0 2, leAt body 2 1 % 8, body.drop 3) ∧ { z with stl := s.stl } = y) ∧
    -- STL_FRAME_RX
    (∀ cls frame good, cls < 8 → up = false → exec (.stlFrameRx t n cls frame good) s = .next y) ∧
    (∀ cls frame, cls < 8 → up = true → ∃ z, exec (.stlFrameRx t n cls frame false) s = .next z ∧ reg z .FRAME_ERR n 0 = reg s .FRAME_ERR n 0 + 1 ∧
      Only [⟨.FRAME_ERR, n, 0⟩] y z) ∧
    (∀ cls frame, cls < 8 → up = true → ∃ z, exec (.stlFrameRx t n cls frame true) s = .next z ∧ reg z .FRAME_ERR n 0 = reg s .FRAME_ERR n 0) ∧
    -- FLOW_RX, FLOW_TX, XOFF_LAPSE
    (∀ x, up = false → exec (.flowRx t n x) s = .next y) ∧
    (∀ x, up = true → bit x 0 = true → ∃ z, exec (.flowRx t n x) s = .next z ∧ flag z F.STL_PORT_STAT_XOFF_RX n 0 = true ∧ (stlPort z n).flowRxAt = some y.clk.mono ∧
      Only [⟨.STL_PORT_STAT, n, 0⟩] y { z with stl := s.stl }) ∧
    (∀ x, up = true → bit x 0 = false → ∃ z, exec (.flowRx t n x) s = .next z ∧ flag z F.STL_PORT_STAT_XOFF_RX n 0 = false ∧
      (n < 2 → (stlPort z n).flowRxAt = some y.clk.mono ∧ z.chain.held = s.chain.held.filter (fun h => h.1 ≠ n) ∧
        Only [⟨.STL_PORT_STAT, n, 0⟩] y { z with stl := s.stl, chain := s.chain, out := s.out } ∧ (∀ o ∈ s.out, o ∈ z.out) ∧
        (∀ h ∈ s.chain.held, h.1 = n → .stretcher n h.2.1 h.2.2 ∈ z.out))) ∧
    (up = false ∨ (stlXoff s n = flag s F.STL_PORT_STAT_XOFF_TX n 0 ∧ (stlXoff s n = false ∨ ∃ a, (stlPort s n).flowTxAt = some a ∧ y.clk.mono < a + 1000)) →
      exec (.flowTx t n) s = .next y) ∧
    (up = true → stlXoff s n ≠ flag s F.STL_PORT_STAT_XOFF_TX n 0 ∨ (stlXoff s n = true ∧ ∀ a, (stlPort s n).flowTxAt = some a → a + 1000 ≤ y.clk.mono) → ∃ z, exec (.flowTx t n) s = .next z ∧ (stlPort z n).flowTxAt = some y.clk.mono ∧ flag z F.STL_PORT_STAT_XOFF_TX n 0 = stlXoff s n ∧
      z.out = .stretcher n 0x4B [0x4B, if stlXoff s n then 1 else 0] :: s.out ∧ Only [⟨.STL_PORT_STAT, n, 0⟩] y { z with stl := s.stl, out := s.out }) ∧
    ((stlPort s n).flowRxAt = none ∨ flag s F.STL_PORT_STAT_XOFF_RX n 0 = false → exec (.xoffLapse t n) s = .next y) ∧
    (∀ a, (stlPort s n).flowRxAt = some a → flag s F.STL_PORT_STAT_XOFF_RX n 0 = true →
      (y.clk.mono < a + 4000 → exec (.xoffLapse t n) s = .next y) ∧
      (a + 4000 ≤ y.clk.mono → ∃ z, exec (.xoffLapse t n) s = .next z ∧ flag z F.STL_PORT_STAT_XOFF_RX n 0 = false ∧
        (n < 2 → (∀ h ∈ s.chain.held, h.1 ≠ n) → Only [⟨.STL_PORT_STAT, n, 0⟩] y z))) ∧
    -- STL_RX_SIGNAL, LANE_ADAPTED, ADAPT_RESTART, LANE_ALIGNED
    (∃ z, exec (.stlRxSignal t n l true) s = .next z ∧ flag z F.STL_LANE_STAT_RX_SIGNAL n l = true ∧ Only [⟨.STL_LANE_STAT, n, l⟩] y z) ∧
    (∃ z, exec (.stlRxSignal t n l false) s = .next z ∧ flag z F.STL_LANE_STAT_RX_SIGNAL n l = false ∧ flag z F.STL_LANE_STAT_CDR_LOCK n l = false ∧
      flag z F.STL_LANE_STAT_ADAPTED n l = false ∧ flag z F.STL_LANE_STAT_ALIGNED n l = false ∧ flag z F.STL_LANE_STAT_DESKEWED n l = false) ∧
    ((stlPort s n).enabled = false ∨ flag s F.STL_REF_REF_LOCK 0 0 = false ∨ flag s F.STL_LANE_STAT_RX_SIGNAL n l = false → exec (.laneAdapted t n l) s = .next y) ∧
    ((stlPort s n).enabled = true → flag s F.STL_REF_REF_LOCK 0 0 = true → flag s F.STL_LANE_STAT_RX_SIGNAL n l = true → ∃ z, exec (.laneAdapted t n l) s = .next z ∧
      flag z F.STL_LANE_STAT_CDR_LOCK n l = true ∧ flag z F.STL_LANE_STAT_ADAPTED n l = true ∧ flag z F.STL_LANE_STAT_ALIGNED n l = false ∧
      (stlLane z n l).adaptedAt = some y.clk.mono) ∧
    ((stlLane s n l).adaptedAt = none ∨ aligned = true → exec (.adaptRestart t n l) s = .next y) ∧
    (∀ a, (stlLane s n l).adaptedAt = some a → aligned = false → a + 1000000 ≤ y.clk.mono → ∃ z, exec (.adaptRestart t n l) s = .next z ∧
      flag z F.STL_LANE_STAT_ADAPTED n l = false ∧ (stlLane z n l).adaptedAt = none ∧ Only [⟨.STL_LANE_STAT, n, l⟩] y { z with stl := s.stl }) ∧
    (∀ logical inv skew, logical < 8 → flag s F.STL_LANE_STAT_ADAPTED n l = false → exec (.laneAligned t n l logical inv skew) s = .next y) ∧
    (∀ logical inv skew, logical < 8 → flag s F.STL_LANE_STAT_ADAPTED n l = true → aligned = false → ∃ z, exec (.laneAligned t n l logical inv skew) s = .next z ∧
      flag z F.STL_LANE_STAT_ALIGNED n l = true ∧ getF z F.STL_LANE_STAT_RX_LOGICAL n l = logical ∧ flag z F.STL_LANE_STAT_RX_INV_DET n l = inv ∧
      flag z F.STL_LANE_STAT_DESKEWED n l = ((skew && (physLane s n logical).isNone) || flag s F.STL_LANE_STAT_DESKEWED n l)) ∧
    -- REF_MISMATCH
    (∀ ppm, (∃ z, exec (.refMismatch t n l ppm) s = .next z ∧ getF z F.STL_LANE_STAT_FREQ_OFF n l = unsignedOf 8 (max (-128) (min 127 (ppm / 2))) ∧
      (ppm.natAbs ≤ 200 → Only [⟨.STL_LANE_STAT, n, l⟩] y z) ∧ (200 < ppm.natAbs → flag z F.STL_LANE_STAT_ALIGNED n l = false))) ∧
    -- RESIZE_TIMEOUT, LANE_RESTORE
    ((stlPort s n).resizeAt = none ∨ flag s F.STL_PORT_STAT_RESIZE n 0 = false → exec (.resizeTimeout t n) s = .next y) ∧
    (∀ a, (stlPort s n).resizeAt = some a → flag s F.STL_PORT_STAT_RESIZE n 0 = true →
      (y.clk.mono < a + 1000000 → exec (.resizeTimeout t n) s = .next y) ∧
      (a + 1000000 ≤ y.clk.mono → ∃ z, exec (.resizeTimeout t n) s = .next z ∧ stlUp z n = false ∧ flag z F.STL_PORT_STAT_RESIZE n 0 = false ∧ (stlPort z n).active = [])) ∧
    (flag s F.STL_PORT_CTL_RESTORE_EN n 0 = false ∨ up = false → exec (.laneRestore t n) s = .next y) ∧
    (flag s F.STL_PORT_CTL_RESTORE_EN n 0 = true → up = true → getF s F.STL_PORT_STAT_LANES n 0 = 3 → (stlPort s n).active.length < 8 →
      (∀ i, i < 8 → ∃ g, tget (stlPort s n).goodSince i = some g ∧ g + getF s F.STL_PORT_CTL_RESTORE_S n 0 * 1000000000 ≤ y.clk.mono) →
      ∃ z, exec (.laneRestore t n) s = .next (raise Ev.STL_WIDTH_CHANGE n 0 z) ∧ stlUp z n = false ∧ flag z F.STL_PORT_STAT_RESIZE n 0 = true ∧
        (stlPort z n).resizeAt = some y.clk.mono) ∧
    -- LAST_GASP_RX
    (∀ cause tod, stlIsDown s n = true → exec (.lastGaspRx t n cause tod) s = .next y) ∧
    (∀ cause tod, stlIsDown s n = false → ∃ z, exec (.lastGaspRx t n cause tod) s = .next z ∧ stlUp z n = false ∧ flag z F.STL_PORT_STAT_RESIZE n 0 = false ∧
      wide z .LG_TOD n 2 = tod % 2 ^ 64 ∧ getF z F.LG_INFO_CAUSE n 0 = cause % 2 ^ F.LG_INFO_CAUSE.w) ∧
    -- REF_LOST, REF_LOCK
    (s.stl.refPresent = false → exec (.refLost t) s = .next y) ∧
    (s.stl.refPresent = true → ∃ z, exec (.refLost t) s = .next z ∧ z.stl.refPresent = false ∧ flag z F.STL_REF_REF_LOCK 0 0 = false ∧
      stlUp z n = false ∧ flag z F.STL_PORT_STAT_RESIZE n 0 = false ∧ flag z F.STL_LANE_STAT_ALIGNED n l = false ∧ flag z F.STL_LANE_STAT_ADAPTED n l = false) ∧
    (flag s F.STL_REF_REF_LOCK 0 0 = true → exec (.refLock t) s = .next y) ∧
    (flag s F.STL_REF_REF_LOCK 0 0 = false → ∃ z, exec (.refLock t) s = .next z ∧ flag z F.STL_REF_REF_LOCK 0 0 = true ∧ z.stl.refPresent = true)

/-- The twin pair (R331 to R335, R337, Table 15.3).  Heartbeats leave every 10 µs on an UP port and every 100 µs on a backup port that is up, unpaused and free; one received shows the peer and moves the twin state as Table 15.3 says.  A 10 µs period without one counts, and eight, or a lost link or backup with the other dead, lose the peer: SOLO and PEER_LOST_CNT.  A lost link otherwise sends PAIRED to LINK_HOLD and WARMUP to STANDBY.  STANDBY, WARMUP and LINK_HOLD end with their timers.  A backup frame of the peer makes the backup alive, another is rejected and counted.  The model's choices here: log 49.  Completes: `hbTx`, `hbRx`, `hbPeriod`, `bkpHbTx`, `bkpHbRx`, `bkpAliveExpire`, `twinLinkLost`, `standbyTimeout`, `warmupDone`, `linkHoldExpire`. -/
def Obligations.TwinPair : Prop :=
  ∀ (t : Nat) (s : State), Operating s →
    let y := tick t s
    let st := twinState s
    let linkUp := flag s F.TWIN_STAT_LINK_UP 0 0
    -- HB_TX, HB_RX
    (∀ n, n < 4 → stlUp s n = false → exec (.hbTx t n) s = .next y ∧ ∀ b, exec (.hbRx t n b) s = .next y) ∧
    (∀ n a, n < 4 → (stlPort s n).hbTxAt = some a → y.clk.mono < a + 10000 → exec (.hbTx t n) s = .next y) ∧
    (∀ n, n < 4 → stlUp s n = true → (∀ a, (stlPort s n).hbTxAt = some a → a + 10000 ≤ y.clk.mono) → ∃ z, exec (.hbTx t n) s = .next z ∧ z.out = .stretcher n 0x55 (hbBlock y n) :: s.out ∧
      (stlPort z n).hbSeq = ((stlPort s n).hbSeq + 1) % 2 ^ 32 ∧ (stlPort z n).hbTxAt = some y.clk.mono ∧ { z with stl := s.stl, out := s.out } = y) ∧
    (∀ n b, n < 4 → stlUp s n = true → getF s F.STL_PORT_STAT_MODE n 0 ≠ 1 → ∃ z, exec (.hbRx t n b) s = .next z ∧
      (stlPort z n).hbDev = leAt b 16 2 % 4096 ∧ (stlPort z n).hbAt = some y.clk.mono ∧ { z with stl := s.stl } = y) ∧
    (∀ n b, n < 4 → stlUp s n = true → getF s F.STL_PORT_STAT_MODE n 0 = 1 → ∃ z, exec (.hbRx t n b) s = .next z ∧
      (stlPort z n).hbDev = leAt b 16 2 % 4096 ∧ z.twin.heard = true ∧ z.twin.miss = 0 ∧ z.twin.peerDev = leAt b 16 2 % 4096 ∧
      getF z F.TWIN_STAT_PEER_ROLE 0 0 = (if twinRole s = 0 then 0 else leAt b 1 1 % 4) ∧
      twinState z = (if st = 1 then 2 else if st = 4 ∨ st = 6 then 3 else if st = 5 then (if getF z F.TWIN_STAT_EFF_ROLE 0 0 = 1 then 3 else 2) else st)) ∧
    -- HB_PERIOD
    (y.clk.mono < s.twin.periodAt + 10000 → exec (.hbPeriod t) s = .next y) ∧
    (s.twin.periodAt + 10000 ≤ y.clk.mono → twinUp s = false ∨ s.twin.heard = true → ∃ z, exec (.hbPeriod t) s = .next z ∧
      z.twin = { s.twin with heard := false, periodAt := y.clk.mono, miss := 0 } ∧ { z with twin := s.twin } = y) ∧
    (s.twin.periodAt + 10000 ≤ y.clk.mono → twinUp s = true → s.twin.heard = false → ∃ z, exec (.hbPeriod t) s = .next z ∧
      reg z .HB_MISS_CNT 0 0 = reg s .HB_MISS_CNT 0 0 + 1 ∧
      (s.twin.miss + 1 < 8 → z.twin = { s.twin with heard := false, periodAt := y.clk.mono, miss := s.twin.miss + 1 } ∧ Only [⟨.HB_MISS_CNT, 0, 0⟩] y { z with twin := s.twin }) ∧
      (7 ≤ s.twin.miss → st = 2 ∨ st = 3 ∨ st = 4 ∨ st = 5 → twinState z = 6 ∧ reg z .PEER_LOST_CNT 0 0 = reg s .PEER_LOST_CNT 0 0 + 1)) ∧
    -- BKP_HB_TX, BKP_HB_RX, BKP_ALIVE_EXPIRE
    (∀ k, k < 2 → bkpPort s k = none → exec (.bkpHbTx t k) s = .next y) ∧
    (∀ k p, k < 2 → bkpPort s k = some p →
      (portIsUp s p = false ∨ macIdle s p = false ∨ classPaused s p 7 = true ∨ (∃ a, tget s.twin.bkpTxAt k = some a ∧ y.clk.mono < a + 100000) → exec (.bkpHbTx t k) s = .next y) ∧
      (portIsUp s p = true → macIdle s p = true → classPaused s p 7 = false → (∀ a, tget s.twin.bkpTxAt k = some a → a + 100000 ≤ y.clk.mono) →
        ∃ z f, exec (.bkpHbTx t k) s = .next z ∧ z.out = .engineFrame p f :: s.out ∧ f.length = 60 ∧ beAt f 0 6 = 0x0180C200000E ∧ beAt f 12 2 = 0x88B5 ∧
          f.drop 14 = bkpPayload y (tgetD s.twin.bkpSeq k 0) ∧ ctr z 1 p 10 = (ctr s 1 p 10 + 1) % 2 ^ 64 ∧ tget z.twin.bkpTxAt k = some y.clk.mono ∧
          { z with twin := s.twin, tele := s.tele, out := s.out, free := s.free } = y)) ∧
    (∀ p b, p < 768 → beAt b 0 1 ≠ 1 → exec (.bkpHbRx t p b) s = .next (takeHanded p b y)) ∧
    (∀ p b, p < 768 → beAt b 0 1 = 1 →
      let peer := wide s .PEER_SERIAL 0 2
      let ok := (bkpPort s 0 = some p ∨ bkpPort s 1 = some p) ∧ (beAt b 8 8 = peer ∨ (peer = 0 ∧ twinRole s ≠ 0))
      (ok → ∃ z, exec (.bkpHbRx t p b) s = .next z ∧ flag z F.TWIN_STAT_BKP_ALIVE 0 0 = true ∧ z.twin.bkpAt = some y.clk.mono ∧ twinState z = st ∧
        getF z F.TWIN_STAT_PEER_ROLE 0 0 = (if twinRole s = 0 then 0 else beAt b 1 1 % 4)) ∧
      (¬ ok → ∃ z, exec (.bkpHbRx t p b) s = .next z ∧ reg z .BKP_REJECT_CNT 0 0 = reg s .BKP_REJECT_CNT 0 0 + 1 ∧ Only [⟨.BKP_REJECT_CNT, 0, 0⟩] (takeHanded p b y) z)) ∧
    (s.twin.bkpAt = none ∨ bkpAlive s = false → exec (.bkpAliveExpire t) s = .next y) ∧
    (∀ a, s.twin.bkpAt = some a → bkpAlive s = true →
      (y.clk.mono < a + 800000 → exec (.bkpAliveExpire t) s = .next y) ∧
      (a + 800000 ≤ y.clk.mono → ∃ z, exec (.bkpAliveExpire t) s = .next z ∧ bkpAlive z = false ∧
        (linkUp = false → st = 2 ∨ st = 3 ∨ st = 4 ∨ st = 5 → twinState z = 6 ∧ reg z .PEER_LOST_CNT 0 0 = reg s .PEER_LOST_CNT 0 0 + 1) ∧
        (linkUp = true ∨ st < 2 ∨ 5 < st → twinState z = st ∧ Only [⟨.TWIN_STAT, 0, 0⟩] y z))) ∧
    -- TWIN_LINK_LOST
    (linkUp = false ∨ twinUp s = true ∨ s.twin.downSince = none → exec (.twinLinkLost t) s = .next y) ∧
    (∀ d, s.twin.downSince = some d → linkUp = true → twinUp s = false →
      (y.clk.mono < d + 100000 → exec (.twinLinkLost t) s = .next y) ∧
      (d + 100000 ≤ y.clk.mono → ∃ z, exec (.twinLinkLost t) s = .next z ∧ flag z F.TWIN_STAT_LINK_UP 0 0 = false ∧ z.twin.lostAt = some y.clk.mono ∧
        twinState z = (if (st = 2 ∨ st = 3 ∨ st = 4 ∨ st = 5) ∧ bkpAlive s = false then 6 else if st = 2 then 1 else if st = 3 then 4 else st))) ∧
    -- STANDBY_TIMEOUT, WARMUP_DONE, LINK_HOLD_EXPIRE
    (let primary := getF s F.TWIN_STAT_EFF_ROLE 0 0 = 1
     (st ≠ 1 ∨ ¬ primary ∨ y.clk.mono < s.twin.since + (s.twin.tHold + s.twin.tWarm) * 1000000 → exec (.standbyTimeout t) s = .next y) ∧
     (st = 1 → primary → s.twin.since + (s.twin.tHold + s.twin.tWarm) * 1000000 ≤ y.clk.mono → ∃ z, exec (.standbyTimeout t) s = .next z ∧
       twinState z = (if bkpAlive s then 5 else 6) ∧ z.twin.since = y.clk.mono ∧ flag z F.TWIN_STAT_HELD 0 0 = false)) ∧
    (st ≠ 2 ∨ linkUp = false ∨ y.clk.mono < s.twin.since + s.twin.tWarm * 1000000 → exec (.warmupDone t) s = .next y) ∧
    (st = 2 → linkUp = true → s.twin.since + s.twin.tWarm * 1000000 ≤ y.clk.mono → ∃ z, exec (.warmupDone t) s = .next z ∧ twinState z = 3 ∧
      z.twin.since = y.clk.mono ∧ flag z F.TWIN_STAT_HELD 0 0 = false) ∧
    (st ≠ 4 ∨ y.clk.mono < s.twin.lostAt.getD s.twin.since + s.twin.tHold * 1000000 → exec (.linkHoldExpire t) s = .next y) ∧
    (st = 4 → s.twin.lostAt.getD s.twin.since + s.twin.tHold * 1000000 ≤ y.clk.mono → ∃ z, exec (.linkHoldExpire t) s = .next z ∧ twinState z = 5 ∧
      flag z F.TWIN_STAT_HELD 0 0 = decide (getF s F.TWIN_STAT_EFF_ROLE 0 0 = 2))

/-- The chain (R280, R340, R342 to R346).  A joining device or member announces itself every 1 ms on each UP chain port, behind an XOFF of its far end, and sends its time every 100 µs as a member.  A frame with a bad header is counted; one for another member goes on with TTL less one, TTL 1 or less being dropped; a packet for this device reaches the sequencer with twin or chain as its master.  A known member's ANNOUNCE refreshes it; one unheard for 3 ms on both ports is gone and MGEN advances.  A forwarded command unanswered for 100 ms ends.  A follower takes the offset of its upstream port's TIME block: TOD steps beyond 1 µs and slews within it.  The model's choices here: logs 33, 50.  Completes: `announceTx`, `announceRx`, `chainTransit`, `timeBlockTx`, `timeBlockRx`, `memberExpire`, `chainCommandRx`, `forwardTimeout`. -/
def Obligations.ChainMembersAndFrames : Prop :=
  ∀ (t : Nat) (s : State), Operating s →
    let y := tick t s
    let cst := getF s F.CHAIN_STAT_CSTATE 0 0
    (∀ n, 2 ≤ n → n < 4 →
      let head (b : List Byte) := chainHeaderOk b
      let kind (b : List Byte) := beAt b 0 1 % 16
      let dst (b : List Byte) := beAt b 4 2 % 4096
      let src (b : List Byte) := beAt b 2 2 % 4096
      -- ANNOUNCE_TX
      (chainUp s n = false ∨ devId s = 0 ∨ (cst ≠ 1 ∧ cst ≠ 2) ∨ (∃ a, (stlPort s n).annAt = some a ∧ y.clk.mono < a + 1000000) → exec (.announceTx t n) s = .next y) ∧
      (chainUp s n = true → devId s ≠ 0 → cst = 1 ∨ cst = 2 → (∀ a, (stlPort s n).annAt = some a → a + 1000000 ≤ y.clk.mono) →
        let f := chainHeader 4 (chainTtl s) false (devId s) 0xFFF 0 ++ announceBody s n (chainTtl s)
        ∃ z, exec (.announceTx t n) s = .next z ∧ (stlPort z n).annAt = some y.clk.mono ∧ { z with stl := s.stl, out := s.out, chain := s.chain } = y ∧
          (flag s F.STL_PORT_STAT_XOFF_RX n 0 = false → z.out = .stretcher n 4 f :: s.out ∧ z.chain = s.chain) ∧
          (flag s F.STL_PORT_STAT_XOFF_RX n 0 = true → z.out = s.out ∧ z.chain = { s.chain with held := s.chain.held ++ [(n, 4, f)] })) ∧
      -- frames that stand on no UP chain port, with a bad header, or of another kind
      (∀ b, chainUp s n = false → exec (.announceRx t n b) s = .next y ∧ exec (.chainTransit t n b) s = .next y ∧ exec (.timeBlockRx t n b) s = .next y) ∧
      (∀ b, chainUp s n = true → head b = false → ∃ z, exec (.announceRx t n b) s = .next z ∧ exec (.chainTransit t n b) s = .next z ∧ exec (.chainCommandRx t n b) s = .next z ∧
        reg z .CHAIN_BAD_CNT 0 0 = reg s .CHAIN_BAD_CNT 0 0 + 1 ∧ Only [⟨.CHAIN_BAD_CNT, 0, 0⟩] y z) ∧
      (∀ b, chainUp s n = true → head b = true → kind b ≠ 4 → exec (.announceRx t n b) s = .next y) ∧
      -- ANNOUNCE_RX of a known member
      (∀ b, chainUp s n = true → head b = true → kind b = 4 → devId s ≠ 0 → src b ≠ devId s → (∃ m ∈ s.chain.members, m.dev = src b) →
        ∃ z m, exec (.announceRx t n b) s = .next z ∧ m ∈ z.chain.members ∧ m.dev = src b ∧ m.budget = beAt b 16 4 ∧ m.west = beAt b 20 2 ∧ m.east = beAt b 22 2 ∧
          (if n = 2 then m.heardW else m.heardE) = some y.clk.mono ∧ (∀ k ∈ s.chain.members, k.dev ≠ src b → k ∈ z.chain.members)) ∧
      -- CHAIN_TRANSIT
      (∀ b, chainUp s n = true → head b = true → dst b = devId s ∨ kind b = 4 → exec (.chainTransit t n b) s = .next y) ∧
      (∀ b, chainUp s n = true → head b = true → dst b ≠ devId s → kind b ≠ 4 →
        (beAt b 1 1 ≤ 1 → ∃ z, exec (.chainTransit t n b) s = .next z ∧ reg z .CHAIN_TTL_DROP 0 0 = reg s .CHAIN_TTL_DROP 0 0 + 1 ∧ Only [⟨.CHAIN_TTL_DROP, 0, 0⟩] y z) ∧
        (2 ≤ beAt b 1 1 → dst b ≠ 0xFFF → s.chain.refused.contains (src b) = false → tgetD s.chain.transit n [] = [] →
          stlUp s (5 - n) = true → getF s F.STL_PORT_STAT_MODE (5 - n) 0 = 2 → flag s F.STL_PORT_STAT_XOFF_RX (5 - n) 0 = false →
          ∃ z f, exec (.chainTransit t n b) s = .next z ∧ z.out = .stretcher (5 - n) (kind b) f :: s.out ∧ beAt f 1 1 = beAt b 1 1 - 1 ∧ f.drop 2 = b.drop 2 ∧
            f.take 1 = b.take 1 ∧ reg z .CHAIN_TRANSIT_CNT 0 0 = reg s .CHAIN_TRANSIT_CNT 0 0 + 1 ∧ Only [⟨.CHAIN_TRANSIT_CNT, 0, 0⟩] y { z with chain := s.chain, out := s.out })) ∧
      -- TIME_BLOCK_TX, TIME_BLOCK_RX
      (chainUp s n = false ∨ cst ≠ 2 ∨ (∃ a, (stlPort s n).timeAt = some a ∧ y.clk.mono < a + 100000) → exec (.timeBlockTx t n) s = .next y) ∧
      (chainUp s n = true → cst = 2 → (∀ a, (stlPort s n).timeAt = some a → a + 100000 ≤ y.clk.mono) → ∃ z, exec (.timeBlockTx t n) s = .next z ∧
        (stlPort z n).timeAt = some y.clk.mono ∧ z.out = .stretcher n 0x66 (timeBlock y n) :: s.out ∧ { z with stl := s.stl, out := s.out } = y) ∧
      (∀ b, chainUp s n = true →
        let offset : Int := (((y.clk.tod : Int) - leAt b 8 8) - ((leAt b 24 8 : Int) - leAt b 16 8)) / 2
        let follows := cst = 2 ∧ rootDev s ≠ devId s ∧ flag s F.CHAIN_TIME_CFG_TIME_EN 0 0 = true ∧ n = upstreamPort s (rootDev s) ∧ leAt b 16 8 ≠ 0
        (¬ follows → ∃ z, exec (.timeBlockRx t n b) s = .next z ∧ (stlPort z n).timeTx = leAt b 8 8 ∧ (stlPort z n).timeRx = y.clk.tod ∧ { z with stl := s.stl } = y) ∧
        (follows → 1000 < offset.natAbs → ∃ z, exec (.timeBlockRx t n b) s = .next (raise0 Ev.CHAIN_TIME_STEP z) ∧
          z.clk.tod = unsignedOf 64 ((y.clk.tod : Int) - offset) ∧ wide z .TIME_OFFSET 0 2 = unsignedOf 64 offset) ∧
        (follows → offset.natAbs ≤ 1000 → ∃ z slew, exec (.timeBlockRx t n b) s = .next z ∧ slew.natAbs ≤ offset.natAbs ∧ z.clk.tod = unsignedOf 64 ((y.clk.tod : Int) - slew) ∧
          z.clk.mono = y.clk.mono ∧ wide z .TIME_OFFSET 0 2 = unsignedOf 64 offset ∧
          Only [⟨.TIME_OFFSET, 0, 0⟩, ⟨.TIME_OFFSET, 0, 1⟩] y { z with stl := s.stl, clk := y.clk }))) ∧
    -- MEMBER_EXPIRE
    (∀ dev, dev ≠ devId s → s.chain.members.find? (fun m => m.dev == dev) = none → exec (.memberExpire t dev) s = .next y) ∧
    (∀ dev m, dev ≠ devId s → s.chain.members.find? (fun m => m.dev == dev) = some m →
      (∀ a, m.heardW = some a → a + 3000000 ≤ y.clk.mono) → (∀ a, m.heardE = some a → a + 3000000 ≤ y.clk.mono) →
      ∃ z, exec (.memberExpire t dev) s = .next z ∧ reg z .CHAIN_MGEN 0 0 = reg s .CHAIN_MGEN 0 0 + 1 ∧ z.chain.members = s.chain.members.filter (fun k => k.dev ≠ dev)) ∧
    -- CHAIN_COMMAND_RX
    (∀ n b, n < 4 → stlUp s n = false → exec (.chainCommandRx t n b) s = .next y) ∧
    (∀ n b, n < 4 → stlUp s n = true → chainHeaderOk b = true → (beAt b 0 1 % 16 ≠ 2 ∧ beAt b 0 1 % 16 ≠ 3) ∨ beAt b 4 2 % 4096 ≠ devId s → exec (.chainCommandRx t n b) s = .next y) ∧
    (∀ n b, n < 4 → stlUp s n = true → chainHeaderOk b = true → beAt b 0 1 % 16 = 2 → beAt b 4 2 % 4096 = devId s → s.chain.refused.contains (beAt b 2 2 % 4096) = false →
      let p := b.drop 16
      let k := if n < 2 then 3 else 4
      earlyChecks s k p (decide (p.length = 32 + 4 * pParamLen p)) = none → pTarget p = 0xFFF → firstReserved p 32 (paramReserved (pOpcode p) p) = none →
      (s.cmd.outstanding.filter (fun x => x.kind == k)).length < share k →
      ∃ z o, exec (.chainCommandRx t n b) s = .next z ∧ z.cmd.outstanding = s.cmd.outstanding ++ [o] ∧ o.kind = k ∧ o.tag = pTag p ∧ o.opcode = pOpcode p ∧
        o.sub = (if n < 2 then n else beAt b 2 2 % 4096) ∧ wide z .CMD_SERIAL 0 2 = (wide s .CMD_SERIAL 0 2 + 1) % 2 ^ 64) ∧
    -- FORWARD_TIMEOUT
    (∀ kind sub tag, (∀ f ∈ s.chain.forwarded, f.kind = kind → f.sub = sub → f.tag = tag → y.clk.mono < f.since + 100000000) → exec (.forwardTimeout t kind sub tag) s = .next y) ∧
    (∀ f, s.chain.forwarded = [f] → f.kind ≠ 5 → f.since + 100000000 ≤ y.clk.mono → ∃ z, exec (.forwardTimeout t f.kind f.sub f.tag) s = .next z ∧
      z.chain.forwarded = [] ∧ wide z .CMD_SERIAL 0 2 = (wide s .CMD_SERIAL 0 2 + 1) % 2 ^ 64)
end

