-- ==== Sys2Proof/Laws/Bits.lean ====
section
/-! SUPPORT. Laws of sparse tables and of bit fields. -/

namespace Sys2Proof.Machine

theorem tget_terase_same {κ α : Type} [DecidableEq κ] (t : List (κ × α)) (k : κ) : tget (terase t k) k = none := by
  induction t with
  | nil => rfl
  | cons x t ih =>
    obtain ⟨a, v⟩ := x
    by_cases h : a = k
    · simp [terase, h, ih]
    · simp [terase, h, tget, ih]

theorem tget_terase_ne {κ α : Type} [DecidableEq κ] (t : List (κ × α)) {k k' : κ} (h : k' ≠ k) :
    tget (terase t k) k' = tget t k' := by
  induction t with
  | nil => rfl
  | cons x t ih =>
    obtain ⟨a, v⟩ := x
    by_cases ha : a = k
    · have : ¬ k = k' := fun e => h e.symm
      simp [terase, ha, tget, this, ih]
    · simp [terase, ha, tget, ih]

/-- A table read after a write of one key. -/
theorem tget_tset {κ α : Type} [DecidableEq κ] (t : List (κ × α)) (k k' : κ) (v : α) :
    tget (tset t k v) k' = if k = k' then some v else tget t k' := by
  by_cases h : k = k'
  · simp [tset, tget, h]
  · simp [tset, tget, h, tget_terase_ne t (fun e => h e.symm)]

/-- A table read after a key is erased. -/
theorem tget_terase {κ α : Type} [DecidableEq κ] (t : List (κ × α)) (k k' : κ) :
    tget (terase t k) k' = if k = k' then none else tget t k' := by
  by_cases h : k = k'
  · subst h; simp [tget_terase_same]
  · simp [h, tget_terase_ne t (fun e => h e.symm)]

/-- The value at a key, with its default, after a write of one key. -/
@[simp] theorem tgetD_tset {κ α : Type} [DecidableEq κ] (t : List (κ × α)) (k k' : κ) (v d : α) :
    tgetD (tset t k v) k' d = if k = k' then v else tgetD t k' d := by
  by_cases h : k = k' <;> simp [tgetD, tget_tset, h]

/-- The value at a key, with its default, after a key is erased. -/
@[simp] theorem tgetD_terase {κ α : Type} [DecidableEq κ] (t : List (κ × α)) (k k' : κ) (d : α) :
    tgetD (terase t k) k' d = if k = k' then d else tgetD t k' d := by
  by_cases h : k = k' <;> simp [tgetD, tget_terase, h]

/-- A field is below the power of two of its width. -/
theorem bits_lt (n lo w : Nat) : bits n lo w < 2 ^ w := Nat.mod_lt _ (Nat.two_pow_pos w)

theorem bits_mul_le (n lo w : Nat) : bits n lo w * 2 ^ lo ≤ n := by
  have h : bits n lo w ≤ n / 2 ^ lo := Nat.mod_le _ _
  exact Nat.le_trans (Nat.mul_le_mul_right _ h) (Nat.div_mul_le_self n _)

/-- A number as its part below a field, the field and the part above it. -/
theorem bits_split (n lo w : Nat) : n = n % 2 ^ lo + bits n lo w * 2 ^ lo + n / 2 ^ (lo + w) * 2 ^ (lo + w) := by
  have h1 := Nat.div_add_mod n (2 ^ lo)
  have h2 := Nat.div_add_mod (n / 2 ^ lo) (2 ^ w)
  rw [Nat.div_div_eq_div_mul, ← Nat.pow_add] at h2
  unfold bits
  have e : n / 2 ^ (lo + w) * 2 ^ (lo + w) = 2 ^ lo * (2 ^ w * (n / 2 ^ (lo + w))) := by
    rw [Nat.pow_add]; simp [Nat.mul_assoc, Nat.mul_comm]
  have e2 : n / 2 ^ lo % 2 ^ w * 2 ^ lo = 2 ^ lo * (n / 2 ^ lo % 2 ^ w) := Nat.mul_comm _ _
  rw [e, e2]
  calc n = 2 ^ lo * (n / 2 ^ lo) + n % 2 ^ lo := h1.symm
    _ = 2 ^ lo * (2 ^ w * (n / 2 ^ (lo + w)) + n / 2 ^ lo % 2 ^ w) + n % 2 ^ lo := by rw [h2]
    _ = _ := by rw [Nat.mul_add]; omega

/-- A number with a field replaced, as the same three parts. -/
theorem putBits_split (n lo w v : Nat) :
    putBits n lo w v = n % 2 ^ lo + v % 2 ^ w * 2 ^ lo + n / 2 ^ (lo + w) * 2 ^ (lo + w) := by
  have h := bits_split n lo w
  unfold putBits
  omega

/-- The bits below a field, and those above it, of three parts put together. -/
theorem parts_bits (a b c lo w : Nat) (ha : a < 2 ^ lo) (hb : b < 2 ^ w) :
    (a + b * 2 ^ lo + c * 2 ^ (lo + w)) % 2 ^ lo = a ∧
    (a + b * 2 ^ lo + c * 2 ^ (lo + w)) / 2 ^ lo % 2 ^ w = b ∧
    (a + b * 2 ^ lo + c * 2 ^ (lo + w)) / 2 ^ (lo + w) = c := by
  have e : a + b * 2 ^ lo + c * 2 ^ (lo + w) = a + 2 ^ lo * (b + 2 ^ w * c) := by
    rw [Nat.pow_add]; simp [Nat.mul_add, Nat.mul_comm, Nat.mul_left_comm, Nat.add_assoc]
  rw [e]
  refine ⟨?_, ?_, ?_⟩
  · rw [Nat.add_mul_mod_self_left, Nat.mod_eq_of_lt ha]
  · rw [Nat.add_mul_div_left _ _ (Nat.two_pow_pos lo), Nat.div_eq_of_lt ha, Nat.zero_add, Nat.add_mul_mod_self_left,
      Nat.mod_eq_of_lt hb]
  · rw [Nat.pow_add, ← Nat.div_div_eq_div_mul, Nat.add_mul_div_left _ _ (Nat.two_pow_pos lo), Nat.div_eq_of_lt ha,
      Nat.zero_add, Nat.add_mul_div_left _ _ (Nat.two_pow_pos w), Nat.div_eq_of_lt hb, Nat.zero_add]

/-- A field read after it is written. -/
theorem bits_putBits_same (n lo w v : Nat) : bits (putBits n lo w v) lo w = v % 2 ^ w := by
  rw [putBits_split]
  exact (parts_bits _ _ _ lo w (Nat.mod_lt _ (Nat.two_pow_pos lo)) (Nat.mod_lt _ (Nat.two_pow_pos w))).2.1

/-- A field that lies wholly below or above a written one keeps its value. -/
theorem bits_putBits_other (n lo w v lo' w' : Nat) (h : lo' + w' ≤ lo ∨ lo + w ≤ lo') :
    bits (putBits n lo w v) lo' w' = bits n lo' w' := by
  have ha : n % 2 ^ lo < 2 ^ lo := Nat.mod_lt _ (Nat.two_pow_pos lo)
  have hb : v % 2 ^ w < 2 ^ w := Nat.mod_lt _ (Nat.two_pow_pos w)
  have p := parts_bits (n % 2 ^ lo) (v % 2 ^ w) (n / 2 ^ (lo + w)) lo w ha hb
  rw [← putBits_split] at p
  rcases h with h | h
  · have key (m : Nat) : bits m lo' w' = bits (m % 2 ^ lo) lo' w' := by
      unfold bits
      obtain ⟨d, rfl⟩ := Nat.exists_eq_add_of_le h
      rw [show lo' + w' + d = lo' + (w' + d) by omega, Nat.pow_add 2 lo' (w' + d), Nat.mod_mul_right_div_self,
        Nat.pow_add 2 w' d, Nat.mod_mul_right_mod]
    rw [key (putBits n lo w v), key n, p.1]
  · have key (m : Nat) : bits m lo' w' = bits (m / 2 ^ (lo + w)) (lo' - (lo + w)) w' := by
      unfold bits
      rw [Nat.div_div_eq_div_mul, ← Nat.pow_add, show lo + w + (lo' - (lo + w)) = lo' by omega]
    rw [key (putBits n lo w v), key n, p.2.2]

/-- A number of 32 bits with a field inside them replaced has 32 bits. -/
theorem putBits_lt (n lo w v : Nat) (hn : n < 2 ^ 32) (h : lo + w ≤ 32) : putBits n lo w v < 2 ^ 32 := by
  obtain ⟨d, hd⟩ := Nat.exists_eq_add_of_le h
  rw [hd, Nat.pow_add] at hn ⊢
  rw [putBits_split]
  have hc : n / 2 ^ (lo + w) < 2 ^ d := Nat.div_lt_of_lt_mul hn
  have ha : n % 2 ^ lo < 2 ^ lo := Nat.mod_lt _ (Nat.two_pow_pos lo)
  have hb : v % 2 ^ w < 2 ^ w := Nat.mod_lt _ (Nat.two_pow_pos w)
  have h1 : n % 2 ^ lo + v % 2 ^ w * 2 ^ lo < 2 ^ (lo + w) := by
    rw [Nat.pow_add]
    have := Nat.mul_le_mul_right (2 ^ lo) (Nat.succ_le_of_lt hb)
    have e : 2 ^ lo * 2 ^ w = 2 ^ w * 2 ^ lo := Nat.mul_comm _ _
    have e2 : (v % 2 ^ w).succ * 2 ^ lo = v % 2 ^ w * 2 ^ lo + 2 ^ lo := Nat.succ_mul _ _
    omega
  have h2 := Nat.mul_le_mul_right (2 ^ (lo + w)) (Nat.succ_le_of_lt hc)
  have e3 : (n / 2 ^ (lo + w)).succ * 2 ^ (lo + w) = n / 2 ^ (lo + w) * 2 ^ (lo + w) + 2 ^ (lo + w) := Nat.succ_mul _ _
  have e4 : 2 ^ (lo + w) * 2 ^ d = 2 ^ d * 2 ^ (lo + w) := Nat.mul_comm _ _
  omega

/-- One bit after it is written. -/
theorem bit_putBit (n k k' : Nat) (b : Bool) : bit (putBit n k b) k' = if k = k' then b else bit n k' := by
  have hb (m i : Nat) : bit m i = (bits m i 1 == 1) := by simp [bit, bits]
  by_cases h : k = k'
  · subst h
    rw [hb, putBit, bits_putBits_same]
    cases b <;> simp
  · rw [hb, putBit, bits_putBits_other _ _ _ _ _ _ (by omega), ← hb]
    simp [h]

end Sys2Proof.Machine
end

