-- ==== Sys2Proof/Laws/State.lean ====
section
/-! SUPPORT. What each named update of the state leaves as it was, one lemma per field per update. -/

namespace Sys2Proof.Machine

variable (s : State)

/-! ### `setReg` -/

@[simp] theorem setReg_clk (n : RegName) (i j : Nat) (v : W32) : (setReg n i j v s).clk = s.clk := rfl
@[simp] theorem setReg_port (n : RegName) (i j : Nat) (v : W32) : (setReg n i j v s).port = s.port := rfl
@[simp] theorem setReg_tbl (n : RegName) (i j : Nat) (v : W32) : (setReg n i j v s).tbl = s.tbl := rfl
@[simp] theorem setReg_pal (n : RegName) (i j : Nat) (v : W32) : (setReg n i j v s).pal = s.pal := rfl
@[simp] theorem setReg_sched (n : RegName) (i j : Nat) (v : W32) : (setReg n i j v s).sched = s.sched := rfl
@[simp] theorem setReg_tele (n : RegName) (i j : Nat) (v : W32) : (setReg n i j v s).tele = s.tele := rfl
@[simp] theorem setReg_cmd (n : RegName) (i j : Nat) (v : W32) : (setReg n i j v s).cmd = s.cmd := rfl
@[simp] theorem setReg_host (n : RegName) (i j : Nat) (v : W32) : (setReg n i j v s).host = s.host := rfl
@[simp] theorem setReg_eng (n : RegName) (i j : Nat) (v : W32) : (setReg n i j v s).eng = s.eng := rfl
@[simp] theorem setReg_fw (n : RegName) (i j : Nat) (v : W32) : (setReg n i j v s).fw = s.fw := rfl
@[simp] theorem setReg_stl (n : RegName) (i j : Nat) (v : W32) : (setReg n i j v s).stl = s.stl := rfl
@[simp] theorem setReg_twin (n : RegName) (i j : Nat) (v : W32) : (setReg n i j v s).twin = s.twin := rfl
@[simp] theorem setReg_chain (n : RegName) (i j : Nat) (v : W32) : (setReg n i j v s).chain = s.chain := rfl
@[simp] theorem setReg_pwr (n : RegName) (i j : Nat) (v : W32) : (setReg n i j v s).pwr = s.pwr := rfl
@[simp] theorem setReg_flt (n : RegName) (i j : Nat) (v : W32) : (setReg n i j v s).flt = s.flt := rfl
@[simp] theorem setReg_fuse (n : RegName) (i j : Nat) (v : W32) : (setReg n i j v s).fuse = s.fuse := rfl
@[simp] theorem setReg_boot (n : RegName) (i j : Nat) (v : W32) : (setReg n i j v s).boot = s.boot := rfl
@[simp] theorem setReg_free (n : RegName) (i j : Nat) (v : W32) : (setReg n i j v s).free = s.free := rfl
@[simp] theorem setReg_out (n : RegName) (i j : Nat) (v : W32) : (setReg n i j v s).out = s.out := rfl
@[simp] theorem setReg_pending (n : RegName) (i j : Nat) (v : W32) : (setReg n i j v s).pending = s.pending := rfl

/-! ### `setF` -/

@[simp] theorem setF_clk (f : Fld) (i j v : Nat) : (setF f i j v s).clk = s.clk := rfl
@[simp] theorem setF_port (f : Fld) (i j v : Nat) : (setF f i j v s).port = s.port := rfl
@[simp] theorem setF_tbl (f : Fld) (i j v : Nat) : (setF f i j v s).tbl = s.tbl := rfl
@[simp] theorem setF_pal (f : Fld) (i j v : Nat) : (setF f i j v s).pal = s.pal := rfl
@[simp] theorem setF_sched (f : Fld) (i j v : Nat) : (setF f i j v s).sched = s.sched := rfl
@[simp] theorem setF_tele (f : Fld) (i j v : Nat) : (setF f i j v s).tele = s.tele := rfl
@[simp] theorem setF_cmd (f : Fld) (i j v : Nat) : (setF f i j v s).cmd = s.cmd := rfl
@[simp] theorem setF_host (f : Fld) (i j v : Nat) : (setF f i j v s).host = s.host := rfl
@[simp] theorem setF_eng (f : Fld) (i j v : Nat) : (setF f i j v s).eng = s.eng := rfl
@[simp] theorem setF_fw (f : Fld) (i j v : Nat) : (setF f i j v s).fw = s.fw := rfl
@[simp] theorem setF_stl (f : Fld) (i j v : Nat) : (setF f i j v s).stl = s.stl := rfl
@[simp] theorem setF_twin (f : Fld) (i j v : Nat) : (setF f i j v s).twin = s.twin := rfl
@[simp] theorem setF_chain (f : Fld) (i j v : Nat) : (setF f i j v s).chain = s.chain := rfl
@[simp] theorem setF_pwr (f : Fld) (i j v : Nat) : (setF f i j v s).pwr = s.pwr := rfl
@[simp] theorem setF_flt (f : Fld) (i j v : Nat) : (setF f i j v s).flt = s.flt := rfl
@[simp] theorem setF_fuse (f : Fld) (i j v : Nat) : (setF f i j v s).fuse = s.fuse := rfl
@[simp] theorem setF_boot (f : Fld) (i j v : Nat) : (setF f i j v s).boot = s.boot := rfl
@[simp] theorem setF_free (f : Fld) (i j v : Nat) : (setF f i j v s).free = s.free := rfl
@[simp] theorem setF_out (f : Fld) (i j v : Nat) : (setF f i j v s).out = s.out := rfl
@[simp] theorem setF_pending (f : Fld) (i j v : Nat) : (setF f i j v s).pending = s.pending := rfl

/-! ### `bump` -/

@[simp] theorem bump_clk (n : RegName) (i j k : Nat) : (bump n i j k s).clk = s.clk := rfl
@[simp] theorem bump_port (n : RegName) (i j k : Nat) : (bump n i j k s).port = s.port := rfl
@[simp] theorem bump_tbl (n : RegName) (i j k : Nat) : (bump n i j k s).tbl = s.tbl := rfl
@[simp] theorem bump_pal (n : RegName) (i j k : Nat) : (bump n i j k s).pal = s.pal := rfl
@[simp] theorem bump_sched (n : RegName) (i j k : Nat) : (bump n i j k s).sched = s.sched := rfl
@[simp] theorem bump_tele (n : RegName) (i j k : Nat) : (bump n i j k s).tele = s.tele := rfl
@[simp] theorem bump_cmd (n : RegName) (i j k : Nat) : (bump n i j k s).cmd = s.cmd := rfl
@[simp] theorem bump_host (n : RegName) (i j k : Nat) : (bump n i j k s).host = s.host := rfl
@[simp] theorem bump_eng (n : RegName) (i j k : Nat) : (bump n i j k s).eng = s.eng := rfl
@[simp] theorem bump_fw (n : RegName) (i j k : Nat) : (bump n i j k s).fw = s.fw := rfl
@[simp] theorem bump_stl (n : RegName) (i j k : Nat) : (bump n i j k s).stl = s.stl := rfl
@[simp] theorem bump_twin (n : RegName) (i j k : Nat) : (bump n i j k s).twin = s.twin := rfl
@[simp] theorem bump_chain (n : RegName) (i j k : Nat) : (bump n i j k s).chain = s.chain := rfl
@[simp] theorem bump_pwr (n : RegName) (i j k : Nat) : (bump n i j k s).pwr = s.pwr := rfl
@[simp] theorem bump_flt (n : RegName) (i j k : Nat) : (bump n i j k s).flt = s.flt := rfl
@[simp] theorem bump_fuse (n : RegName) (i j k : Nat) : (bump n i j k s).fuse = s.fuse := rfl
@[simp] theorem bump_boot (n : RegName) (i j k : Nat) : (bump n i j k s).boot = s.boot := rfl
@[simp] theorem bump_free (n : RegName) (i j k : Nat) : (bump n i j k s).free = s.free := rfl
@[simp] theorem bump_out (n : RegName) (i j k : Nat) : (bump n i j k s).out = s.out := rfl
@[simp] theorem bump_pending (n : RegName) (i j k : Nat) : (bump n i j k s).pending = s.pending := rfl

/-! ### `bumpSat` -/

@[simp] theorem bumpSat_clk (f : Fld) (i j k : Nat) : (bumpSat f i j k s).clk = s.clk := rfl
@[simp] theorem bumpSat_port (f : Fld) (i j k : Nat) : (bumpSat f i j k s).port = s.port := rfl
@[simp] theorem bumpSat_tbl (f : Fld) (i j k : Nat) : (bumpSat f i j k s).tbl = s.tbl := rfl
@[simp] theorem bumpSat_pal (f : Fld) (i j k : Nat) : (bumpSat f i j k s).pal = s.pal := rfl
@[simp] theorem bumpSat_sched (f : Fld) (i j k : Nat) : (bumpSat f i j k s).sched = s.sched := rfl
@[simp] theorem bumpSat_tele (f : Fld) (i j k : Nat) : (bumpSat f i j k s).tele = s.tele := rfl
@[simp] theorem bumpSat_cmd (f : Fld) (i j k : Nat) : (bumpSat f i j k s).cmd = s.cmd := rfl
@[simp] theorem bumpSat_host (f : Fld) (i j k : Nat) : (bumpSat f i j k s).host = s.host := rfl
@[simp] theorem bumpSat_eng (f : Fld) (i j k : Nat) : (bumpSat f i j k s).eng = s.eng := rfl
@[simp] theorem bumpSat_fw (f : Fld) (i j k : Nat) : (bumpSat f i j k s).fw = s.fw := rfl
@[simp] theorem bumpSat_stl (f : Fld) (i j k : Nat) : (bumpSat f i j k s).stl = s.stl := rfl
@[simp] theorem bumpSat_twin (f : Fld) (i j k : Nat) : (bumpSat f i j k s).twin = s.twin := rfl
@[simp] theorem bumpSat_chain (f : Fld) (i j k : Nat) : (bumpSat f i j k s).chain = s.chain := rfl
@[simp] theorem bumpSat_pwr (f : Fld) (i j k : Nat) : (bumpSat f i j k s).pwr = s.pwr := rfl
@[simp] theorem bumpSat_flt (f : Fld) (i j k : Nat) : (bumpSat f i j k s).flt = s.flt := rfl
@[simp] theorem bumpSat_fuse (f : Fld) (i j k : Nat) : (bumpSat f i j k s).fuse = s.fuse := rfl
@[simp] theorem bumpSat_boot (f : Fld) (i j k : Nat) : (bumpSat f i j k s).boot = s.boot := rfl
@[simp] theorem bumpSat_free (f : Fld) (i j k : Nat) : (bumpSat f i j k s).free = s.free := rfl
@[simp] theorem bumpSat_out (f : Fld) (i j k : Nat) : (bumpSat f i j k s).out = s.out := rfl
@[simp] theorem bumpSat_pending (f : Fld) (i j k : Nat) : (bumpSat f i j k s).pending = s.pending := rfl

/-! ### `setMapBit` -/

@[simp] theorem setMapBit_clk (n : RegName) (k : Nat) (b : Bool) : (setMapBit n k b s).clk = s.clk := rfl
@[simp] theorem setMapBit_port (n : RegName) (k : Nat) (b : Bool) : (setMapBit n k b s).port = s.port := rfl
@[simp] theorem setMapBit_tbl (n : RegName) (k : Nat) (b : Bool) : (setMapBit n k b s).tbl = s.tbl := rfl
@[simp] theorem setMapBit_pal (n : RegName) (k : Nat) (b : Bool) : (setMapBit n k b s).pal = s.pal := rfl
@[simp] theorem setMapBit_sched (n : RegName) (k : Nat) (b : Bool) : (setMapBit n k b s).sched = s.sched := rfl
@[simp] theorem setMapBit_tele (n : RegName) (k : Nat) (b : Bool) : (setMapBit n k b s).tele = s.tele := rfl
@[simp] theorem setMapBit_cmd (n : RegName) (k : Nat) (b : Bool) : (setMapBit n k b s).cmd = s.cmd := rfl
@[simp] theorem setMapBit_host (n : RegName) (k : Nat) (b : Bool) : (setMapBit n k b s).host = s.host := rfl
@[simp] theorem setMapBit_eng (n : RegName) (k : Nat) (b : Bool) : (setMapBit n k b s).eng = s.eng := rfl
@[simp] theorem setMapBit_fw (n : RegName) (k : Nat) (b : Bool) : (setMapBit n k b s).fw = s.fw := rfl
@[simp] theorem setMapBit_stl (n : RegName) (k : Nat) (b : Bool) : (setMapBit n k b s).stl = s.stl := rfl
@[simp] theorem setMapBit_twin (n : RegName) (k : Nat) (b : Bool) : (setMapBit n k b s).twin = s.twin := rfl
@[simp] theorem setMapBit_chain (n : RegName) (k : Nat) (b : Bool) : (setMapBit n k b s).chain = s.chain := rfl
@[simp] theorem setMapBit_pwr (n : RegName) (k : Nat) (b : Bool) : (setMapBit n k b s).pwr = s.pwr := rfl
@[simp] theorem setMapBit_flt (n : RegName) (k : Nat) (b : Bool) : (setMapBit n k b s).flt = s.flt := rfl
@[simp] theorem setMapBit_fuse (n : RegName) (k : Nat) (b : Bool) : (setMapBit n k b s).fuse = s.fuse := rfl
@[simp] theorem setMapBit_boot (n : RegName) (k : Nat) (b : Bool) : (setMapBit n k b s).boot = s.boot := rfl
@[simp] theorem setMapBit_free (n : RegName) (k : Nat) (b : Bool) : (setMapBit n k b s).free = s.free := rfl
@[simp] theorem setMapBit_out (n : RegName) (k : Nat) (b : Bool) : (setMapBit n k b s).out = s.out := rfl
@[simp] theorem setMapBit_pending (n : RegName) (k : Nat) (b : Bool) : (setMapBit n k b s).pending = s.pending := rfl

/-! ### `addCtr` -/

@[simp] theorem addCtr_rf (a u k n : Nat) : (addCtr a u k n s).rf = s.rf := rfl
@[simp] theorem addCtr_clk (a u k n : Nat) : (addCtr a u k n s).clk = s.clk := rfl
@[simp] theorem addCtr_port (a u k n : Nat) : (addCtr a u k n s).port = s.port := rfl
@[simp] theorem addCtr_tbl (a u k n : Nat) : (addCtr a u k n s).tbl = s.tbl := rfl
@[simp] theorem addCtr_pal (a u k n : Nat) : (addCtr a u k n s).pal = s.pal := rfl
@[simp] theorem addCtr_sched (a u k n : Nat) : (addCtr a u k n s).sched = s.sched := rfl
@[simp] theorem addCtr_cmd (a u k n : Nat) : (addCtr a u k n s).cmd = s.cmd := rfl
@[simp] theorem addCtr_host (a u k n : Nat) : (addCtr a u k n s).host = s.host := rfl
@[simp] theorem addCtr_eng (a u k n : Nat) : (addCtr a u k n s).eng = s.eng := rfl
@[simp] theorem addCtr_fw (a u k n : Nat) : (addCtr a u k n s).fw = s.fw := rfl
@[simp] theorem addCtr_stl (a u k n : Nat) : (addCtr a u k n s).stl = s.stl := rfl
@[simp] theorem addCtr_twin (a u k n : Nat) : (addCtr a u k n s).twin = s.twin := rfl
@[simp] theorem addCtr_chain (a u k n : Nat) : (addCtr a u k n s).chain = s.chain := rfl
@[simp] theorem addCtr_pwr (a u k n : Nat) : (addCtr a u k n s).pwr = s.pwr := rfl
@[simp] theorem addCtr_flt (a u k n : Nat) : (addCtr a u k n s).flt = s.flt := rfl
@[simp] theorem addCtr_fuse (a u k n : Nat) : (addCtr a u k n s).fuse = s.fuse := rfl
@[simp] theorem addCtr_boot (a u k n : Nat) : (addCtr a u k n s).boot = s.boot := rfl
@[simp] theorem addCtr_free (a u k n : Nat) : (addCtr a u k n s).free = s.free := rfl
@[simp] theorem addCtr_out (a u k n : Nat) : (addCtr a u k n s).out = s.out := rfl
@[simp] theorem addCtr_pending (a u k n : Nat) : (addCtr a u k n s).pending = s.pending := rfl

/-! ### `emit` -/

@[simp] theorem emit_rf (o : Out) : (emit o s).rf = s.rf := rfl
@[simp] theorem emit_clk (o : Out) : (emit o s).clk = s.clk := rfl
@[simp] theorem emit_port (o : Out) : (emit o s).port = s.port := rfl
@[simp] theorem emit_tbl (o : Out) : (emit o s).tbl = s.tbl := rfl
@[simp] theorem emit_pal (o : Out) : (emit o s).pal = s.pal := rfl
@[simp] theorem emit_sched (o : Out) : (emit o s).sched = s.sched := rfl
@[simp] theorem emit_tele (o : Out) : (emit o s).tele = s.tele := rfl
@[simp] theorem emit_cmd (o : Out) : (emit o s).cmd = s.cmd := rfl
@[simp] theorem emit_host (o : Out) : (emit o s).host = s.host := rfl
@[simp] theorem emit_eng (o : Out) : (emit o s).eng = s.eng := rfl
@[simp] theorem emit_fw (o : Out) : (emit o s).fw = s.fw := rfl
@[simp] theorem emit_stl (o : Out) : (emit o s).stl = s.stl := rfl
@[simp] theorem emit_twin (o : Out) : (emit o s).twin = s.twin := rfl
@[simp] theorem emit_chain (o : Out) : (emit o s).chain = s.chain := rfl
@[simp] theorem emit_pwr (o : Out) : (emit o s).pwr = s.pwr := rfl
@[simp] theorem emit_flt (o : Out) : (emit o s).flt = s.flt := rfl
@[simp] theorem emit_fuse (o : Out) : (emit o s).fuse = s.fuse := rfl
@[simp] theorem emit_boot (o : Out) : (emit o s).boot = s.boot := rfl
@[simp] theorem emit_free (o : Out) : (emit o s).free = s.free := rfl
@[simp] theorem emit_pending (o : Out) : (emit o s).pending = s.pending := rfl

/-! ### `drawn` -/

@[simp] theorem drawn_rf : (drawn s).rf = s.rf := rfl
@[simp] theorem drawn_clk : (drawn s).clk = s.clk := rfl
@[simp] theorem drawn_port : (drawn s).port = s.port := rfl
@[simp] theorem drawn_tbl : (drawn s).tbl = s.tbl := rfl
@[simp] theorem drawn_pal : (drawn s).pal = s.pal := rfl
@[simp] theorem drawn_sched : (drawn s).sched = s.sched := rfl
@[simp] theorem drawn_tele : (drawn s).tele = s.tele := rfl
@[simp] theorem drawn_cmd : (drawn s).cmd = s.cmd := rfl
@[simp] theorem drawn_host : (drawn s).host = s.host := rfl
@[simp] theorem drawn_eng : (drawn s).eng = s.eng := rfl
@[simp] theorem drawn_fw : (drawn s).fw = s.fw := rfl
@[simp] theorem drawn_stl : (drawn s).stl = s.stl := rfl
@[simp] theorem drawn_twin : (drawn s).twin = s.twin := rfl
@[simp] theorem drawn_chain : (drawn s).chain = s.chain := rfl
@[simp] theorem drawn_pwr : (drawn s).pwr = s.pwr := rfl
@[simp] theorem drawn_flt : (drawn s).flt = s.flt := rfl
@[simp] theorem drawn_fuse : (drawn s).fuse = s.fuse := rfl
@[simp] theorem drawn_boot : (drawn s).boot = s.boot := rfl
@[simp] theorem drawn_out : (drawn s).out = s.out := rfl
@[simp] theorem drawn_pending : (drawn s).pending = s.pending := rfl

/-! ### `tick` -/

@[simp] theorem tick_rf (t : Nat) : (tick t s).rf = s.rf := rfl
@[simp] theorem tick_port (t : Nat) : (tick t s).port = s.port := rfl
@[simp] theorem tick_tbl (t : Nat) : (tick t s).tbl = s.tbl := rfl
@[simp] theorem tick_pal (t : Nat) : (tick t s).pal = s.pal := rfl
@[simp] theorem tick_sched (t : Nat) : (tick t s).sched = s.sched := rfl
@[simp] theorem tick_tele (t : Nat) : (tick t s).tele = s.tele := rfl
@[simp] theorem tick_cmd (t : Nat) : (tick t s).cmd = s.cmd := rfl
@[simp] theorem tick_host (t : Nat) : (tick t s).host = s.host := rfl
@[simp] theorem tick_eng (t : Nat) : (tick t s).eng = s.eng := rfl
@[simp] theorem tick_fw (t : Nat) : (tick t s).fw = s.fw := rfl
@[simp] theorem tick_stl (t : Nat) : (tick t s).stl = s.stl := rfl
@[simp] theorem tick_twin (t : Nat) : (tick t s).twin = s.twin := rfl
@[simp] theorem tick_chain (t : Nat) : (tick t s).chain = s.chain := rfl
@[simp] theorem tick_pwr (t : Nat) : (tick t s).pwr = s.pwr := rfl
@[simp] theorem tick_flt (t : Nat) : (tick t s).flt = s.flt := rfl
@[simp] theorem tick_fuse (t : Nat) : (tick t s).fuse = s.fuse := rfl
@[simp] theorem tick_boot (t : Nat) : (tick t s).boot = s.boot := rfl
@[simp] theorem tick_free (t : Nat) : (tick t s).free = s.free := rfl
@[simp] theorem tick_out (t : Nat) : (tick t s).out = s.out := rfl
@[simp] theorem tick_pending (t : Nat) : (tick t s).pending = s.pending := rfl

/-! ### `setEngine` -/

@[simp] theorem setEngine_rf (e : Nat) (x : Engine) : (setEngine e x s).rf = s.rf := rfl
@[simp] theorem setEngine_clk (e : Nat) (x : Engine) : (setEngine e x s).clk = s.clk := rfl
@[simp] theorem setEngine_port (e : Nat) (x : Engine) : (setEngine e x s).port = s.port := rfl
@[simp] theorem setEngine_tbl (e : Nat) (x : Engine) : (setEngine e x s).tbl = s.tbl := rfl
@[simp] theorem setEngine_pal (e : Nat) (x : Engine) : (setEngine e x s).pal = s.pal := rfl
@[simp] theorem setEngine_sched (e : Nat) (x : Engine) : (setEngine e x s).sched = s.sched := rfl
@[simp] theorem setEngine_tele (e : Nat) (x : Engine) : (setEngine e x s).tele = s.tele := rfl
@[simp] theorem setEngine_cmd (e : Nat) (x : Engine) : (setEngine e x s).cmd = s.cmd := rfl
@[simp] theorem setEngine_host (e : Nat) (x : Engine) : (setEngine e x s).host = s.host := rfl
@[simp] theorem setEngine_fw (e : Nat) (x : Engine) : (setEngine e x s).fw = s.fw := rfl
@[simp] theorem setEngine_stl (e : Nat) (x : Engine) : (setEngine e x s).stl = s.stl := rfl
@[simp] theorem setEngine_twin (e : Nat) (x : Engine) : (setEngine e x s).twin = s.twin := rfl
@[simp] theorem setEngine_chain (e : Nat) (x : Engine) : (setEngine e x s).chain = s.chain := rfl
@[simp] theorem setEngine_pwr (e : Nat) (x : Engine) : (setEngine e x s).pwr = s.pwr := rfl
@[simp] theorem setEngine_flt (e : Nat) (x : Engine) : (setEngine e x s).flt = s.flt := rfl
@[simp] theorem setEngine_fuse (e : Nat) (x : Engine) : (setEngine e x s).fuse = s.fuse := rfl
@[simp] theorem setEngine_boot (e : Nat) (x : Engine) : (setEngine e x s).boot = s.boot := rfl
@[simp] theorem setEngine_free (e : Nat) (x : Engine) : (setEngine e x s).free = s.free := rfl
@[simp] theorem setEngine_out (e : Nat) (x : Engine) : (setEngine e x s).out = s.out := rfl
@[simp] theorem setEngine_pending (e : Nat) (x : Engine) : (setEngine e x s).pending = s.pending := rfl

/-! ### `setWide` -/

theorem setWide_eq (n : RegName) (i v w : Nat) : ∃ ws, setWide n i v w s = { s with rf := { s.rf with words := ws } } := by
  induction w with
  | zero => exact ⟨s.rf.words, rfl⟩
  | succ w ih =>
    obtain ⟨ws, h⟩ := ih
    exact ⟨_, by rw [setWide, h, setReg]⟩

@[simp] theorem setWide_clk (n : RegName) (i v w : Nat) : (setWide n i v w s).clk = s.clk := by
  obtain ⟨_, h⟩ := setWide_eq s n i v w; rw [h]
@[simp] theorem setWide_port (n : RegName) (i v w : Nat) : (setWide n i v w s).port = s.port := by
  obtain ⟨_, h⟩ := setWide_eq s n i v w; rw [h]
@[simp] theorem setWide_tbl (n : RegName) (i v w : Nat) : (setWide n i v w s).tbl = s.tbl := by
  obtain ⟨_, h⟩ := setWide_eq s n i v w; rw [h]
@[simp] theorem setWide_pal (n : RegName) (i v w : Nat) : (setWide n i v w s).pal = s.pal := by
  obtain ⟨_, h⟩ := setWide_eq s n i v w; rw [h]
@[simp] theorem setWide_sched (n : RegName) (i v w : Nat) : (setWide n i v w s).sched = s.sched := by
  obtain ⟨_, h⟩ := setWide_eq s n i v w; rw [h]
@[simp] theorem setWide_tele (n : RegName) (i v w : Nat) : (setWide n i v w s).tele = s.tele := by
  obtain ⟨_, h⟩ := setWide_eq s n i v w; rw [h]
@[simp] theorem setWide_cmd (n : RegName) (i v w : Nat) : (setWide n i v w s).cmd = s.cmd := by
  obtain ⟨_, h⟩ := setWide_eq s n i v w; rw [h]
@[simp] theorem setWide_host (n : RegName) (i v w : Nat) : (setWide n i v w s).host = s.host := by
  obtain ⟨_, h⟩ := setWide_eq s n i v w; rw [h]
@[simp] theorem setWide_eng (n : RegName) (i v w : Nat) : (setWide n i v w s).eng = s.eng := by
  obtain ⟨_, h⟩ := setWide_eq s n i v w; rw [h]
@[simp] theorem setWide_fw (n : RegName) (i v w : Nat) : (setWide n i v w s).fw = s.fw := by
  obtain ⟨_, h⟩ := setWide_eq s n i v w; rw [h]
@[simp] theorem setWide_stl (n : RegName) (i v w : Nat) : (setWide n i v w s).stl = s.stl := by
  obtain ⟨_, h⟩ := setWide_eq s n i v w; rw [h]
@[simp] theorem setWide_twin (n : RegName) (i v w : Nat) : (setWide n i v w s).twin = s.twin := by
  obtain ⟨_, h⟩ := setWide_eq s n i v w; rw [h]
@[simp] theorem setWide_chain (n : RegName) (i v w : Nat) : (setWide n i v w s).chain = s.chain := by
  obtain ⟨_, h⟩ := setWide_eq s n i v w; rw [h]
@[simp] theorem setWide_pwr (n : RegName) (i v w : Nat) : (setWide n i v w s).pwr = s.pwr := by
  obtain ⟨_, h⟩ := setWide_eq s n i v w; rw [h]
@[simp] theorem setWide_flt (n : RegName) (i v w : Nat) : (setWide n i v w s).flt = s.flt := by
  obtain ⟨_, h⟩ := setWide_eq s n i v w; rw [h]
@[simp] theorem setWide_fuse (n : RegName) (i v w : Nat) : (setWide n i v w s).fuse = s.fuse := by
  obtain ⟨_, h⟩ := setWide_eq s n i v w; rw [h]
@[simp] theorem setWide_boot (n : RegName) (i v w : Nat) : (setWide n i v w s).boot = s.boot := by
  obtain ⟨_, h⟩ := setWide_eq s n i v w; rw [h]
@[simp] theorem setWide_free (n : RegName) (i v w : Nat) : (setWide n i v w s).free = s.free := by
  obtain ⟨_, h⟩ := setWide_eq s n i v w; rw [h]
@[simp] theorem setWide_out (n : RegName) (i v w : Nat) : (setWide n i v w s).out = s.out := by
  obtain ⟨_, h⟩ := setWide_eq s n i v w; rw [h]
@[simp] theorem setWide_pending (n : RegName) (i v w : Nat) : (setWide n i v w s).pending = s.pending := by
  obtain ⟨_, h⟩ := setWide_eq s n i v w; rw [h]

/-! ### The words that an update of something else leaves alone -/

@[simp] theorem setReg_marks (n : RegName) (i j : Nat) (v : W32) : (setReg n i j v s).rf.marks = s.rf.marks := rfl
@[simp] theorem setReg_shadow (n : RegName) (i j : Nat) (v : W32) : (setReg n i j v s).rf.shadow = s.rf.shadow := rfl
@[simp] theorem setReg_held (n : RegName) (i j : Nat) (v : W32) : (setReg n i j v s).rf.held = s.rf.held := rfl
@[simp] theorem setReg_touched (n : RegName) (i j : Nat) (v : W32) : (setReg n i j v s).rf.touched = s.rf.touched := rfl
@[simp] theorem setF_marks (f : Fld) (i j v : Nat) : (setF f i j v s).rf.marks = s.rf.marks := rfl
@[simp] theorem setF_shadow (f : Fld) (i j v : Nat) : (setF f i j v s).rf.shadow = s.rf.shadow := rfl
@[simp] theorem setF_held (f : Fld) (i j v : Nat) : (setF f i j v s).rf.held = s.rf.held := rfl
@[simp] theorem setF_touched (f : Fld) (i j v : Nat) : (setF f i j v s).rf.touched = s.rf.touched := rfl
@[simp] theorem bump_marks (n : RegName) (i j k : Nat) : (bump n i j k s).rf.marks = s.rf.marks := rfl
@[simp] theorem bump_shadow (n : RegName) (i j k : Nat) : (bump n i j k s).rf.shadow = s.rf.shadow := rfl
@[simp] theorem bump_held (n : RegName) (i j k : Nat) : (bump n i j k s).rf.held = s.rf.held := rfl
@[simp] theorem bump_touched (n : RegName) (i j k : Nat) : (bump n i j k s).rf.touched = s.rf.touched := rfl
@[simp] theorem bumpSat_marks (f : Fld) (i j k : Nat) : (bumpSat f i j k s).rf.marks = s.rf.marks := rfl
@[simp] theorem bumpSat_shadow (f : Fld) (i j k : Nat) : (bumpSat f i j k s).rf.shadow = s.rf.shadow := rfl
@[simp] theorem bumpSat_held (f : Fld) (i j k : Nat) : (bumpSat f i j k s).rf.held = s.rf.held := rfl
@[simp] theorem bumpSat_touched (f : Fld) (i j k : Nat) : (bumpSat f i j k s).rf.touched = s.rf.touched := rfl
@[simp] theorem setMapBit_marks (n : RegName) (k : Nat) (b : Bool) : (setMapBit n k b s).rf.marks = s.rf.marks := rfl
@[simp] theorem setMapBit_shadow (n : RegName) (k : Nat) (b : Bool) : (setMapBit n k b s).rf.shadow = s.rf.shadow := rfl
@[simp] theorem setMapBit_held (n : RegName) (k : Nat) (b : Bool) : (setMapBit n k b s).rf.held = s.rf.held := rfl
@[simp] theorem setMapBit_touched (n : RegName) (k : Nat) (b : Bool) : (setMapBit n k b s).rf.touched = s.rf.touched := rfl

end Sys2Proof.Machine
end

