-- ==== Sys2Proof/Laws/Regs.lean ====
section
/-! SUPPORT. Registers read after they are written: one lemma for each named operation over registers and their fields. -/

namespace Sys2Proof.Machine

variable (s : State)

/-- Two states that differ in register words alone. -/
def OnlyWords (s s' : State) : Prop := ∃ ws, s' = { s with rf := { s.rf with words := ws } }

theorem OnlyWords.refl : OnlyWords s s := ⟨s.rf.words, rfl⟩

theorem OnlyWords.trans {a b c : State} (h1 : OnlyWords a b) (h2 : OnlyWords b c) : OnlyWords a c := by
  obtain ⟨w1, rfl⟩ := h1
  obtain ⟨w2, rfl⟩ := h2
  exact ⟨w2, rfl⟩

theorem OnlyWords.setReg (n : RegName) (i j : Nat) (v : W32) : OnlyWords s (setReg n i j v s) := ⟨_, rfl⟩
theorem OnlyWords.setF (f : Fld) (i j v : Nat) : OnlyWords s (setF f i j v s) := ⟨_, rfl⟩
theorem OnlyWords.bump (n : RegName) (i j k : Nat) : OnlyWords s (bump n i j k s) := ⟨_, rfl⟩
theorem OnlyWords.bumpSat (f : Fld) (i j k : Nat) : OnlyWords s (bumpSat f i j k s) := ⟨_, rfl⟩
theorem OnlyWords.setMapBit (n : RegName) (k : Nat) (b : Bool) : OnlyWords s (setMapBit n k b s) := ⟨_, rfl⟩
theorem OnlyWords.setWide (n : RegName) (i v w : Nat) : OnlyWords s (setWide n i v w s) := setWide_eq s n i v w

/-- A register is a function of the register words alone. -/
theorem reg_congr {s s' : State} (h : s'.rf.words = s.rf.words) (n : RegName) (i j : Nat) : reg s' n i j = reg s n i j := by
  simp [reg, h]

/-- A field is a function of the register words alone. -/
theorem getF_congr {s s' : State} (h : s'.rf.words = s.rf.words) (f : Fld) (i j : Nat) : getF s' f i j = getF s f i j := by
  simp [getF, reg, h]

/-- A register after a write of one register. -/
theorem reg_setReg (n n' : RegName) (i j i' j' : Nat) (v : W32) :
    reg (setReg n i j v s) n' i' j' = if n = n' ∧ i = i' ∧ j = j' then v else reg s n' i' j' := by
  simp only [reg, setReg, tgetD_tset, RegKey.mk.injEq]

theorem reg_setReg_same (n : RegName) (i j : Nat) (v : W32) : reg (setReg n i j v s) n i j = v := by simp [reg_setReg]

theorem reg_setReg_ne (n n' : RegName) (i j i' j' : Nat) (v : W32) (h : ¬ (n = n' ∧ i = i' ∧ j = j')) :
    reg (setReg n i j v s) n' i' j' = reg s n' i' j' := by rw [reg_setReg, if_neg h]

/-- Every other register after a field is written. -/
theorem reg_setF_ne (f : Fld) (n' : RegName) (i j i' j' v : Nat) (h : ¬ (f.reg = n' ∧ i = i' ∧ j = j')) :
    reg (setF f i j v s) n' i' j' = reg s n' i' j' := reg_setReg_ne s _ _ _ _ _ _ _ h

/-- A register after one of its fields is written, as a number. -/
theorem reg_setF_toNat (f : Fld) (i j v : Nat) (h : f.lo + f.w ≤ 32) :
    (reg (setF f i j v s) f.reg i j).toNat = putBits (reg s f.reg i j).toNat f.lo f.w v := by
  rw [setF, reg_setReg_same, BitVec.toNat_ofNat, Nat.mod_eq_of_lt (putBits_lt _ _ _ _ (BitVec.isLt _) h)]

/-- A field after it is written. -/
theorem getF_setF_same (f : Fld) (i j v : Nat) (h : f.lo + f.w ≤ 32) : getF (setF f i j v s) f i j = v % 2 ^ f.w := by
  rw [getF, reg_setF_toNat s f i j v h, bits_putBits_same]

/-- A field of the same register that lies apart from the written one. -/
theorem getF_setF_apart (f g : Fld) (i j v : Nat) (hf : f.lo + f.w ≤ 32) (hr : f.reg = g.reg)
    (h : g.lo + g.w ≤ f.lo ∨ f.lo + f.w ≤ g.lo) : getF (setF f i j v s) g i j = getF s g i j := by
  rw [getF, ← hr, reg_setF_toNat s f i j v hf, bits_putBits_other _ _ _ _ _ _ h, getF, hr]

/-- A field of another register. -/
theorem getF_setF_ne (f g : Fld) (i j i' j' v : Nat) (h : ¬ (f.reg = g.reg ∧ i = i' ∧ j = j')) :
    getF (setF f i j v s) g i' j' = getF s g i' j' := by rw [getF, reg_setF_ne s f g.reg i j i' j' v h, getF]

/-- A field of a register other than the one written. -/
theorem getF_setReg_ne (n : RegName) (g : Fld) (i j i' j' : Nat) (v : W32) (h : ¬ (n = g.reg ∧ i = i' ∧ j = j')) :
    getF (setReg n i j v s) g i' j' = getF s g i' j' := by rw [getF, reg_setReg_ne s n g.reg i j i' j' v h, getF]

/-- Every other register after a counter advances. -/
theorem reg_bump_ne (n n' : RegName) (i j k i' j' : Nat) (h : ¬ (n = n' ∧ i = i' ∧ j = j')) :
    reg (bump n i j k s) n' i' j' = reg s n' i' j' := reg_setReg_ne s _ _ _ _ _ _ _ h

/-- A counter after it advances: it wraps modulo 2^32. -/
theorem reg_bump_same (n : RegName) (i j k : Nat) : reg (bump n i j k s) n i j = reg s n i j + BitVec.ofNat 32 k := by
  rw [bump, reg_setReg_same]
  apply BitVec.eq_of_toNat_eq
  simp [BitVec.toNat_add]

/-- A field of another register after a counter advances. -/
theorem getF_bump_ne (n : RegName) (g : Fld) (i j k i' j' : Nat) (h : ¬ (n = g.reg ∧ i = i' ∧ j = j')) :
    getF (bump n i j k s) g i' j' = getF s g i' j' := by rw [getF, reg_bump_ne s n g.reg i j k i' j' h, getF]

/-- Other registers after a wide value is written. -/
theorem reg_setWide_ne (n n' : RegName) (i v w i' j' : Nat) (h : ¬ (n = n' ∧ i = i')) :
    reg (setWide n i v w s) n' i' j' = reg s n' i' j' := by
  induction w with
  | zero => rfl
  | succ w ih => rw [setWide, reg_setReg_ne _ _ _ _ _ _ _ _ (fun e => h ⟨e.1, e.2.1⟩), ih]

/-- Words past the written ones. -/
theorem reg_setWide_past (n : RegName) (i v w j : Nat) (h : w ≤ j) : reg (setWide n i v w s) n i j = reg s n i j := by
  induction w with
  | zero => rfl
  | succ w ih => rw [setWide, reg_setReg_ne _ _ _ _ _ _ _ _ (by omega), ih (by omega)]

/-- Each word of a wide value after it is written. -/
theorem reg_setWide_same (n : RegName) (i v w j : Nat) (h : j < w) :
    reg (setWide n i v w s) n i j = BitVec.ofNat 32 (v / 2 ^ (32 * j)) := by
  induction w with
  | zero => omega
  | succ w ih =>
    rw [setWide, reg_setReg]
    by_cases e : w = j
    · subst e; simp
    · rw [if_neg (by simp [e]), ih (by omega)]

theorem wide_setReg_past (n : RegName) (i k w : Nat) (v : W32) (h : w ≤ k) : wide (setReg n i k v s) n i w = wide s n i w := by
  induction w with
  | zero => rfl
  | succ w ih => rw [wide, wide, ih (by omega), reg_setReg_ne _ _ _ _ _ _ _ _ (by omega)]

/-- A wide value after it is written. -/
theorem wide_setWide (n : RegName) (i v w : Nat) : wide (setWide n i v w s) n i w = v % 2 ^ (32 * w) := by
  induction w with
  | zero => simp [wide, Nat.mod_one]
  | succ w ih =>
    rw [setWide, wide, wide_setReg_past _ _ _ _ _ _ (Nat.le_refl w), ih, reg_setReg_same, BitVec.toNat_ofNat,
      show 32 * (w + 1) = 32 * w + 32 by omega, Nat.pow_add, Nat.mod_mul, Nat.mul_comm (v / _ % _)]

/-- A wide value after a write of another register. -/
theorem wide_setReg_ne (n n' : RegName) (i j i' w : Nat) (v : W32) (h : ¬ (n = n' ∧ i = i')) :
    wide (setReg n i j v s) n' i' w = wide s n' i' w := by
  induction w with
  | zero => rfl
  | succ w ih => rw [wide, wide, ih, reg_setReg_ne _ _ _ _ _ _ _ _ (fun e => h ⟨e.1, e.2.1⟩)]

/-! The same for registers of different names: the side condition is closed, so that `simp (disch := decide)` settles it. -/

theorem reg_setReg_of {n n' : RegName} (h : n ≠ n') (i j i' j' : Nat) (v : W32) : reg (setReg n i j v s) n' i' j' = reg s n' i' j' :=
  reg_setReg_ne s _ _ _ _ _ _ _ (fun e => h e.1)
theorem reg_setF_of {f : Fld} {n' : RegName} (h : f.reg ≠ n') (i j i' j' v : Nat) : reg (setF f i j v s) n' i' j' = reg s n' i' j' :=
  reg_setF_ne s _ _ _ _ _ _ _ (fun e => h e.1)
theorem reg_bump_of {n n' : RegName} (h : n ≠ n') (i j k i' j' : Nat) : reg (bump n i j k s) n' i' j' = reg s n' i' j' :=
  reg_bump_ne s _ _ _ _ _ _ _ (fun e => h e.1)
theorem reg_bumpSat_of {f : Fld} {n' : RegName} (h : f.reg ≠ n') (i j k i' j' : Nat) : reg (bumpSat f i j k s) n' i' j' = reg s n' i' j' :=
  reg_setF_ne s _ _ _ _ _ _ _ (fun e => h e.1)
theorem reg_setWide_of {n n' : RegName} (h : n ≠ n') (i v w i' j' : Nat) : reg (setWide n i v w s) n' i' j' = reg s n' i' j' :=
  reg_setWide_ne s _ _ _ _ _ _ _ (fun e => h e.1)
theorem getF_setReg_of {n : RegName} {g : Fld} (h : n ≠ g.reg) (i j i' j' : Nat) (v : W32) :
    getF (setReg n i j v s) g i' j' = getF s g i' j' := getF_setReg_ne s _ _ _ _ _ _ _ (fun e => h e.1)
theorem getF_setF_of {f g : Fld} (h : f.reg ≠ g.reg) (i j i' j' v : Nat) : getF (setF f i j v s) g i' j' = getF s g i' j' :=
  getF_setF_ne s _ _ _ _ _ _ _ (fun e => h e.1)
theorem getF_bump_of {n : RegName} {g : Fld} (h : n ≠ g.reg) (i j k i' j' : Nat) : getF (bump n i j k s) g i' j' = getF s g i' j' :=
  getF_bump_ne s _ _ _ _ _ _ _ (fun e => h e.1)
theorem getF_bumpSat_of {f g : Fld} (h : f.reg ≠ g.reg) (i j k i' j' : Nat) : getF (bumpSat f i j k s) g i' j' = getF s g i' j' :=
  getF_setF_ne s _ _ _ _ _ _ _ (fun e => h e.1)
theorem getF_setWide_of {n : RegName} {g : Fld} (h : n ≠ g.reg) (i v w i' j' : Nat) :
    getF (setWide n i v w s) g i' j' = getF s g i' j' := by rw [getF, reg_setWide_of s h, getF]
theorem wide_setF_of {f : Fld} {n' : RegName} (h : f.reg ≠ n') (i j v i' w : Nat) : wide (setF f i j v s) n' i' w = wide s n' i' w :=
  wide_setReg_ne s _ _ _ _ _ _ _ (fun e => h e.1)
theorem wide_bump_of {n n' : RegName} (h : n ≠ n') (i j k i' w : Nat) : wide (bump n i j k s) n' i' w = wide s n' i' w :=
  wide_setReg_ne s _ _ _ _ _ _ _ (fun e => h e.1)
theorem wide_setReg_of {n n' : RegName} (h : n ≠ n') (i j i' w : Nat) (v : W32) : wide (setReg n i j v s) n' i' w = wide s n' i' w :=
  wide_setReg_ne s _ _ _ _ _ _ _ (fun e => h e.1)
theorem wide_congr {n : RegName} {i : Nat} {s s' : State} (h : ∀ j, reg s' n i j = reg s n i j) (w : Nat) : wide s' n i w = wide s n i w := by
  induction w with
  | zero => rfl
  | succ w ih => rw [wide, wide, ih, h]
theorem wide_setWide_of {n n' : RegName} (h : n ≠ n') (i v k i' w : Nat) : wide (setWide n i v k s) n' i' w = wide s n' i' w :=
  wide_congr (fun _ => reg_setWide_of s h _ _ _ _ _) w

/-- A saturating field after it advances. -/
theorem getF_bumpSat_same (f : Fld) (i j k : Nat) (h : f.lo + f.w ≤ 32) :
    getF (bumpSat f i j k s) f i j = min (getF s f i j + k) (2 ^ f.w - 1) := by
  rw [bumpSat, getF_setF_same s f i j _ h, Nat.mod_eq_of_lt]
  have := Nat.two_pow_pos f.w
  omega

/-- A field that lies apart from one that advances in the same register. -/
theorem getF_bumpSat_apart (f g : Fld) (i j k : Nat) (hf : f.lo + f.w ≤ 32) (hr : f.reg = g.reg)
    (h : g.lo + g.w ≤ f.lo ∨ f.lo + f.w ≤ g.lo) : getF (bumpSat f i j k s) g i j = getF s g i j :=
  getF_setF_apart s f g i j _ hf hr h

/-- A field that spans a whole register, after the register is set. -/
theorem getF_setReg_same (g : Fld) (i j : Nat) (v : W32) : getF (setReg g.reg i j v s) g i j = bits v.toNat g.lo g.w := by
  rw [getF, reg_setReg_same]

/-- A bit of a bit map after one of its bits is written. -/
theorem mapBit_setMapBit (n : RegName) (k k' : Nat) (b : Bool) :
    mapBit (setMapBit n k b s) n k' = if k = k' then b else mapBit s n k' := by
  unfold mapBit setMapBit
  by_cases hw : k / 32 = k' / 32
  · have hl : putBit (reg s n (k / 32) 0).toNat (k % 32) b < 2 ^ 32 := putBits_lt _ _ _ _ (BitVec.isLt _) (by omega)
    rw [← hw, reg_setReg_same, BitVec.toNat_ofNat, Nat.mod_eq_of_lt hl, bit_putBit]
    by_cases h : k = k'
    · simp [h]
    · rw [if_neg (by omega), if_neg h]
  · rw [reg_setReg_ne _ _ _ _ _ _ _ _ (by omega), if_neg (by omega)]

/-- Another register after a bit of a bit map is written. -/
theorem reg_setMapBit_ne (n n' : RegName) (k i' j' : Nat) (b : Bool) (h : n ≠ n') :
    reg (setMapBit n k b s) n' i' j' = reg s n' i' j' := reg_setReg_ne s _ _ _ _ _ _ _ (fun e => h e.1)

@[simp] theorem reg_emit (o : Out) (n : RegName) (i j : Nat) : reg (emit o s) n i j = reg s n i j := rfl
@[simp] theorem reg_drawn (n : RegName) (i j : Nat) : reg (drawn s) n i j = reg s n i j := rfl
@[simp] theorem reg_tick (t : Nat) (n : RegName) (i j : Nat) : reg (tick t s) n i j = reg s n i j := rfl
@[simp] theorem reg_addCtr (a u k m : Nat) (n : RegName) (i j : Nat) : reg (addCtr a u k m s) n i j = reg s n i j := rfl
@[simp] theorem reg_setEngine (e : Nat) (x : Engine) (n : RegName) (i j : Nat) : reg (setEngine e x s) n i j = reg s n i j := rfl
@[simp] theorem getF_emit (o : Out) (f : Fld) (i j : Nat) : getF (emit o s) f i j = getF s f i j := rfl
@[simp] theorem getF_drawn (f : Fld) (i j : Nat) : getF (drawn s) f i j = getF s f i j := rfl
@[simp] theorem getF_tick (t : Nat) (f : Fld) (i j : Nat) : getF (tick t s) f i j = getF s f i j := rfl
@[simp] theorem getF_addCtr (a u k m : Nat) (f : Fld) (i j : Nat) : getF (addCtr a u k m s) f i j = getF s f i j := rfl
@[simp] theorem getF_setEngine (e : Nat) (x : Engine) (f : Fld) (i j : Nat) : getF (setEngine e x s) f i j = getF s f i j := rfl

/-- Time alone leaves the conditions of the device as they are. -/
@[simp] theorem running_tick (t : Nat) : running (tick t s) = running s := rfl
@[simp] theorem isSafe_tick (t : Nat) : isSafe (tick t s) = isSafe s := rfl
@[simp] theorem halted_tick (t : Nat) : halted (tick t s) = halted s := rfl
@[simp] theorem bootStage_tick (t : Nat) : bootStage (tick t s) = bootStage s := rfl

/-- The engine's state after it is set, and another's. -/
@[simp] theorem engine_setEngine (e e' : Nat) (x : Engine) :
    engine (setEngine e x s) e' = if e = e' then x else engine s e' := by simp [engine, setEngine]

/-- A 64-bit counter after one advances. -/
@[simp] theorem ctr_addCtr (a u k n a' u' k' : Nat) :
    ctr (addCtr a u k n s) a' u' k' = if (a, u, k) = (a', u', k') then (ctr s a u k + n) % 2 ^ 64 else ctr s a' u' k' := by
  simp only [ctr, addCtr, tgetD_tset]

end Sys2Proof.Machine
end

