-- ==== Sys2Proof/Laws/Conditions.lean ====
section
/-! SUPPORT. What each wrapper of a meaning answers: under which conditions of the device a command has its effect, and what it leaves otherwise. -/

namespace Sys2Proof.Machine

open Sys2Proof.Safety

/-- `need` with its unit present. -/
@[simp] theorem need_ok (what : String) (n : Nat) (k : Res) : need true what n k = k := rfl

theorem need_of {ok : Bool} (h : ok = true) (what : String) (n : Nat) (k : Res) : need ok what n k = k := by subst h; rfl

/-- A live command in an operating device runs at its instant. -/
theorem live_runs {s : State} (h : Operating s) (t : Nat) (f : State → State) : live t f s = .next (f (tick t s)) := by
  simp [live, h.1, h.2]

/-- A live command in a frozen or unpowered device changes nothing. -/
theorem live_halted {s : State} (h : halted s = true) (t : Nat) (f : State → State) : live t f s = .next s := by
  simp [live, h]

/-- A live command while the clocks stand (safe state, thermal trip) only lets time pass. -/
theorem live_stopped {s : State} (h : halted s = false) (hr : running s = false) (t : Nat) (f : State → State) :
    live t f s = .next (tick t s) := by simp [live, h, hr]

/-- A live command answers a next state in every state. -/
theorem live_answers (t : Nat) (f : State → State) (s : State) : ∃ s', live t f s = .next s' := by
  unfold live; split
  · exact ⟨_, rfl⟩
  · split <;> exact ⟨_, rfl⟩

/-- A command of the always-on island in a powered device runs at its instant. -/
theorem aon_runs {s : State} (h : halted s = false) (t : Nat) (f : State → State) : aon t f s = .next (f (tick t s)) := by
  simp [aon, h]

theorem aon_halted {s : State} (h : halted s = true) (t : Nat) (f : State → State) : aon t f s = .next s := by simp [aon, h]

theorem aon_answers (t : Nat) (f : State → State) (s : State) : ∃ s', aon t f s = .next s' := by
  unfold aon; split <;> exact ⟨_, rfl⟩

/-- An access from the host, from core release on: the host is attached again once the link serves it. -/
theorem hif_runs {s : State} (h : halted s = false) (ht : s.flt.tripped = false) (hb : bootStage s ≠ 0) (t : Nat) (f : State → State) :
    hif t f s = .next (f (attach (tick t s))) := by
  simp [hif, aon_runs h, ht, hb]

theorem hif_halted {s : State} (h : halted s = true) (t : Nat) (f : State → State) : hif t f s = .next s := aon_halted h t _

theorem hif_answers (t : Nat) (f : State → State) (s : State) : ∃ s', hif t f s = .next s' := aon_answers t _ s

/-- A command ring's register in a device without a thermal trip. -/
theorem served_runs {s : State} (h : halted s = false) (ht : s.flt.tripped = false) (t : Nat) (f : State → State) :
    served t f s = .next (f (attach (tick t s))) := by
  simp [served, aon_runs h, ht]

theorem served_halted {s : State} (h : halted s = true) (t : Nat) (f : State → State) : served t f s = .next s := aon_halted h t _

theorem served_answers (t : Nat) (f : State → State) (s : State) : ∃ s', served t f s = .next s' := aon_answers t _ s

/-- An operating device is not in the safe state and has not tripped. -/
theorem not_safe_of_running {s : State} (h : running s = true) : isSafe s = false := by
  unfold running at h; cases hs : isSafe s <;> simp_all

theorem not_tripped_of_running {s : State} (h : running s = true) : s.flt.tripped = false := by
  unfold running at h; cases hs : s.flt.tripped <;> simp_all

/-- A packet's command that is admitted and whose parameters pass has its effect at its instant. -/
theorem runCmd_runs {s : State} {h : Hdr} {op : Nat} {checks : State → Chk} {cls : State → Option Nat} {c : Option Nat}
    (ha : Admitted s h op c) (hc : cls (tick h.t s) = c) (hk : checks (tick h.t s) = none) (body : State → State) :
    runCmd op h checks cls body s = .next (body (tick h.t s)) := by
  obtain ⟨⟨⟨h1, h2⟩, h3⟩, h4⟩ := ha
  have ht : (tick h.t s).flt.tripped = false := not_tripped_of_running h2
  have hs : isSafe s = false := not_safe_of_running h2
  have ho : outCmd (tick h.t s) h.serial = outCmd s h.serial := rfl
  have hl (k : Nat) : lockAgainst (tick h.t s) h k = lockAgainst s h k := rfl
  have hg : stageAllows (tick h.t s) op = true := by simp [stageAllows, h3]
  unfold admitted at h4
  unfold runCmd
  rw [Bool.and_eq_true] at h4
  obtain ⟨h5, h6⟩ := h4
  have hd : ∀ o, outCmd (tick h.t s) h.serial = some o → o.dispatched = true := by
    intro o hx; rw [ho] at hx; rw [hx] at h5; exact h5
  have hgate : (!stageAllows (tick h.t s) op || (match outCmd (tick h.t s) h.serial with
      | some o => !o.dispatched
      | none => false)) = false := by
    rw [hg]; cases hx : outCmd (tick h.t s) h.serial with
    | none => rfl
    | some o => simp [hd o hx]
  simp only [h1, isSafe_tick, bootStage_tick, h3, ht, hs, Bool.false_eq_true, if_false]
  rw [if_neg (by rw [Bool.not_eq_true]; exact hgate)]
  cases hi : opInfo op with
  | none => rw [hi] at h6; simp at h6
  | some i =>
    rw [hi] at h6
    simp only [Bool.and_eq_true, Bool.not_eq_true'] at h6
    obtain ⟨⟨hp, hn'⟩, hlk⟩ := h6
    simp only [hp, hk, hn', hc]
    cases c with
    | none => simp
    | some k =>
      have hlk' : i.kind = .r ∨ lockAgainst s h k = none := by simpa using hlk
      simp only [hl]
      rcases hlk' with e | e
      · simp [e]
      · by_cases er : i.kind = .r <;> simp [er, e]

/-- A packet's command answers a next state in every state. -/
theorem runCmd_answers (op : Nat) (h : Hdr) (checks : State → Chk) (cls : State → Option Nat) (body : State → State) (s : State) :
    ∃ s', runCmd op h checks cls body s = .next s' := by
  unfold runCmd
  repeat' first
    | exact ⟨_, rfl⟩
    | split
    | (simp only; split)

/-- A packet's command in a frozen or unpowered device changes nothing. -/
theorem runCmd_halted {s : State} (hh : halted s = true) (op : Nat) (h : Hdr) (checks : State → Chk) (cls : State → Option Nat)
    (body : State → State) : runCmd op h checks cls body s = .next s := by simp [runCmd, hh]

/-- A packet's command in the safe state is answered with SAFE_STATE (R383). -/
theorem runCmd_safe {s : State} (hh : halted s = false) (ht : s.flt.tripped = false) (hs : isSafe s = true) (op : Nat) (h : Hdr)
    (checks : State → Chk) (cls : State → Option Nat) (body : State → State) :
    runCmd op h checks cls body s = .next (failWith h op 0x33 0 (tick h.t s)) := by
  simp [runCmd, hh, ht, hs]

end Sys2Proof.Machine
end

