-- ==== Sys2Proof/Laws/Events.lean ====
section
/-! SUPPORT. What recording and raising an event can change, and what it leaves as it was. -/

namespace Sys2Proof.Machine

open Sys2Proof.Safety

variable (s : State)

/-- Two states that differ in registers and their marks and in what has left the device alone. -/
def OnlySent (s s' : State) : Prop := ∃ r o, s' = { s with rf := r, out := o }

theorem OnlySent.refl : OnlySent s s := ⟨s.rf, s.out, rfl⟩

theorem OnlySent.trans {a b c : State} (h1 : OnlySent a b) (h2 : OnlySent b c) : OnlySent a c := by
  obtain ⟨r1, o1, rfl⟩ := h1
  obtain ⟨r2, o2, rfl⟩ := h2
  exact ⟨r2, o2, rfl⟩

theorem OnlyWords.sent {a b : State} (h : OnlyWords a b) : OnlySent a b := by
  obtain ⟨w, rfl⟩ := h
  exact ⟨_, _, rfl⟩

theorem OnlySent.emit (o : Out) : OnlySent s (emit o s) := ⟨_, _, rfl⟩

/-- Two states that differ only in what an event and the entry to the safe state can change. -/
def OnlyStruck (s s' : State) : Prop := ∃ r o f p d e, s' = { s with rf := r, out := o, flt := f, pal := p, sched := d, tele := e }

theorem OnlyStruck.refl : OnlyStruck s s := ⟨s.rf, s.out, s.flt, s.pal, s.sched, s.tele, rfl⟩

theorem OnlyStruck.trans {a b c : State} (h1 : OnlyStruck a b) (h2 : OnlyStruck b c) : OnlyStruck a c := by
  obtain ⟨r1, o1, f1, p1, d1, e1, rfl⟩ := h1
  obtain ⟨r2, o2, f2, p2, d2, e2, rfl⟩ := h2
  exact ⟨r2, o2, f2, p2, d2, e2, rfl⟩

theorem OnlySent.struck {a b : State} (h : OnlySent a b) : OnlyStruck a b := by
  obtain ⟨r, o, rfl⟩ := h
  exact ⟨_, _, _, _, _, _, rfl⟩

/-- A vector's message changes the pending bits and what leaves the device, nothing else. -/
theorem raiseVector_only (v : Nat) : OnlySent s (raiseVector v s) := by
  unfold raiseVector
  split
  · exact .refl s
  · split
    · exact (OnlyWords.setMapBit ..).sent
    · exact .emit ..

theorem raiseVector_reg (v : Nat) (n : RegName) (i j : Nat) (h : n ≠ .MSIX_PBA) : reg (raiseVector v s) n i j = reg s n i j := by
  unfold raiseVector
  split
  · rfl
  · split
    · exact reg_setMapBit_ne s _ _ _ _ _ _ (fun e => h e.symm)
    · rfl

theorem evVector_only (ev : Nat) : OnlySent s (evVector ev s) := by
  unfold evVector
  split
  · exact raiseVector_only s _
  · exact raiseVector_only s _
  · exact .refl s

theorem evVector_reg (ev : Nat) (n : RegName) (i j : Nat) (h : n ≠ .MSIX_PBA) : reg (evVector ev s) n i j = reg s n i j := by
  unfold evVector
  split
  · exact raiseVector_reg s _ n i j h
  · exact raiseVector_reg s _ n i j h
  · rfl

/-- The register of an event's group is one of `eventRegs`. -/
theorem evReg_mem (ev inst : Nat) : (evReg ev inst).1 ∈ eventRegs := by
  unfold evReg; split <;> simp [eventRegs]

theorem seqReg_mem (n : RegName) (h : n ∈ eventRegs) : seqReg n ∈ eventRegs := by
  unfold seqReg; split
  · simp [eventRegs]
  · exact h

/-- Setting an event's bit changes registers and marks alone. -/
theorem scEvent_only (ev inst : Nat) : OnlySent s (scEvent ev inst s) := ⟨_, s.out, rfl⟩

theorem scEvent_reg (ev inst : Nat) (n : RegName) (i j : Nat) (h : n ∉ eventRegs) : reg (scEvent ev inst s) n i j = reg s n i j := by
  have h1 : (evReg ev inst).1 ≠ n := fun e => h (e ▸ evReg_mem ev inst)
  have h2 : seqReg (evReg ev inst).1 ≠ n := fun e => h (e ▸ seqReg_mem _ (evReg_mem ev inst))
  have e : reg (scEvent ev inst s) n i j = reg (setF ⟨seqReg (evReg ev inst).1, 24, 8⟩ (evReg ev inst).2 0
      (getF (setF ⟨(evReg ev inst).1, ev % 256, 1⟩ (evReg ev inst).2 0 1 s) ⟨seqReg (evReg ev inst).1, 24, 8⟩ (evReg ev inst).2 0 + 1)
      (setF ⟨(evReg ev inst).1, ev % 256, 1⟩ (evReg ev inst).2 0 1 s)) n i j := rfl
  rw [e, reg_setF_ne _ _ _ _ _ _ _ _ (fun e => h2 e.1), reg_setF_ne _ _ _ _ _ _ _ _ (fun e => h1 e.1)]

theorem histEntry_only (ev cls inst syn : Nat) (inj : Bool) : OnlyWords s (histEntry ev cls inst syn inj s) :=
  ((OnlyWords.setWide ..).trans (OnlyWords.setF ..)).trans (OnlyWords.bump ..)

theorem histEntry_reg (ev cls inst syn : Nat) (inj : Bool) (n : RegName) (i j : Nat) (h : n ∉ eventRegs) :
    reg (histEntry ev cls inst syn inj s) n i j = reg s n i j := by
  have h1 : RegName.FLT_HIST ≠ n := fun e => h (e ▸ by simp [eventRegs])
  have h2 : RegName.FLT_STAT ≠ n := fun e => h (e ▸ by simp [eventRegs])
  have h3 : RegName.HIST_TOTAL ≠ n := fun e => h (e ▸ by simp [eventRegs])
  rw [histEntry, reg_bump_ne _ _ _ _ _ _ _ _ (fun e => h3 e.1), reg_setF_ne _ _ _ _ _ _ _ _ (fun e => h2 e.1),
    reg_setWide_ne _ _ _ _ _ _ _ _ (fun e => h1 e.1)]

/-- A line of the console leaves the device; nothing in it changes. -/
theorem consoleLine_only (kind v : Nat) : OnlySent s (consoleLine kind v s) := by
  unfold consoleLine
  split
  · exact .emit ..
  · exact .refl s

@[simp] theorem reg_consoleLine (kind v : Nat) (n : RegName) (i j : Nat) : reg (consoleLine kind v s) n i j = reg s n i j := by
  unfold consoleLine
  split <;> rfl

theorem eventLine_only (ev : Nat) : OnlySent s (eventLine ev s) := by
  unfold eventLine
  split
  · exact consoleLine_only ..
  · exact .refl s

@[simp] theorem reg_eventLine (ev : Nat) (n : RegName) (i j : Nat) : reg (eventLine ev s) n i j = reg s n i j := by
  unfold eventLine
  split <;> simp

/-- Recording an event changes registers, marks and what leaves the device, nothing else. -/
theorem record_only (ev cls inst syn : Nat) (inj : Bool) : OnlySent s (record ev cls inst syn inj s) := by
  unfold record
  simp only
  have h1 : OnlySent s (bump .CLASS_CNT cls 0 1 (scEvent ev inst s)) := (scEvent_only ..).trans (OnlyWords.bump ..).sent
  split
  · exact ((h1.trans (histEntry_only ..).sent).trans (eventLine_only ..)).trans (evVector_only ..)
  · exact (h1.trans (eventLine_only ..)).trans (evVector_only ..)

theorem record_reg (ev cls inst syn : Nat) (inj : Bool) (n : RegName) (i j : Nat) (h : n ∉ eventRegs) :
    reg (record ev cls inst syn inj s) n i j = reg s n i j := by
  have hp : n ≠ .MSIX_PBA := fun e => h (e ▸ by simp [eventRegs])
  have hc : RegName.CLASS_CNT ≠ n := fun e => h (e ▸ by simp [eventRegs])
  unfold record
  simp only
  rw [evVector_reg _ _ _ _ _ hp, reg_eventLine]
  split
  · rw [histEntry_reg _ _ _ _ _ _ _ _ _ h, reg_bump_ne _ _ _ _ _ _ _ _ (fun e => hc e.1), scEvent_reg _ _ _ _ _ _ h]
  · rw [reg_bump_ne _ _ _ _ _ _ _ _ (fun e => hc e.1), scEvent_reg _ _ _ _ _ _ h]

/-- LAST_GASP leaves the device; nothing in it changes. -/
theorem gasps_only (cause : Nat) (l : List Nat) : OnlySent s (l.foldl (fun z n => lastGasp cause n z) s) := by
  induction l generalizing s with
  | nil => exact .refl s
  | cons n l ih => exact OnlySent.trans (OnlySent.emit s _) (ih _)

theorem gasps_reg (cause : Nat) (l : List Nat) (n : RegName) (i j : Nat) :
    reg (l.foldl (fun z n => lastGasp cause n z) s) n i j = reg s n i j := by
  induction l generalizing s with
  | nil => rfl
  | cons n l ih => exact ih _

/-- The flush of the flow caches writes their two registers alone. -/
theorem flushes_only (l : List Nat) :
    OnlySent s (l.foldl (fun z n => setF F.FLOW_ACTIVE_FLOW_ACTIVE n 0 0 (bump .FLOW_EXPORTED n 0 (tgetD s.tele.flows n []).length z)) s) := by
  suffices h : ∀ z : State, OnlySent s z → OnlySent s (l.foldl (fun z n =>
      setF F.FLOW_ACTIVE_FLOW_ACTIVE n 0 0 (bump .FLOW_EXPORTED n 0 (tgetD s.tele.flows n []).length z)) z) from h s (.refl s)
  induction l with
  | nil => exact fun z h => h
  | cons n l ih => exact fun z h => ih _ (h.trans ((OnlyWords.bump ..).trans (OnlyWords.setF ..)).sent)

theorem flushLost_only : OnlySent s (flushLost s) := flushes_only s _

theorem flushLost_reg (n : RegName) (i j : Nat) (h : n ∉ eventRegs) : reg (flushLost s) n i j = reg s n i j := by
  have h1 : RegName.FLOW_ACTIVE ≠ n := fun e => h (e ▸ by simp [eventRegs])
  have h2 : RegName.FLOW_EXPORTED ≠ n := fun e => h (e ▸ by simp [eventRegs])
  unfold flushLost
  suffices hz : ∀ (l : List Nat) (z : State), reg (l.foldl (fun z n =>
      setF F.FLOW_ACTIVE_FLOW_ACTIVE n 0 0 (bump .FLOW_EXPORTED n 0 (tgetD s.tele.flows n []).length z)) z) n i j = reg z n i j from hz _ s
  intro l
  induction l with
  | nil => exact fun z => rfl
  | cons m l ih =>
    intro z
    rw [List.foldl_cons, ih, reg_setF_ne _ _ _ _ _ _ _ _ (fun e => h1 e.1), reg_bump_ne _ _ _ _ _ _ _ _ (fun e => h2 e.1)]

/-- What the entry to the safe state records before the Palette and the queues are lost. -/
def safeRecord (cause ev : Nat) (s : State) : State :=
  flushLost ((gaspPorts s).foldl (fun z n => lastGasp cause n z) (emit (.pin 0 0) (setWide .FLT_SAFE_TOD 0
    s.clk.tod 2 (setF F.FLT_SAFE_EVENT_EVENT_ID 0 0 ev (setF F.FLT_STAT_SAFE_CAUSE 0 0 cause (setF F.FLT_STAT_SAFE 0 0 1 s))))))

/-- Entry to the safe state. -/
theorem enterSafe_only (cause ev : Nat) : OnlyStruck s (enterSafe cause ev s) := by
  have h : OnlyStruck s (safeRecord cause ev s) := OnlySent.struck (((((((OnlyWords.setF ..).trans (OnlyWords.setF ..)).trans (OnlyWords.setF ..)).trans
    (OnlyWords.setWide ..)).sent.trans (OnlySent.emit _ _)).trans (gasps_only _ _ _)).trans (flushLost_only _))
  exact h.trans ⟨_, _, _, _, _, _, rfl⟩

theorem enterSafe_reg (cause ev : Nat) (n : RegName) (i j : Nat) (h : n ∉ eventRegs) : reg (enterSafe cause ev s) n i j = reg s n i j := by
  have h1 : RegName.FLT_STAT ≠ n := fun e => h (e ▸ by simp [eventRegs])
  have h2 : RegName.FLT_SAFE_EVENT ≠ n := fun e => h (e ▸ by simp [eventRegs])
  have h3 : RegName.FLT_SAFE_TOD ≠ n := fun e => h (e ▸ by simp [eventRegs])
  have e : reg (enterSafe cause ev s) n i j = reg (safeRecord cause ev s) n i j := rfl
  rw [e, safeRecord, flushLost_reg _ _ _ _ h, gasps_reg, reg_emit, reg_setWide_ne _ _ _ _ _ _ _ _ (fun e => h3 e.1),
    reg_setF_ne _ _ _ _ _ _ _ _ (fun e => h2 e.1), reg_setF_ne _ _ _ _ _ _ _ _ (fun e => h1 e.1), reg_setF_ne _ _ _ _ _ _ _ _ (fun e => h1 e.1)]

theorem freeze_only (trigger ev : Nat) : OnlyStruck s (freeze trigger ev s) := by
  unfold freeze; simp only; split
  · exact ⟨_, _, _, _, _, _, rfl⟩
  · exact ⟨_, _, _, _, _, _, rfl⟩

theorem freeze_reg (trigger ev : Nat) (n : RegName) (i j : Nat) : reg (freeze trigger ev s) n i j = reg s n i j := by
  unfold freeze; simp only; split <;> rfl

/-- Raising an event changes registers and marks, what leaves the device, the fault state, and what the safe state clears. -/
theorem raiseAs_only (cause ev cls inst syn : Nat) (inj : Bool) : OnlyStruck s (raiseAs cause ev cls inst syn inj s) := by
  have hr := (record_only s ev cls inst syn inj).struck
  unfold raiseAs
  split
  · exact .refl s
  · simp only
    split
    · exact hr.trans (freeze_only ..)
    · split
      · exact hr.trans (freeze_only ..)
      · split
        · have h2 : OnlyStruck s (if ev = Ev.FLT_SAFE_STATE then record ev cls inst syn inj s
              else record Ev.FLT_SAFE_STATE 4 0 0 false (record ev cls inst syn inj s)) := by
            split
            · exact hr
            · exact hr.trans (record_only ..).struck
          split
          · exact h2.trans (freeze_only ..)
          · exact h2.trans (enterSafe_only ..)
        · exact hr

theorem raiseAs_reg (cause ev cls inst syn : Nat) (inj : Bool) (n : RegName) (i j : Nat) (h : n ∉ eventRegs) :
    reg (raiseAs cause ev cls inst syn inj s) n i j = reg s n i j := by
  have hr := record_reg s ev cls inst syn inj n i j h
  unfold raiseAs
  split
  · rfl
  · simp only
    split
    · rw [freeze_reg, hr]
    · split
      · rw [freeze_reg, hr]
      · split
        · have h2 : reg (if ev = Ev.FLT_SAFE_STATE then record ev cls inst syn inj s
              else record Ev.FLT_SAFE_STATE 4 0 0 false (record ev cls inst syn inj s)) n i j = reg s n i j := by
            split
            · exact hr
            · rw [record_reg _ _ _ _ _ _ _ _ _ h, hr]
          split
          · rw [freeze_reg, h2]
          · rw [enterSafe_reg _ _ _ _ _ _ h, h2]
        · exact hr

/-- A register outside `eventRegs` keeps its word while an event is raised. -/
theorem raise_reg (ev inst syn : Nat) (n : RegName) (i j : Nat) (h : n ∉ eventRegs) : reg (raise ev inst syn s) n i j = reg s n i j :=
  raiseAs_reg s _ _ _ _ _ _ n i j h

/-- A field outside `eventRegs` keeps its value while an event is raised. -/
theorem raise_getF (ev inst syn : Nat) (f : Fld) (i j : Nat) (h : f.reg ∉ eventRegs) : getF (raise ev inst syn s) f i j = getF s f i j := by
  rw [getF, raise_reg s ev inst syn _ i j h, getF]

/-- An event below class F that triggers nothing is recorded and has no other consequence. -/
theorem raise_quiet (ev inst syn : Nat) (h1 : s.flt.frozen = false) (h2 : armedFor s ev = false)
    (h3 : classTrips s ((evClass ev).getD 0) = false) (h4 : (evClass ev).getD 0 ≠ 4) :
    raise ev inst syn s = record ev ((evClass ev).getD 0) inst syn false s := by
  have r (n : RegName) (i j : Nat) (h : n ∉ eventRegs) := record_reg s ev ((evClass ev).getD 0) inst syn false n i j h
  have e1 : armedFor (record ev ((evClass ev).getD 0) inst syn false s) ev = armedFor s ev := by
    simp only [armedFor, flag, getF]
    rw [r _ _ _ (by simp [eventRegs, F.VARNISH_CFG_ARMED]), r _ _ _ (by simp [eventRegs, F.VARNISH_CFG_ARMED_ID])]
  have e2 : ∀ c, classTrips (record ev ((evClass ev).getD 0) inst syn false s) c = classTrips s c := by
    intro c
    have e : getF (record ev ((evClass ev).getD 0) inst syn false s) F.VARNISH_CFG_CLASS_MIN 0 0 = getF s F.VARNISH_CFG_CLASS_MIN 0 0 := by
      rw [getF, r _ _ _ (by simp [eventRegs, F.VARNISH_CFG_CLASS_MIN]), getF]
    simp only [classTrips, e]
  simp [raise, raiseAs, h1, e1, e2, h2, h3, h4]

@[simp] theorem raiseAs_clk (c ev cls inst syn : Nat) (inj : Bool) : (raiseAs c ev cls inst syn inj s).clk = s.clk := by
  obtain ⟨_, _, _, _, _, _, h⟩ := raiseAs_only s c ev cls inst syn inj; rw [h]
@[simp] theorem raise_clk (ev inst syn : Nat) : (raise ev inst syn s).clk = s.clk := raiseAs_clk s _ _ _ _ _ _
@[simp] theorem raise0_clk (ev : Nat) : (raise0 ev s).clk = s.clk := raiseAs_clk s _ _ _ _ _ _
@[simp] theorem raiseAs_port (c ev cls inst syn : Nat) (inj : Bool) : (raiseAs c ev cls inst syn inj s).port = s.port := by
  obtain ⟨_, _, _, _, _, _, h⟩ := raiseAs_only s c ev cls inst syn inj; rw [h]
@[simp] theorem raise_port (ev inst syn : Nat) : (raise ev inst syn s).port = s.port := raiseAs_port s _ _ _ _ _ _
@[simp] theorem raise0_port (ev : Nat) : (raise0 ev s).port = s.port := raiseAs_port s _ _ _ _ _ _
@[simp] theorem raiseAs_tbl (c ev cls inst syn : Nat) (inj : Bool) : (raiseAs c ev cls inst syn inj s).tbl = s.tbl := by
  obtain ⟨_, _, _, _, _, _, h⟩ := raiseAs_only s c ev cls inst syn inj; rw [h]
@[simp] theorem raise_tbl (ev inst syn : Nat) : (raise ev inst syn s).tbl = s.tbl := raiseAs_tbl s _ _ _ _ _ _
@[simp] theorem raise0_tbl (ev : Nat) : (raise0 ev s).tbl = s.tbl := raiseAs_tbl s _ _ _ _ _ _
@[simp] theorem raiseAs_cmd (c ev cls inst syn : Nat) (inj : Bool) : (raiseAs c ev cls inst syn inj s).cmd = s.cmd := by
  obtain ⟨_, _, _, _, _, _, h⟩ := raiseAs_only s c ev cls inst syn inj; rw [h]
@[simp] theorem raise_cmd (ev inst syn : Nat) : (raise ev inst syn s).cmd = s.cmd := raiseAs_cmd s _ _ _ _ _ _
@[simp] theorem raise0_cmd (ev : Nat) : (raise0 ev s).cmd = s.cmd := raiseAs_cmd s _ _ _ _ _ _
@[simp] theorem raiseAs_host (c ev cls inst syn : Nat) (inj : Bool) : (raiseAs c ev cls inst syn inj s).host = s.host := by
  obtain ⟨_, _, _, _, _, _, h⟩ := raiseAs_only s c ev cls inst syn inj; rw [h]
@[simp] theorem raise_host (ev inst syn : Nat) : (raise ev inst syn s).host = s.host := raiseAs_host s _ _ _ _ _ _
@[simp] theorem raise0_host (ev : Nat) : (raise0 ev s).host = s.host := raiseAs_host s _ _ _ _ _ _
@[simp] theorem raiseAs_eng (c ev cls inst syn : Nat) (inj : Bool) : (raiseAs c ev cls inst syn inj s).eng = s.eng := by
  obtain ⟨_, _, _, _, _, _, h⟩ := raiseAs_only s c ev cls inst syn inj; rw [h]
@[simp] theorem raise_eng (ev inst syn : Nat) : (raise ev inst syn s).eng = s.eng := raiseAs_eng s _ _ _ _ _ _
@[simp] theorem raise0_eng (ev : Nat) : (raise0 ev s).eng = s.eng := raiseAs_eng s _ _ _ _ _ _
@[simp] theorem raiseAs_fw (c ev cls inst syn : Nat) (inj : Bool) : (raiseAs c ev cls inst syn inj s).fw = s.fw := by
  obtain ⟨_, _, _, _, _, _, h⟩ := raiseAs_only s c ev cls inst syn inj; rw [h]
@[simp] theorem raise_fw (ev inst syn : Nat) : (raise ev inst syn s).fw = s.fw := raiseAs_fw s _ _ _ _ _ _
@[simp] theorem raise0_fw (ev : Nat) : (raise0 ev s).fw = s.fw := raiseAs_fw s _ _ _ _ _ _
@[simp] theorem raiseAs_stl (c ev cls inst syn : Nat) (inj : Bool) : (raiseAs c ev cls inst syn inj s).stl = s.stl := by
  obtain ⟨_, _, _, _, _, _, h⟩ := raiseAs_only s c ev cls inst syn inj; rw [h]
@[simp] theorem raise_stl (ev inst syn : Nat) : (raise ev inst syn s).stl = s.stl := raiseAs_stl s _ _ _ _ _ _
@[simp] theorem raise0_stl (ev : Nat) : (raise0 ev s).stl = s.stl := raiseAs_stl s _ _ _ _ _ _
@[simp] theorem raiseAs_twin (c ev cls inst syn : Nat) (inj : Bool) : (raiseAs c ev cls inst syn inj s).twin = s.twin := by
  obtain ⟨_, _, _, _, _, _, h⟩ := raiseAs_only s c ev cls inst syn inj; rw [h]
@[simp] theorem raise_twin (ev inst syn : Nat) : (raise ev inst syn s).twin = s.twin := raiseAs_twin s _ _ _ _ _ _
@[simp] theorem raise0_twin (ev : Nat) : (raise0 ev s).twin = s.twin := raiseAs_twin s _ _ _ _ _ _
@[simp] theorem raiseAs_chain (c ev cls inst syn : Nat) (inj : Bool) : (raiseAs c ev cls inst syn inj s).chain = s.chain := by
  obtain ⟨_, _, _, _, _, _, h⟩ := raiseAs_only s c ev cls inst syn inj; rw [h]
@[simp] theorem raise_chain (ev inst syn : Nat) : (raise ev inst syn s).chain = s.chain := raiseAs_chain s _ _ _ _ _ _
@[simp] theorem raise0_chain (ev : Nat) : (raise0 ev s).chain = s.chain := raiseAs_chain s _ _ _ _ _ _
@[simp] theorem raiseAs_pwr (c ev cls inst syn : Nat) (inj : Bool) : (raiseAs c ev cls inst syn inj s).pwr = s.pwr := by
  obtain ⟨_, _, _, _, _, _, h⟩ := raiseAs_only s c ev cls inst syn inj; rw [h]
@[simp] theorem raise_pwr (ev inst syn : Nat) : (raise ev inst syn s).pwr = s.pwr := raiseAs_pwr s _ _ _ _ _ _
@[simp] theorem raise0_pwr (ev : Nat) : (raise0 ev s).pwr = s.pwr := raiseAs_pwr s _ _ _ _ _ _
@[simp] theorem raiseAs_fuse (c ev cls inst syn : Nat) (inj : Bool) : (raiseAs c ev cls inst syn inj s).fuse = s.fuse := by
  obtain ⟨_, _, _, _, _, _, h⟩ := raiseAs_only s c ev cls inst syn inj; rw [h]
@[simp] theorem raise_fuse (ev inst syn : Nat) : (raise ev inst syn s).fuse = s.fuse := raiseAs_fuse s _ _ _ _ _ _
@[simp] theorem raise0_fuse (ev : Nat) : (raise0 ev s).fuse = s.fuse := raiseAs_fuse s _ _ _ _ _ _
@[simp] theorem raiseAs_boot (c ev cls inst syn : Nat) (inj : Bool) : (raiseAs c ev cls inst syn inj s).boot = s.boot := by
  obtain ⟨_, _, _, _, _, _, h⟩ := raiseAs_only s c ev cls inst syn inj; rw [h]
@[simp] theorem raise_boot (ev inst syn : Nat) : (raise ev inst syn s).boot = s.boot := raiseAs_boot s _ _ _ _ _ _
@[simp] theorem raise0_boot (ev : Nat) : (raise0 ev s).boot = s.boot := raiseAs_boot s _ _ _ _ _ _
@[simp] theorem raiseAs_free (c ev cls inst syn : Nat) (inj : Bool) : (raiseAs c ev cls inst syn inj s).free = s.free := by
  obtain ⟨_, _, _, _, _, _, h⟩ := raiseAs_only s c ev cls inst syn inj; rw [h]
@[simp] theorem raise_free (ev inst syn : Nat) : (raise ev inst syn s).free = s.free := raiseAs_free s _ _ _ _ _ _
@[simp] theorem raise0_free (ev : Nat) : (raise0 ev s).free = s.free := raiseAs_free s _ _ _ _ _ _
@[simp] theorem raiseAs_pending (c ev cls inst syn : Nat) (inj : Bool) : (raiseAs c ev cls inst syn inj s).pending = s.pending := by
  obtain ⟨_, _, _, _, _, _, h⟩ := raiseAs_only s c ev cls inst syn inj; rw [h]
@[simp] theorem raise_pending (ev inst syn : Nat) : (raise ev inst syn s).pending = s.pending := raiseAs_pending s _ _ _ _ _ _
@[simp] theorem raise0_pending (ev : Nat) : (raise0 ev s).pending = s.pending := raiseAs_pending s _ _ _ _ _ _
@[simp] theorem record_clk (ev cls inst syn : Nat) (inj : Bool) : (record ev cls inst syn inj s).clk = s.clk := by
  obtain ⟨_, _, h⟩ := record_only s ev cls inst syn inj; rw [h]
@[simp] theorem record_port (ev cls inst syn : Nat) (inj : Bool) : (record ev cls inst syn inj s).port = s.port := by
  obtain ⟨_, _, h⟩ := record_only s ev cls inst syn inj; rw [h]
@[simp] theorem record_tbl (ev cls inst syn : Nat) (inj : Bool) : (record ev cls inst syn inj s).tbl = s.tbl := by
  obtain ⟨_, _, h⟩ := record_only s ev cls inst syn inj; rw [h]
@[simp] theorem record_cmd (ev cls inst syn : Nat) (inj : Bool) : (record ev cls inst syn inj s).cmd = s.cmd := by
  obtain ⟨_, _, h⟩ := record_only s ev cls inst syn inj; rw [h]
@[simp] theorem record_host (ev cls inst syn : Nat) (inj : Bool) : (record ev cls inst syn inj s).host = s.host := by
  obtain ⟨_, _, h⟩ := record_only s ev cls inst syn inj; rw [h]
@[simp] theorem record_eng (ev cls inst syn : Nat) (inj : Bool) : (record ev cls inst syn inj s).eng = s.eng := by
  obtain ⟨_, _, h⟩ := record_only s ev cls inst syn inj; rw [h]
@[simp] theorem record_fw (ev cls inst syn : Nat) (inj : Bool) : (record ev cls inst syn inj s).fw = s.fw := by
  obtain ⟨_, _, h⟩ := record_only s ev cls inst syn inj; rw [h]
@[simp] theorem record_stl (ev cls inst syn : Nat) (inj : Bool) : (record ev cls inst syn inj s).stl = s.stl := by
  obtain ⟨_, _, h⟩ := record_only s ev cls inst syn inj; rw [h]
@[simp] theorem record_twin (ev cls inst syn : Nat) (inj : Bool) : (record ev cls inst syn inj s).twin = s.twin := by
  obtain ⟨_, _, h⟩ := record_only s ev cls inst syn inj; rw [h]
@[simp] theorem record_chain (ev cls inst syn : Nat) (inj : Bool) : (record ev cls inst syn inj s).chain = s.chain := by
  obtain ⟨_, _, h⟩ := record_only s ev cls inst syn inj; rw [h]
@[simp] theorem record_pwr (ev cls inst syn : Nat) (inj : Bool) : (record ev cls inst syn inj s).pwr = s.pwr := by
  obtain ⟨_, _, h⟩ := record_only s ev cls inst syn inj; rw [h]
@[simp] theorem record_fuse (ev cls inst syn : Nat) (inj : Bool) : (record ev cls inst syn inj s).fuse = s.fuse := by
  obtain ⟨_, _, h⟩ := record_only s ev cls inst syn inj; rw [h]
@[simp] theorem record_boot (ev cls inst syn : Nat) (inj : Bool) : (record ev cls inst syn inj s).boot = s.boot := by
  obtain ⟨_, _, h⟩ := record_only s ev cls inst syn inj; rw [h]
@[simp] theorem record_free (ev cls inst syn : Nat) (inj : Bool) : (record ev cls inst syn inj s).free = s.free := by
  obtain ⟨_, _, h⟩ := record_only s ev cls inst syn inj; rw [h]
@[simp] theorem record_pending (ev cls inst syn : Nat) (inj : Bool) : (record ev cls inst syn inj s).pending = s.pending := by
  obtain ⟨_, _, h⟩ := record_only s ev cls inst syn inj; rw [h]
@[simp] theorem record_flt (ev cls inst syn : Nat) (inj : Bool) : (record ev cls inst syn inj s).flt = s.flt := by
  obtain ⟨_, _, h⟩ := record_only s ev cls inst syn inj; rw [h]
@[simp] theorem record_pal (ev cls inst syn : Nat) (inj : Bool) : (record ev cls inst syn inj s).pal = s.pal := by
  obtain ⟨_, _, h⟩ := record_only s ev cls inst syn inj; rw [h]
@[simp] theorem record_sched (ev cls inst syn : Nat) (inj : Bool) : (record ev cls inst syn inj s).sched = s.sched := by
  obtain ⟨_, _, h⟩ := record_only s ev cls inst syn inj; rw [h]
@[simp] theorem record_tele (ev cls inst syn : Nat) (inj : Bool) : (record ev cls inst syn inj s).tele = s.tele := by
  obtain ⟨_, _, h⟩ := record_only s ev cls inst syn inj; rw [h]

end Sys2Proof.Machine
end

