-- ==== Sys2Proof/Laws/Only.lean ====
section
/-! SUPPORT. What a chain of register writes leaves as it was: `Only` is kept by each write of a listed register. -/

namespace Sys2Proof.Safety

open Sys2Proof.Machine

variable {keys : List RegKey} {s z : State}

/-- A state with its own words is itself. -/
theorem withWords_self (s : State) : withWords s s = s := rfl

/-- A difference in register words alone vanishes with the words. -/
theorem withWords_of_words {s z : State} (h : OnlyWords s z) : withWords z s = s := by
  obtain ⟨w, rfl⟩ := h
  rfl

theorem Only.refl (keys : List RegKey) (s : State) : Only keys s s := ⟨fun _ _ _ _ => rfl, rfl⟩

/-- From a difference in words alone and the registers kept. -/
theorem Only.of_words (h : OnlyWords s z) (hr : RegsKeptBut keys s z) : Only keys s z := ⟨hr, withWords_of_words h⟩

/-- A state that differs from another in its words alone. -/
theorem Only.words (h : Only keys s z) : OnlyWords s z := by
  refine ⟨z.rf.words, ?_⟩
  have h2 := h.2
  rw [← h2]
  rfl

/-- One more write that touches listed registers alone. -/
theorem Only.then {y : State} (h : Only keys s z) (hw : OnlyWords z y) (hr : RegsKeptBut keys z y) : Only keys s y :=
  ⟨fun n i j hk => (hr n i j hk).trans (h.1 n i j hk), withWords_of_words (h.words.trans hw)⟩

theorem Only.trans {y : State} (h : Only keys s z) (h2 : Only keys z y) : Only keys s y := h.then h2.words h2.1

/-- More registers may have changed. -/
theorem Only.mono {keys' : List RegKey} (h : Only keys s z) (hk : ∀ k ∈ keys, k ∈ keys') : Only keys' s z :=
  ⟨fun n i j hn => h.1 n i j fun hm => hn (hk _ hm), h.2⟩


theorem Only.setReg (h : Only keys s z) (n : RegName) (i j : Nat) (v : W32) (hk : ⟨n, i, j⟩ ∈ keys) : Only keys s (setReg n i j v z) :=
  h.then (.setReg ..) fun n' i' j' hn => reg_setReg_ne z n n' i j i' j' v fun e => hn (by obtain ⟨rfl, rfl, rfl⟩ := e; exact hk)

theorem Only.setF (h : Only keys s z) (f : Fld) (i j v : Nat) (hk : ⟨f.reg, i, j⟩ ∈ keys) : Only keys s (setF f i j v z) :=
  h.then (.setF ..) fun n' i' j' hn => reg_setF_ne z f n' i j i' j' v fun e => hn (by obtain ⟨rfl, rfl, rfl⟩ := e; exact hk)

theorem Only.bump (h : Only keys s z) (n : RegName) (i j k : Nat) (hk : ⟨n, i, j⟩ ∈ keys) : Only keys s (bump n i j k z) :=
  h.then (.bump ..) fun n' i' j' hn => reg_bump_ne z n n' i j k i' j' fun e => hn (by obtain ⟨rfl, rfl, rfl⟩ := e; exact hk)

theorem Only.bumpSat (h : Only keys s z) (f : Fld) (i j k : Nat) (hk : ⟨f.reg, i, j⟩ ∈ keys) : Only keys s (bumpSat f i j k z) :=
  h.setF f i j _ hk

theorem Only.setMapBit (h : Only keys s z) (n : RegName) (k : Nat) (b : Bool) (hk : ⟨n, k / 32, 0⟩ ∈ keys) : Only keys s (setMapBit n k b z) :=
  h.setReg n _ _ _ hk

theorem Only.setWide (h : Only keys s z) (n : RegName) (i v w : Nat) (hk : ∀ j, j < w → ⟨n, i, j⟩ ∈ keys) : Only keys s (setWide n i v w z) := by
  induction w with
  | zero => exact h
  | succ w ih => exact (ih fun j hj => hk j (by omega)).setReg n i w _ (hk w (by omega))

end Sys2Proof.Safety
end

