-- ==== Sys2Proof/Laws/Replies.lean ====
section
/-! SUPPORT. What a reply can change: `finish` and the operations it is built from. -/

namespace Sys2Proof.Machine

open Sys2Proof.Safety

variable (s : State)

/-- Two states that differ only in what a reply can change: registers, command and host state, what has left the device or waits at a Stretcher port, and what an event changes. -/
def OnlyReplied (s s' : State) : Prop :=
  ∃ r o f p d e c k l, s' = { s with rf := r, out := o, flt := f, pal := p, sched := d, tele := e, cmd := c, host := k, chain := { s.chain with held := l } }

theorem OnlyReplied.refl : OnlyReplied s s := ⟨_, _, _, _, _, _, _, _, _, rfl⟩

theorem OnlyReplied.trans {a b c : State} (h1 : OnlyReplied a b) (h2 : OnlyReplied b c) : OnlyReplied a c := by
  obtain ⟨r1, o1, f1, p1, d1, e1, c1, k1, l1, rfl⟩ := h1
  obtain ⟨r2, o2, f2, p2, d2, e2, c2, k2, l2, rfl⟩ := h2
  exact ⟨_, _, _, _, _, _, _, _, _, rfl⟩

theorem OnlyStruck.replied {a b : State} (h : OnlyStruck a b) : OnlyReplied a b := by
  obtain ⟨r, o, f, p, d, e, rfl⟩ := h
  exact ⟨_, _, _, _, _, _, _, _, _, rfl⟩

theorem OnlySent.replied {a b : State} (h : OnlySent a b) : OnlyReplied a b := h.struck.replied

theorem OnlyWords.replied {a b : State} (h : OnlyWords a b) : OnlyReplied a b := h.sent.replied

theorem setCmdRing_only (r : Nat) (x : CmdRing) : OnlyReplied s (setCmdRing r x s) := ⟨_, _, _, _, _, _, _, _, _, rfl⟩

theorem dropOut_only (k : Nat) : OnlyReplied s (dropOut k s) := ⟨_, _, _, _, _, _, _, _, _, rfl⟩

@[simp] theorem reg_setCmdRing (r : Nat) (x : CmdRing) (n : RegName) (i j : Nat) : reg (setCmdRing r x s) n i j = reg s n i j := rfl

@[simp] theorem reg_dropOut (k : Nat) (n : RegName) (i j : Nat) : reg (dropOut k s) n i j = reg s n i j := rfl

theorem cqPut_only (r : Nat) (rep : Reply) (rbuf : Nat) : OnlyReplied s (cqPut r rep rbuf s) := by
  have h0 : OnlySent s (if 12 < rep.rdata.length then emit (.dma rbuf rep.rdata) s else s) := by
    split
    · exact .emit ..
    · exact .refl s
  unfold cqPut
  simp only
  split
  · exact OnlyReplied.trans (OnlyReplied.trans ((((h0.trans (.emit ..)).trans (.emit ..)).trans (OnlyWords.setF ..).sent).trans (.emit ..)).replied
      (setCmdRing_only ..)) (raiseVector_only ..).replied
  · exact OnlyReplied.trans ((((h0.trans (.emit ..)).trans (.emit ..)).trans (OnlyWords.setF ..).sent).trans (.emit ..)).replied
      (setCmdRing_only ..)

theorem cqPut_reg (r : Nat) (rep : Reply) (rbuf : Nat) (n : RegName) (i j : Nat) (h : n ∉ replyRegs) :
    reg (cqPut r rep rbuf s) n i j = reg s n i j := by
  have h1 : RegName.CQ_TAIL ≠ n := fun e => h (e ▸ by simp [replyRegs])
  have h2 : n ≠ .MSIX_PBA := fun e => h (e ▸ by simp [replyRegs, eventRegs])
  have h0 : reg (if 12 < rep.rdata.length then emit (.dma rbuf rep.rdata) s else s) n i j = reg s n i j := by split <;> rfl
  unfold cqPut
  simp only
  split
  · rw [raiseVector_reg _ _ _ _ _ h2, reg_setCmdRing, cmdWriteBack, reg_emit, reg_setF_ne _ _ _ _ _ _ _ _ (fun e => h1 e.1), reg_emit,
      reg_emit, h0]
  · rw [reg_setCmdRing, cmdWriteBack, reg_emit, reg_setF_ne _ _ _ _ _ _ _ _ (fun e => h1 e.1), reg_emit, reg_emit, h0]

/-- A frame formed here leaves by a Stretcher port or waits there. -/
theorem stlSend_only (port kind : Nat) (f : List Byte) : OnlyReplied s (stlSend port kind f s) := by
  unfold stlSend
  split
  · exact ⟨_, _, _, _, _, _, _, _, _, rfl⟩
  · exact (OnlySent.emit ..).replied

@[simp] theorem reg_stlSend (port kind : Nat) (f : List Byte) (n : RegName) (i j : Nat) : reg (stlSend port kind f s) n i j = reg s n i j := by
  unfold stlSend
  split <;> rfl

theorem chainOut_only (port kind : Nat) (f : List Byte) : OnlyReplied s (chainOut port kind f s) := by
  have h1 : ∀ m g, OnlyReplied s (raise0 Ev.CHAIN_WRAP (bump .CHAIN_WRAP_CNT 0 0 1 (stlSend m kind g s))) := fun m g =>
    ((stlSend_only s m kind g).trans (OnlyWords.bump ..).replied).trans (raiseAs_only ..).replied
  unfold chainOut
  simp only
  repeat' first
    | exact stlSend_only ..
    | exact .refl s
    | exact (OnlyWords.bump ..).replied
    | exact h1 _ _
    | split

theorem chainOut_reg (port kind : Nat) (f : List Byte) (n : RegName) (i j : Nat) (h : n ∉ replyRegs) :
    reg (chainOut port kind f s) n i j = reg s n i j := by
  have h1 : RegName.CHAIN_WRAP_CNT ≠ n := fun e => h (e ▸ by simp [replyRegs])
  have h2 : RegName.CHAIN_TTL_DROP ≠ n := fun e => h (e ▸ by simp [replyRegs])
  have h3 : n ∉ eventRegs := fun e => h (List.mem_append_right _ e)
  have h4 : ∀ m g, reg (raise0 Ev.CHAIN_WRAP (bump .CHAIN_WRAP_CNT 0 0 1 (stlSend m kind g s))) n i j = reg s n i j := fun m g => by
    rw [raise0, raise_reg _ _ _ _ _ _ _ h3, reg_bump_ne _ _ _ _ _ _ _ _ (fun e => h1 e.1), reg_stlSend]
  unfold chainOut
  simp only
  repeat' first
    | exact reg_stlSend ..
    | rfl
    | exact h4 _ _
    | exact reg_bump_ne _ _ _ _ _ _ _ _ (fun e => h2 e.1)
    | split

/-- A reply on a link's path. -/
theorem linkReply_only (o : OutCmd) (rep : Reply) (key : Nat) : OnlyReplied s (linkReply o rep key s) := by
  unfold linkReply
  simp only
  repeat' first
    | exact ⟨_, _, _, _, _, _, _, _, _, rfl⟩
    | exact dropOut_only ..
    | exact ((dropOut_only ..).trans (OnlySent.emit ..).replied).trans (chainOut_only ..)
    | split

theorem linkReply_reg (o : OutCmd) (rep : Reply) (key : Nat) (n : RegName) (i j : Nat) (h : n ∉ replyRegs) :
    reg (linkReply o rep key s) n i j = reg s n i j := by
  unfold linkReply
  simp only
  split
  · split <;> rfl
  · rw [chainOut_reg _ _ _ _ _ _ _ h]; rfl

/-- Sending a final reply. -/
theorem deliver_only (o : OutCmd) (rep : Reply) : OnlyReplied s (deliver o rep s) := by
  unfold deliver
  simp only
  split
  · exact dropOut_only ..
  · split
    · split
      · exact dropOut_only ..
      · split
        · exact setCmdRing_only ..
        · exact (dropOut_only ..).trans (cqPut_only ..)
    · split
      · split
        · exact ⟨_, _, _, _, _, _, _, _, _, rfl⟩
        · exact dropOut_only ..
      · exact linkReply_only ..

theorem deliver_reg (o : OutCmd) (rep : Reply) (n : RegName) (i j : Nat) (h : n ∉ replyRegs) :
    reg (deliver o rep s) n i j = reg s n i j := by
  unfold deliver
  simp only
  split
  · rfl
  · split
    · split
      · rfl
      · split
        · rfl
        · rw [cqPut_reg _ _ _ _ _ _ _ h]; rfl
    · split
      · split <;> rfl
      · exact linkReply_reg _ _ _ _ _ _ _ h

theorem countRefused_only (kind sub status : Nat) : OnlyWords s (countRefused kind sub status s) := by
  unfold countRefused
  simp only
  repeat' first
    | exact .refl s
    | exact (OnlyWords.bump ..).trans (OnlyWords.bump ..)
    | exact .bump ..
    | split

theorem countRefused_reg (kind sub status : Nat) (n : RegName) (i j : Nat) (h : n ∉ replyRegs) :
    reg (countRefused kind sub status s) n i j = reg s n i j := by
  have h1 : RegName.CMD_REFUSED_CNT ≠ n := fun e => h (e ▸ by simp [replyRegs])
  have h2 : RegName.REFUSED_CNT ≠ n := fun e => h (e ▸ by simp [replyRegs])
  unfold countRefused
  simp only
  repeat' first
    | rfl
    | rw [reg_bump_ne _ _ _ _ _ _ _ _ (fun e => h2 e.1), reg_bump_ne _ _ _ _ _ _ _ _ (fun e => h1 e.1)]
    | rw [reg_bump_ne _ _ _ _ _ _ _ _ (fun e => h1 e.1)]
    | split

/-- The final reply of a command changes what a reply can change, nothing else. -/
theorem finish_only (h : Hdr) (op : Nat) (a : Answer) : OnlyReplied s (finish h op a s) := by
  unfold finish
  simp only
  repeat' first
    | exact dropOut_only ..
    | exact (countRefused_only ..).replied.trans (deliver_only ..)
    | split

/-- A register outside `replyRegs` keeps its word while a reply is sent. -/
theorem finish_reg (h : Hdr) (op : Nat) (a : Answer) (n : RegName) (i j : Nat) (hn : n ∉ replyRegs) :
    reg (finish h op a s) n i j = reg s n i j := by
  unfold finish
  simp only
  repeat' first
    | rfl
    | rw [deliver_reg _ _ _ _ _ _ hn, countRefused_reg _ _ _ _ _ _ _ hn]
    | split

/-- A field outside `replyRegs` keeps its value while a reply is sent. -/
theorem finish_getF (h : Hdr) (op : Nat) (a : Answer) (f : Fld) (i j : Nat) (hn : f.reg ∉ replyRegs) :
    getF (finish h op a s) f i j = getF s f i j := by rw [getF, finish_reg s h op a _ i j hn, getF]

@[simp] theorem finish_clk (h : Hdr) (op : Nat) (a : Answer) : (finish h op a s).clk = s.clk := by
  obtain ⟨_, _, _, _, _, _, _, _, _, e⟩ := finish_only s h op a; rw [e]
@[simp] theorem finish_port (h : Hdr) (op : Nat) (a : Answer) : (finish h op a s).port = s.port := by
  obtain ⟨_, _, _, _, _, _, _, _, _, e⟩ := finish_only s h op a; rw [e]
@[simp] theorem finish_tbl (h : Hdr) (op : Nat) (a : Answer) : (finish h op a s).tbl = s.tbl := by
  obtain ⟨_, _, _, _, _, _, _, _, _, e⟩ := finish_only s h op a; rw [e]
@[simp] theorem finish_eng (h : Hdr) (op : Nat) (a : Answer) : (finish h op a s).eng = s.eng := by
  obtain ⟨_, _, _, _, _, _, _, _, _, e⟩ := finish_only s h op a; rw [e]
@[simp] theorem finish_fw (h : Hdr) (op : Nat) (a : Answer) : (finish h op a s).fw = s.fw := by
  obtain ⟨_, _, _, _, _, _, _, _, _, e⟩ := finish_only s h op a; rw [e]
@[simp] theorem finish_stl (h : Hdr) (op : Nat) (a : Answer) : (finish h op a s).stl = s.stl := by
  obtain ⟨_, _, _, _, _, _, _, _, _, e⟩ := finish_only s h op a; rw [e]
@[simp] theorem finish_twin (h : Hdr) (op : Nat) (a : Answer) : (finish h op a s).twin = s.twin := by
  obtain ⟨_, _, _, _, _, _, _, _, _, e⟩ := finish_only s h op a; rw [e]
/-- Of the chain's state a reply changes at most the frames that wait at a Stretcher port. -/
theorem finish_chain (h : Hdr) (op : Nat) (a : Answer) : ∃ l, (finish h op a s).chain = { s.chain with held := l } := by
  obtain ⟨_, _, _, _, _, _, _, _, l, e⟩ := finish_only s h op a; exact ⟨l, by rw [e]⟩
@[simp] theorem finish_pwr (h : Hdr) (op : Nat) (a : Answer) : (finish h op a s).pwr = s.pwr := by
  obtain ⟨_, _, _, _, _, _, _, _, _, e⟩ := finish_only s h op a; rw [e]
@[simp] theorem finish_fuse (h : Hdr) (op : Nat) (a : Answer) : (finish h op a s).fuse = s.fuse := by
  obtain ⟨_, _, _, _, _, _, _, _, _, e⟩ := finish_only s h op a; rw [e]
@[simp] theorem finish_boot (h : Hdr) (op : Nat) (a : Answer) : (finish h op a s).boot = s.boot := by
  obtain ⟨_, _, _, _, _, _, _, _, _, e⟩ := finish_only s h op a; rw [e]
@[simp] theorem finish_free (h : Hdr) (op : Nat) (a : Answer) : (finish h op a s).free = s.free := by
  obtain ⟨_, _, _, _, _, _, _, _, _, e⟩ := finish_only s h op a; rw [e]
@[simp] theorem finish_pending (h : Hdr) (op : Nat) (a : Answer) : (finish h op a s).pending = s.pending := by
  obtain ⟨_, _, _, _, _, _, _, _, _, e⟩ := finish_only s h op a; rw [e]

end Sys2Proof.Machine
end

