-- ==== Sys2Proof/Laws/Scratch.lean ====
section
/-! SUPPORT. The scratch memory of an engine (R293): reads after writes, and that every write keeps the canonical form. -/

namespace Sys2Proof.Machine

/-- The canonical form, one entry and the rest: the entry is not zero, stands below the rest, and the rest has the form. -/
theorem Scratch.wf_cons (a : Nat) (v : Byte) (t : List (Nat × Byte)) :
    Scratch.wf ((a, v) :: t) = true ↔ v ≠ 0 ∧ (∀ p ∈ t, a < p.1) ∧ Scratch.wf t = true := by
  induction t generalizing a v with
  | nil => simp [Scratch.wf]
  | cons x t ih =>
    obtain ⟨b, w⟩ := x
    have e : Scratch.wf ((a, v) :: (b, w) :: t) = (v != 0 && decide (a < b) && Scratch.wf ((b, w) :: t)) := rfl
    rw [e, Bool.and_eq_true, Bool.and_eq_true, bne_iff_ne, decide_eq_true_eq]
    constructor
    · rintro ⟨⟨h1, h2⟩, h3⟩
      refine ⟨h1, ?_, h3⟩
      intro p hp
      rcases List.mem_cons.mp hp with rfl | hp
      · exact h2
      · exact Nat.lt_trans h2 (((ih b w).mp h3).2.1 p hp)
    · rintro ⟨h1, h2, h3⟩
      exact ⟨⟨h1, h2 _ (List.mem_cons_self ..)⟩, h3⟩

/-- A byte below every listed address reads zero. -/
theorem Scratch.read_below (m : List (Nat × Byte)) (a : Nat) (h : ∀ p ∈ m, a < p.1) : Scratch.read m a = 0 := by
  induction m with
  | nil => rfl
  | cons x t ih =>
    obtain ⟨b, w⟩ := x
    have h1 : a < b := h (b, w) (List.mem_cons_self ..)
    rw [Scratch.read, if_neg (by omega)]
    exact ih (fun p hp => h p (List.mem_cons_of_mem _ hp))

/-- A byte read after one byte is written. -/
theorem Scratch.read_write (m : List (Nat × Byte)) (h : Scratch.wf m = true) (a b : Nat) (v : Byte) :
    Scratch.read (Scratch.write m a v) b = if b = a then v else Scratch.read m b := by
  induction m with
  | nil =>
    unfold Scratch.write
    by_cases hv : v = 0 <;> by_cases hb : b = a
    · rw [if_pos hv, if_pos hb, hv]; rfl
    · rw [if_pos hv, if_neg hb]
    · rw [if_neg hv, if_pos hb, Scratch.read, if_pos hb.symm]
    · have hb' : ¬ a = b := fun e => hb e.symm
      rw [if_neg hv, if_neg hb]; simp only [Scratch.read, hb', if_false]
  | cons x t ih =>
    obtain ⟨c, w⟩ := x
    obtain ⟨hw, hl, ht⟩ := (Scratch.wf_cons c w t).mp h
    have ih := ih ht
    unfold Scratch.write
    by_cases h1 : a < c
    · rw [if_pos h1]
      have hz : Scratch.read ((c, w) :: t) a = 0 := by
        rw [Scratch.read, if_neg (by omega)]
        exact Scratch.read_below t a (fun p hp => Nat.lt_trans h1 (hl p hp))
      by_cases hv : v = 0 <;> by_cases hb : b = a
      · rw [if_pos hv, if_pos hb, hb, hz, hv]
      · rw [if_pos hv, if_neg hb]
      · rw [if_neg hv, if_pos hb, Scratch.read, if_pos hb.symm]
      · rw [if_neg hv, if_neg hb, Scratch.read, if_neg (fun e => hb e.symm)]
    · rw [if_neg h1]
      by_cases h2 : a = c
      · rw [if_pos h2]
        subst h2
        by_cases hv : v = 0 <;> by_cases hb : b = a
        · rw [if_pos hv, if_pos hb, hb, hv, Scratch.read_below t a hl]
        · rw [if_pos hv, if_neg hb, Scratch.read, if_neg (fun e => hb e.symm)]
        · rw [if_neg hv, if_pos hb, Scratch.read, if_pos hb.symm]
        · rw [if_neg hv, if_neg hb, Scratch.read, if_neg (fun e => hb e.symm), Scratch.read, if_neg (fun e => hb e.symm)]
      · rw [if_neg h2, Scratch.read, Scratch.read]
        by_cases hc : c = b
        · rw [if_pos hc, if_pos hc, if_neg (by omega)]
        · rw [if_neg hc, if_neg hc, ih]

/-- What a written list lists: its entries were there, or it is the written one. -/
theorem Scratch.mem_write (m : List (Nat × Byte)) (a : Nat) (v : Byte) (p : Nat × Byte) (h : p ∈ Scratch.write m a v) :
    p ∈ m ∨ p = (a, v) := by
  induction m with
  | nil =>
    unfold Scratch.write at h
    split at h <;> simp_all
  | cons x t ih =>
    obtain ⟨c, w⟩ := x
    unfold Scratch.write at h
    split at h
    · split at h
      · exact .inl h
      · rcases List.mem_cons.mp h with h | h
        · exact .inr h
        · exact .inl h
    · split at h
      · split at h
        · exact .inl (List.mem_cons_of_mem _ h)
        · rcases List.mem_cons.mp h with h | h
          · exact .inr h
          · exact .inl (List.mem_cons_of_mem _ h)
      · rcases List.mem_cons.mp h with h | h
        · exact .inl (h ▸ List.mem_cons_self ..)
        · rcases ih h with h | h
          · exact .inl (List.mem_cons_of_mem _ h)
          · exact .inr h

/-- A write keeps the canonical form. -/
theorem Scratch.wf_write (m : List (Nat × Byte)) (h : Scratch.wf m = true) (a : Nat) (v : Byte) :
    Scratch.wf (Scratch.write m a v) = true := by
  induction m with
  | nil =>
    unfold Scratch.write
    by_cases hv : v = 0
    · rw [if_pos hv]; rfl
    · rw [if_neg hv, Scratch.wf_cons]; exact ⟨hv, by simp, rfl⟩
  | cons x t ih =>
    obtain ⟨c, w⟩ := x
    obtain ⟨hw, hl, ht⟩ := (Scratch.wf_cons c w t).mp h
    unfold Scratch.write
    by_cases h1 : a < c
    · rw [if_pos h1]
      by_cases hv : v = 0
      · rw [if_pos hv]; exact h
      · rw [if_neg hv, Scratch.wf_cons]
        refine ⟨hv, ?_, h⟩
        intro p hp
        rcases List.mem_cons.mp hp with rfl | hp
        · exact h1
        · exact Nat.lt_trans h1 (hl p hp)
    · rw [if_neg h1]
      by_cases h2 : a = c
      · rw [if_pos h2]
        by_cases hv : v = 0
        · rw [if_pos hv]; exact ht
        · rw [if_neg hv, Scratch.wf_cons]; subst h2; exact ⟨hv, hl, ht⟩
      · rw [if_neg h2, Scratch.wf_cons]
        refine ⟨hw, ?_, ih ht⟩
        intro p hp
        rcases Scratch.mem_write t a v p hp with hp | rfl
        · exact hl p hp
        · simp only; omega

/-- A write of several bytes keeps the canonical form. -/
theorem Scratch.wf_writeN (m : List (Nat × Byte)) (h : Scratch.wf m = true) (a v n : Nat) : Scratch.wf (Scratch.writeN m a v n) = true := by
  induction n with
  | zero => exact h
  | succ n ih => exact Scratch.wf_write _ ih _ _

/-- A byte read after `n` bytes are written: byte `b − a` of the value inside them, and what stood there outside. -/
theorem Scratch.read_writeN (m : List (Nat × Byte)) (h : Scratch.wf m = true) (a v n b : Nat) :
    Scratch.read (Scratch.writeN m a v n) b = if a ≤ b ∧ b < a + n then BitVec.ofNat 8 (v / 256 ^ (b - a)) else Scratch.read m b := by
  induction n with
  | zero => rw [if_neg (by omega)]; rfl
  | succ n ih =>
    rw [Scratch.writeN, Scratch.read_write _ (Scratch.wf_writeN m h a v n), ih]
    by_cases hb : b = a + n
    · subst hb
      rw [if_pos rfl, if_pos (by omega), show a + n - a = n by omega]
    · rw [if_neg hb]
      by_cases hr : a ≤ b ∧ b < a + n
      · rw [if_pos hr, if_pos (by omega)]
      · rw [if_neg hr, if_neg (by omega)]

end Sys2Proof.Machine
end

