-- ==== Sys2Proof/Laws/Units.lean ====
section
/-! SUPPORT. What the updates of the units' records leave as they were, one lemma per part of the state, and what a record reads as after such an update. -/

namespace Sys2Proof.Machine

variable (s : State)

/-! ### `setMacRt` -/

@[simp] theorem setMacRt_rf (m : Nat) (x : MacroRt) : (setMacRt m x s).rf = s.rf := rfl
@[simp] theorem setMacRt_clk (m : Nat) (x : MacroRt) : (setMacRt m x s).clk = s.clk := rfl
@[simp] theorem setMacRt_tbl (m : Nat) (x : MacroRt) : (setMacRt m x s).tbl = s.tbl := rfl
@[simp] theorem setMacRt_pal (m : Nat) (x : MacroRt) : (setMacRt m x s).pal = s.pal := rfl
@[simp] theorem setMacRt_sched (m : Nat) (x : MacroRt) : (setMacRt m x s).sched = s.sched := rfl
@[simp] theorem setMacRt_tele (m : Nat) (x : MacroRt) : (setMacRt m x s).tele = s.tele := rfl
@[simp] theorem setMacRt_cmd (m : Nat) (x : MacroRt) : (setMacRt m x s).cmd = s.cmd := rfl
@[simp] theorem setMacRt_host (m : Nat) (x : MacroRt) : (setMacRt m x s).host = s.host := rfl
@[simp] theorem setMacRt_eng (m : Nat) (x : MacroRt) : (setMacRt m x s).eng = s.eng := rfl
@[simp] theorem setMacRt_fw (m : Nat) (x : MacroRt) : (setMacRt m x s).fw = s.fw := rfl
@[simp] theorem setMacRt_stl (m : Nat) (x : MacroRt) : (setMacRt m x s).stl = s.stl := rfl
@[simp] theorem setMacRt_twin (m : Nat) (x : MacroRt) : (setMacRt m x s).twin = s.twin := rfl
@[simp] theorem setMacRt_chain (m : Nat) (x : MacroRt) : (setMacRt m x s).chain = s.chain := rfl
@[simp] theorem setMacRt_pwr (m : Nat) (x : MacroRt) : (setMacRt m x s).pwr = s.pwr := rfl
@[simp] theorem setMacRt_flt (m : Nat) (x : MacroRt) : (setMacRt m x s).flt = s.flt := rfl
@[simp] theorem setMacRt_fuse (m : Nat) (x : MacroRt) : (setMacRt m x s).fuse = s.fuse := rfl
@[simp] theorem setMacRt_boot (m : Nat) (x : MacroRt) : (setMacRt m x s).boot = s.boot := rfl
@[simp] theorem setMacRt_free (m : Nat) (x : MacroRt) : (setMacRt m x s).free = s.free := rfl
@[simp] theorem setMacRt_out (m : Nat) (x : MacroRt) : (setMacRt m x s).out = s.out := rfl
@[simp] theorem setMacRt_pending (m : Nat) (x : MacroRt) : (setMacRt m x s).pending = s.pending := rfl
/-- What `macRt` reads after `setMacRt`. -/
theorem macRt_setMacRt (m k : Nat) (x : MacroRt) :
    macRt (setMacRt m x s) k = if m = k then x else macRt s k := by
  simp [macRt, setMacRt]

/-! ### `setPortRt` -/

@[simp] theorem setPortRt_rf (p : Nat) (x : PortRt) : (setPortRt p x s).rf = s.rf := rfl
@[simp] theorem setPortRt_clk (p : Nat) (x : PortRt) : (setPortRt p x s).clk = s.clk := rfl
@[simp] theorem setPortRt_tbl (p : Nat) (x : PortRt) : (setPortRt p x s).tbl = s.tbl := rfl
@[simp] theorem setPortRt_pal (p : Nat) (x : PortRt) : (setPortRt p x s).pal = s.pal := rfl
@[simp] theorem setPortRt_sched (p : Nat) (x : PortRt) : (setPortRt p x s).sched = s.sched := rfl
@[simp] theorem setPortRt_tele (p : Nat) (x : PortRt) : (setPortRt p x s).tele = s.tele := rfl
@[simp] theorem setPortRt_cmd (p : Nat) (x : PortRt) : (setPortRt p x s).cmd = s.cmd := rfl
@[simp] theorem setPortRt_host (p : Nat) (x : PortRt) : (setPortRt p x s).host = s.host := rfl
@[simp] theorem setPortRt_eng (p : Nat) (x : PortRt) : (setPortRt p x s).eng = s.eng := rfl
@[simp] theorem setPortRt_fw (p : Nat) (x : PortRt) : (setPortRt p x s).fw = s.fw := rfl
@[simp] theorem setPortRt_stl (p : Nat) (x : PortRt) : (setPortRt p x s).stl = s.stl := rfl
@[simp] theorem setPortRt_twin (p : Nat) (x : PortRt) : (setPortRt p x s).twin = s.twin := rfl
@[simp] theorem setPortRt_chain (p : Nat) (x : PortRt) : (setPortRt p x s).chain = s.chain := rfl
@[simp] theorem setPortRt_pwr (p : Nat) (x : PortRt) : (setPortRt p x s).pwr = s.pwr := rfl
@[simp] theorem setPortRt_flt (p : Nat) (x : PortRt) : (setPortRt p x s).flt = s.flt := rfl
@[simp] theorem setPortRt_fuse (p : Nat) (x : PortRt) : (setPortRt p x s).fuse = s.fuse := rfl
@[simp] theorem setPortRt_boot (p : Nat) (x : PortRt) : (setPortRt p x s).boot = s.boot := rfl
@[simp] theorem setPortRt_free (p : Nat) (x : PortRt) : (setPortRt p x s).free = s.free := rfl
@[simp] theorem setPortRt_out (p : Nat) (x : PortRt) : (setPortRt p x s).out = s.out := rfl
@[simp] theorem setPortRt_pending (p : Nat) (x : PortRt) : (setPortRt p x s).pending = s.pending := rfl
/-- What `portRt` reads after `setPortRt`. -/
theorem portRt_setPortRt (p k : Nat) (x : PortRt) :
    portRt (setPortRt p x s) k = if p = k then x else portRt s k := by
  simp [portRt, setPortRt]

/-! ### `setLaneRt` -/

@[simp] theorem setLaneRt_rf (m l : Nat) (x : LaneRt) : (setLaneRt m l x s).rf = s.rf := rfl
@[simp] theorem setLaneRt_clk (m l : Nat) (x : LaneRt) : (setLaneRt m l x s).clk = s.clk := rfl
@[simp] theorem setLaneRt_tbl (m l : Nat) (x : LaneRt) : (setLaneRt m l x s).tbl = s.tbl := rfl
@[simp] theorem setLaneRt_pal (m l : Nat) (x : LaneRt) : (setLaneRt m l x s).pal = s.pal := rfl
@[simp] theorem setLaneRt_sched (m l : Nat) (x : LaneRt) : (setLaneRt m l x s).sched = s.sched := rfl
@[simp] theorem setLaneRt_tele (m l : Nat) (x : LaneRt) : (setLaneRt m l x s).tele = s.tele := rfl
@[simp] theorem setLaneRt_cmd (m l : Nat) (x : LaneRt) : (setLaneRt m l x s).cmd = s.cmd := rfl
@[simp] theorem setLaneRt_host (m l : Nat) (x : LaneRt) : (setLaneRt m l x s).host = s.host := rfl
@[simp] theorem setLaneRt_eng (m l : Nat) (x : LaneRt) : (setLaneRt m l x s).eng = s.eng := rfl
@[simp] theorem setLaneRt_fw (m l : Nat) (x : LaneRt) : (setLaneRt m l x s).fw = s.fw := rfl
@[simp] theorem setLaneRt_stl (m l : Nat) (x : LaneRt) : (setLaneRt m l x s).stl = s.stl := rfl
@[simp] theorem setLaneRt_twin (m l : Nat) (x : LaneRt) : (setLaneRt m l x s).twin = s.twin := rfl
@[simp] theorem setLaneRt_chain (m l : Nat) (x : LaneRt) : (setLaneRt m l x s).chain = s.chain := rfl
@[simp] theorem setLaneRt_pwr (m l : Nat) (x : LaneRt) : (setLaneRt m l x s).pwr = s.pwr := rfl
@[simp] theorem setLaneRt_flt (m l : Nat) (x : LaneRt) : (setLaneRt m l x s).flt = s.flt := rfl
@[simp] theorem setLaneRt_fuse (m l : Nat) (x : LaneRt) : (setLaneRt m l x s).fuse = s.fuse := rfl
@[simp] theorem setLaneRt_boot (m l : Nat) (x : LaneRt) : (setLaneRt m l x s).boot = s.boot := rfl
@[simp] theorem setLaneRt_free (m l : Nat) (x : LaneRt) : (setLaneRt m l x s).free = s.free := rfl
@[simp] theorem setLaneRt_out (m l : Nat) (x : LaneRt) : (setLaneRt m l x s).out = s.out := rfl
@[simp] theorem setLaneRt_pending (m l : Nat) (x : LaneRt) : (setLaneRt m l x s).pending = s.pending := rfl
/-- What `laneRt` reads after `setLaneRt`. -/
theorem laneRt_setLaneRt (m l m2 l2 : Nat) (x : LaneRt) :
    laneRt (setLaneRt m l x s) m2 l2 = if m = m2 ∧ l = l2 then x else laneRt s m2 l2 := by
  simp [laneRt, setLaneRt]

/-! ### `setPktRing` -/

@[simp] theorem setPktRing_rf (r : Nat) (x : PktRing) : (setPktRing r x s).rf = s.rf := rfl
@[simp] theorem setPktRing_clk (r : Nat) (x : PktRing) : (setPktRing r x s).clk = s.clk := rfl
@[simp] theorem setPktRing_port (r : Nat) (x : PktRing) : (setPktRing r x s).port = s.port := rfl
@[simp] theorem setPktRing_tbl (r : Nat) (x : PktRing) : (setPktRing r x s).tbl = s.tbl := rfl
@[simp] theorem setPktRing_pal (r : Nat) (x : PktRing) : (setPktRing r x s).pal = s.pal := rfl
@[simp] theorem setPktRing_sched (r : Nat) (x : PktRing) : (setPktRing r x s).sched = s.sched := rfl
@[simp] theorem setPktRing_tele (r : Nat) (x : PktRing) : (setPktRing r x s).tele = s.tele := rfl
@[simp] theorem setPktRing_cmd (r : Nat) (x : PktRing) : (setPktRing r x s).cmd = s.cmd := rfl
@[simp] theorem setPktRing_eng (r : Nat) (x : PktRing) : (setPktRing r x s).eng = s.eng := rfl
@[simp] theorem setPktRing_fw (r : Nat) (x : PktRing) : (setPktRing r x s).fw = s.fw := rfl
@[simp] theorem setPktRing_stl (r : Nat) (x : PktRing) : (setPktRing r x s).stl = s.stl := rfl
@[simp] theorem setPktRing_twin (r : Nat) (x : PktRing) : (setPktRing r x s).twin = s.twin := rfl
@[simp] theorem setPktRing_chain (r : Nat) (x : PktRing) : (setPktRing r x s).chain = s.chain := rfl
@[simp] theorem setPktRing_pwr (r : Nat) (x : PktRing) : (setPktRing r x s).pwr = s.pwr := rfl
@[simp] theorem setPktRing_flt (r : Nat) (x : PktRing) : (setPktRing r x s).flt = s.flt := rfl
@[simp] theorem setPktRing_fuse (r : Nat) (x : PktRing) : (setPktRing r x s).fuse = s.fuse := rfl
@[simp] theorem setPktRing_boot (r : Nat) (x : PktRing) : (setPktRing r x s).boot = s.boot := rfl
@[simp] theorem setPktRing_free (r : Nat) (x : PktRing) : (setPktRing r x s).free = s.free := rfl
@[simp] theorem setPktRing_out (r : Nat) (x : PktRing) : (setPktRing r x s).out = s.out := rfl
@[simp] theorem setPktRing_pending (r : Nat) (x : PktRing) : (setPktRing r x s).pending = s.pending := rfl
/-- What `pktRing` reads after `setPktRing`. -/
theorem pktRing_setPktRing (r k : Nat) (x : PktRing) :
    pktRing (setPktRing r x s) k = if r = k then x else pktRing s k := by
  simp [pktRing, setPktRing]

/-! ### `setCmdRing` -/

@[simp] theorem setCmdRing_rf (r : Nat) (x : CmdRing) : (setCmdRing r x s).rf = s.rf := rfl
@[simp] theorem setCmdRing_clk (r : Nat) (x : CmdRing) : (setCmdRing r x s).clk = s.clk := rfl
@[simp] theorem setCmdRing_port (r : Nat) (x : CmdRing) : (setCmdRing r x s).port = s.port := rfl
@[simp] theorem setCmdRing_tbl (r : Nat) (x : CmdRing) : (setCmdRing r x s).tbl = s.tbl := rfl
@[simp] theorem setCmdRing_pal (r : Nat) (x : CmdRing) : (setCmdRing r x s).pal = s.pal := rfl
@[simp] theorem setCmdRing_sched (r : Nat) (x : CmdRing) : (setCmdRing r x s).sched = s.sched := rfl
@[simp] theorem setCmdRing_tele (r : Nat) (x : CmdRing) : (setCmdRing r x s).tele = s.tele := rfl
@[simp] theorem setCmdRing_host (r : Nat) (x : CmdRing) : (setCmdRing r x s).host = s.host := rfl
@[simp] theorem setCmdRing_eng (r : Nat) (x : CmdRing) : (setCmdRing r x s).eng = s.eng := rfl
@[simp] theorem setCmdRing_fw (r : Nat) (x : CmdRing) : (setCmdRing r x s).fw = s.fw := rfl
@[simp] theorem setCmdRing_stl (r : Nat) (x : CmdRing) : (setCmdRing r x s).stl = s.stl := rfl
@[simp] theorem setCmdRing_twin (r : Nat) (x : CmdRing) : (setCmdRing r x s).twin = s.twin := rfl
@[simp] theorem setCmdRing_chain (r : Nat) (x : CmdRing) : (setCmdRing r x s).chain = s.chain := rfl
@[simp] theorem setCmdRing_pwr (r : Nat) (x : CmdRing) : (setCmdRing r x s).pwr = s.pwr := rfl
@[simp] theorem setCmdRing_flt (r : Nat) (x : CmdRing) : (setCmdRing r x s).flt = s.flt := rfl
@[simp] theorem setCmdRing_fuse (r : Nat) (x : CmdRing) : (setCmdRing r x s).fuse = s.fuse := rfl
@[simp] theorem setCmdRing_boot (r : Nat) (x : CmdRing) : (setCmdRing r x s).boot = s.boot := rfl
@[simp] theorem setCmdRing_free (r : Nat) (x : CmdRing) : (setCmdRing r x s).free = s.free := rfl
@[simp] theorem setCmdRing_out (r : Nat) (x : CmdRing) : (setCmdRing r x s).out = s.out := rfl
@[simp] theorem setCmdRing_pending (r : Nat) (x : CmdRing) : (setCmdRing r x s).pending = s.pending := rfl
/-- What `cmdRing` reads after `setCmdRing`. -/
theorem cmdRing_setCmdRing (r k : Nat) (x : CmdRing) :
    cmdRing (setCmdRing r x s) k = if r = k then x else cmdRing s k := by
  simp [cmdRing, setCmdRing]

/-! ### `setNodeRt` -/

@[simp] theorem setNodeRt_rf (n : Node) (x : NodeRt) : (setNodeRt n x s).rf = s.rf := rfl
@[simp] theorem setNodeRt_clk (n : Node) (x : NodeRt) : (setNodeRt n x s).clk = s.clk := rfl
@[simp] theorem setNodeRt_port (n : Node) (x : NodeRt) : (setNodeRt n x s).port = s.port := rfl
@[simp] theorem setNodeRt_tbl (n : Node) (x : NodeRt) : (setNodeRt n x s).tbl = s.tbl := rfl
@[simp] theorem setNodeRt_pal (n : Node) (x : NodeRt) : (setNodeRt n x s).pal = s.pal := rfl
@[simp] theorem setNodeRt_tele (n : Node) (x : NodeRt) : (setNodeRt n x s).tele = s.tele := rfl
@[simp] theorem setNodeRt_cmd (n : Node) (x : NodeRt) : (setNodeRt n x s).cmd = s.cmd := rfl
@[simp] theorem setNodeRt_host (n : Node) (x : NodeRt) : (setNodeRt n x s).host = s.host := rfl
@[simp] theorem setNodeRt_eng (n : Node) (x : NodeRt) : (setNodeRt n x s).eng = s.eng := rfl
@[simp] theorem setNodeRt_fw (n : Node) (x : NodeRt) : (setNodeRt n x s).fw = s.fw := rfl
@[simp] theorem setNodeRt_stl (n : Node) (x : NodeRt) : (setNodeRt n x s).stl = s.stl := rfl
@[simp] theorem setNodeRt_twin (n : Node) (x : NodeRt) : (setNodeRt n x s).twin = s.twin := rfl
@[simp] theorem setNodeRt_chain (n : Node) (x : NodeRt) : (setNodeRt n x s).chain = s.chain := rfl
@[simp] theorem setNodeRt_pwr (n : Node) (x : NodeRt) : (setNodeRt n x s).pwr = s.pwr := rfl
@[simp] theorem setNodeRt_flt (n : Node) (x : NodeRt) : (setNodeRt n x s).flt = s.flt := rfl
@[simp] theorem setNodeRt_fuse (n : Node) (x : NodeRt) : (setNodeRt n x s).fuse = s.fuse := rfl
@[simp] theorem setNodeRt_boot (n : Node) (x : NodeRt) : (setNodeRt n x s).boot = s.boot := rfl
@[simp] theorem setNodeRt_free (n : Node) (x : NodeRt) : (setNodeRt n x s).free = s.free := rfl
@[simp] theorem setNodeRt_out (n : Node) (x : NodeRt) : (setNodeRt n x s).out = s.out := rfl
@[simp] theorem setNodeRt_pending (n : Node) (x : NodeRt) : (setNodeRt n x s).pending = s.pending := rfl
/-- What `nodeRt` reads after `setNodeRt`. -/
theorem nodeRt_setNodeRt (n k : Node) (x : NodeRt) :
    nodeRt (setNodeRt n x s) k = if n = k then x else nodeRt s k := by
  simp [nodeRt, setNodeRt]

/-! ### `setQueue` -/

@[simp] theorem setQueue_rf (q : Node) (l : List Nat) : (setQueue q l s).rf = s.rf := rfl
@[simp] theorem setQueue_clk (q : Node) (l : List Nat) : (setQueue q l s).clk = s.clk := rfl
@[simp] theorem setQueue_port (q : Node) (l : List Nat) : (setQueue q l s).port = s.port := rfl
@[simp] theorem setQueue_tbl (q : Node) (l : List Nat) : (setQueue q l s).tbl = s.tbl := rfl
@[simp] theorem setQueue_pal (q : Node) (l : List Nat) : (setQueue q l s).pal = s.pal := rfl
@[simp] theorem setQueue_tele (q : Node) (l : List Nat) : (setQueue q l s).tele = s.tele := rfl
@[simp] theorem setQueue_cmd (q : Node) (l : List Nat) : (setQueue q l s).cmd = s.cmd := rfl
@[simp] theorem setQueue_host (q : Node) (l : List Nat) : (setQueue q l s).host = s.host := rfl
@[simp] theorem setQueue_eng (q : Node) (l : List Nat) : (setQueue q l s).eng = s.eng := rfl
@[simp] theorem setQueue_fw (q : Node) (l : List Nat) : (setQueue q l s).fw = s.fw := rfl
@[simp] theorem setQueue_stl (q : Node) (l : List Nat) : (setQueue q l s).stl = s.stl := rfl
@[simp] theorem setQueue_twin (q : Node) (l : List Nat) : (setQueue q l s).twin = s.twin := rfl
@[simp] theorem setQueue_chain (q : Node) (l : List Nat) : (setQueue q l s).chain = s.chain := rfl
@[simp] theorem setQueue_pwr (q : Node) (l : List Nat) : (setQueue q l s).pwr = s.pwr := rfl
@[simp] theorem setQueue_flt (q : Node) (l : List Nat) : (setQueue q l s).flt = s.flt := rfl
@[simp] theorem setQueue_fuse (q : Node) (l : List Nat) : (setQueue q l s).fuse = s.fuse := rfl
@[simp] theorem setQueue_boot (q : Node) (l : List Nat) : (setQueue q l s).boot = s.boot := rfl
@[simp] theorem setQueue_free (q : Node) (l : List Nat) : (setQueue q l s).free = s.free := rfl
@[simp] theorem setQueue_out (q : Node) (l : List Nat) : (setQueue q l s).out = s.out := rfl
@[simp] theorem setQueue_pending (q : Node) (l : List Nat) : (setQueue q l s).pending = s.pending := rfl
/-- What `queueOf` reads after `setQueue`. -/
theorem queueOf_setQueue (q k : Node) (l : List Nat) :
    queueOf (setQueue q l s) k = if q = k then l else queueOf s k := by
  simp [queueOf, setQueue]

/-! ### `setReader` -/

@[simp] theorem setReader_rf (m : Nat) (x : Reader) : (setReader m x s).rf = s.rf := rfl
@[simp] theorem setReader_clk (m : Nat) (x : Reader) : (setReader m x s).clk = s.clk := rfl
@[simp] theorem setReader_port (m : Nat) (x : Reader) : (setReader m x s).port = s.port := rfl
@[simp] theorem setReader_tbl (m : Nat) (x : Reader) : (setReader m x s).tbl = s.tbl := rfl
@[simp] theorem setReader_sched (m : Nat) (x : Reader) : (setReader m x s).sched = s.sched := rfl
@[simp] theorem setReader_tele (m : Nat) (x : Reader) : (setReader m x s).tele = s.tele := rfl
@[simp] theorem setReader_cmd (m : Nat) (x : Reader) : (setReader m x s).cmd = s.cmd := rfl
@[simp] theorem setReader_host (m : Nat) (x : Reader) : (setReader m x s).host = s.host := rfl
@[simp] theorem setReader_eng (m : Nat) (x : Reader) : (setReader m x s).eng = s.eng := rfl
@[simp] theorem setReader_fw (m : Nat) (x : Reader) : (setReader m x s).fw = s.fw := rfl
@[simp] theorem setReader_stl (m : Nat) (x : Reader) : (setReader m x s).stl = s.stl := rfl
@[simp] theorem setReader_twin (m : Nat) (x : Reader) : (setReader m x s).twin = s.twin := rfl
@[simp] theorem setReader_chain (m : Nat) (x : Reader) : (setReader m x s).chain = s.chain := rfl
@[simp] theorem setReader_pwr (m : Nat) (x : Reader) : (setReader m x s).pwr = s.pwr := rfl
@[simp] theorem setReader_flt (m : Nat) (x : Reader) : (setReader m x s).flt = s.flt := rfl
@[simp] theorem setReader_fuse (m : Nat) (x : Reader) : (setReader m x s).fuse = s.fuse := rfl
@[simp] theorem setReader_boot (m : Nat) (x : Reader) : (setReader m x s).boot = s.boot := rfl
@[simp] theorem setReader_free (m : Nat) (x : Reader) : (setReader m x s).free = s.free := rfl
@[simp] theorem setReader_out (m : Nat) (x : Reader) : (setReader m x s).out = s.out := rfl
@[simp] theorem setReader_pending (m : Nat) (x : Reader) : (setReader m x s).pending = s.pending := rfl
/-- What `reader` reads after `setReader`. -/
theorem reader_setReader (m k : Nat) (x : Reader) :
    reader (setReader m x s) k = if m = k then x else reader s k := by
  simp [reader, setReader]

/-! ### `setFifo` -/

@[simp] theorem setFifo_rf (p : Nat) (l : List FifoEnt) : (setFifo p l s).rf = s.rf := rfl
@[simp] theorem setFifo_clk (p : Nat) (l : List FifoEnt) : (setFifo p l s).clk = s.clk := rfl
@[simp] theorem setFifo_port (p : Nat) (l : List FifoEnt) : (setFifo p l s).port = s.port := rfl
@[simp] theorem setFifo_tbl (p : Nat) (l : List FifoEnt) : (setFifo p l s).tbl = s.tbl := rfl
@[simp] theorem setFifo_sched (p : Nat) (l : List FifoEnt) : (setFifo p l s).sched = s.sched := rfl
@[simp] theorem setFifo_tele (p : Nat) (l : List FifoEnt) : (setFifo p l s).tele = s.tele := rfl
@[simp] theorem setFifo_cmd (p : Nat) (l : List FifoEnt) : (setFifo p l s).cmd = s.cmd := rfl
@[simp] theorem setFifo_host (p : Nat) (l : List FifoEnt) : (setFifo p l s).host = s.host := rfl
@[simp] theorem setFifo_eng (p : Nat) (l : List FifoEnt) : (setFifo p l s).eng = s.eng := rfl
@[simp] theorem setFifo_fw (p : Nat) (l : List FifoEnt) : (setFifo p l s).fw = s.fw := rfl
@[simp] theorem setFifo_stl (p : Nat) (l : List FifoEnt) : (setFifo p l s).stl = s.stl := rfl
@[simp] theorem setFifo_twin (p : Nat) (l : List FifoEnt) : (setFifo p l s).twin = s.twin := rfl
@[simp] theorem setFifo_chain (p : Nat) (l : List FifoEnt) : (setFifo p l s).chain = s.chain := rfl
@[simp] theorem setFifo_pwr (p : Nat) (l : List FifoEnt) : (setFifo p l s).pwr = s.pwr := rfl
@[simp] theorem setFifo_flt (p : Nat) (l : List FifoEnt) : (setFifo p l s).flt = s.flt := rfl
@[simp] theorem setFifo_fuse (p : Nat) (l : List FifoEnt) : (setFifo p l s).fuse = s.fuse := rfl
@[simp] theorem setFifo_boot (p : Nat) (l : List FifoEnt) : (setFifo p l s).boot = s.boot := rfl
@[simp] theorem setFifo_free (p : Nat) (l : List FifoEnt) : (setFifo p l s).free = s.free := rfl
@[simp] theorem setFifo_out (p : Nat) (l : List FifoEnt) : (setFifo p l s).out = s.out := rfl
@[simp] theorem setFifo_pending (p : Nat) (l : List FifoEnt) : (setFifo p l s).pending = s.pending := rfl
/-- What `fifo` reads after `setFifo`. -/
theorem fifo_setFifo (p k : Nat) (l : List FifoEnt) :
    fifo (setFifo p l s) k = if p = k then l else fifo s k := by
  simp [fifo, setFifo]

/-! ### `setTarget` -/

@[simp] theorem setTarget_rf (n : Nat) (x : Target) : (setTarget n x s).rf = s.rf := rfl
@[simp] theorem setTarget_clk (n : Nat) (x : Target) : (setTarget n x s).clk = s.clk := rfl
@[simp] theorem setTarget_port (n : Nat) (x : Target) : (setTarget n x s).port = s.port := rfl
@[simp] theorem setTarget_tbl (n : Nat) (x : Target) : (setTarget n x s).tbl = s.tbl := rfl
@[simp] theorem setTarget_pal (n : Nat) (x : Target) : (setTarget n x s).pal = s.pal := rfl
@[simp] theorem setTarget_sched (n : Nat) (x : Target) : (setTarget n x s).sched = s.sched := rfl
@[simp] theorem setTarget_cmd (n : Nat) (x : Target) : (setTarget n x s).cmd = s.cmd := rfl
@[simp] theorem setTarget_host (n : Nat) (x : Target) : (setTarget n x s).host = s.host := rfl
@[simp] theorem setTarget_eng (n : Nat) (x : Target) : (setTarget n x s).eng = s.eng := rfl
@[simp] theorem setTarget_fw (n : Nat) (x : Target) : (setTarget n x s).fw = s.fw := rfl
@[simp] theorem setTarget_stl (n : Nat) (x : Target) : (setTarget n x s).stl = s.stl := rfl
@[simp] theorem setTarget_twin (n : Nat) (x : Target) : (setTarget n x s).twin = s.twin := rfl
@[simp] theorem setTarget_chain (n : Nat) (x : Target) : (setTarget n x s).chain = s.chain := rfl
@[simp] theorem setTarget_pwr (n : Nat) (x : Target) : (setTarget n x s).pwr = s.pwr := rfl
@[simp] theorem setTarget_flt (n : Nat) (x : Target) : (setTarget n x s).flt = s.flt := rfl
@[simp] theorem setTarget_fuse (n : Nat) (x : Target) : (setTarget n x s).fuse = s.fuse := rfl
@[simp] theorem setTarget_boot (n : Nat) (x : Target) : (setTarget n x s).boot = s.boot := rfl
@[simp] theorem setTarget_free (n : Nat) (x : Target) : (setTarget n x s).free = s.free := rfl
@[simp] theorem setTarget_out (n : Nat) (x : Target) : (setTarget n x s).out = s.out := rfl
@[simp] theorem setTarget_pending (n : Nat) (x : Target) : (setTarget n x s).pending = s.pending := rfl
/-- What `target` reads after `setTarget`. -/
theorem target_setTarget (n k : Nat) (x : Target) :
    target (setTarget n x s) k = if n = k then x else target s k := by
  simp [target, setTarget]

/-! ### `setPolicer` -/

@[simp] theorem setPolicer_rf (d p i : Nat) (x : Policer) : (setPolicer d p i x s).rf = s.rf := rfl
@[simp] theorem setPolicer_clk (d p i : Nat) (x : Policer) : (setPolicer d p i x s).clk = s.clk := rfl
@[simp] theorem setPolicer_port (d p i : Nat) (x : Policer) : (setPolicer d p i x s).port = s.port := rfl
@[simp] theorem setPolicer_tbl (d p i : Nat) (x : Policer) : (setPolicer d p i x s).tbl = s.tbl := rfl
@[simp] theorem setPolicer_pal (d p i : Nat) (x : Policer) : (setPolicer d p i x s).pal = s.pal := rfl
@[simp] theorem setPolicer_tele (d p i : Nat) (x : Policer) : (setPolicer d p i x s).tele = s.tele := rfl
@[simp] theorem setPolicer_cmd (d p i : Nat) (x : Policer) : (setPolicer d p i x s).cmd = s.cmd := rfl
@[simp] theorem setPolicer_host (d p i : Nat) (x : Policer) : (setPolicer d p i x s).host = s.host := rfl
@[simp] theorem setPolicer_eng (d p i : Nat) (x : Policer) : (setPolicer d p i x s).eng = s.eng := rfl
@[simp] theorem setPolicer_fw (d p i : Nat) (x : Policer) : (setPolicer d p i x s).fw = s.fw := rfl
@[simp] theorem setPolicer_stl (d p i : Nat) (x : Policer) : (setPolicer d p i x s).stl = s.stl := rfl
@[simp] theorem setPolicer_twin (d p i : Nat) (x : Policer) : (setPolicer d p i x s).twin = s.twin := rfl
@[simp] theorem setPolicer_chain (d p i : Nat) (x : Policer) : (setPolicer d p i x s).chain = s.chain := rfl
@[simp] theorem setPolicer_pwr (d p i : Nat) (x : Policer) : (setPolicer d p i x s).pwr = s.pwr := rfl
@[simp] theorem setPolicer_flt (d p i : Nat) (x : Policer) : (setPolicer d p i x s).flt = s.flt := rfl
@[simp] theorem setPolicer_fuse (d p i : Nat) (x : Policer) : (setPolicer d p i x s).fuse = s.fuse := rfl
@[simp] theorem setPolicer_boot (d p i : Nat) (x : Policer) : (setPolicer d p i x s).boot = s.boot := rfl
@[simp] theorem setPolicer_free (d p i : Nat) (x : Policer) : (setPolicer d p i x s).free = s.free := rfl
@[simp] theorem setPolicer_out (d p i : Nat) (x : Policer) : (setPolicer d p i x s).out = s.out := rfl
@[simp] theorem setPolicer_pending (d p i : Nat) (x : Policer) : (setPolicer d p i x s).pending = s.pending := rfl
/-- What `policer` reads after `setPolicer`. -/
theorem policer_setPolicer (d p i d2 p2 i2 : Nat) (x : Policer) :
    policer (setPolicer d p i x s) d2 p2 i2 = if d = d2 ∧ p = p2 ∧ i = i2 then x else policer s d2 p2 i2 := by
  simp [policer, setPolicer]

/-! ### `setStlPort` -/

@[simp] theorem setStlPort_rf (n : Nat) (x : StlPort) : (setStlPort n x s).rf = s.rf := rfl
@[simp] theorem setStlPort_clk (n : Nat) (x : StlPort) : (setStlPort n x s).clk = s.clk := rfl
@[simp] theorem setStlPort_port (n : Nat) (x : StlPort) : (setStlPort n x s).port = s.port := rfl
@[simp] theorem setStlPort_tbl (n : Nat) (x : StlPort) : (setStlPort n x s).tbl = s.tbl := rfl
@[simp] theorem setStlPort_pal (n : Nat) (x : StlPort) : (setStlPort n x s).pal = s.pal := rfl
@[simp] theorem setStlPort_sched (n : Nat) (x : StlPort) : (setStlPort n x s).sched = s.sched := rfl
@[simp] theorem setStlPort_tele (n : Nat) (x : StlPort) : (setStlPort n x s).tele = s.tele := rfl
@[simp] theorem setStlPort_cmd (n : Nat) (x : StlPort) : (setStlPort n x s).cmd = s.cmd := rfl
@[simp] theorem setStlPort_host (n : Nat) (x : StlPort) : (setStlPort n x s).host = s.host := rfl
@[simp] theorem setStlPort_eng (n : Nat) (x : StlPort) : (setStlPort n x s).eng = s.eng := rfl
@[simp] theorem setStlPort_fw (n : Nat) (x : StlPort) : (setStlPort n x s).fw = s.fw := rfl
@[simp] theorem setStlPort_twin (n : Nat) (x : StlPort) : (setStlPort n x s).twin = s.twin := rfl
@[simp] theorem setStlPort_chain (n : Nat) (x : StlPort) : (setStlPort n x s).chain = s.chain := rfl
@[simp] theorem setStlPort_pwr (n : Nat) (x : StlPort) : (setStlPort n x s).pwr = s.pwr := rfl
@[simp] theorem setStlPort_flt (n : Nat) (x : StlPort) : (setStlPort n x s).flt = s.flt := rfl
@[simp] theorem setStlPort_fuse (n : Nat) (x : StlPort) : (setStlPort n x s).fuse = s.fuse := rfl
@[simp] theorem setStlPort_boot (n : Nat) (x : StlPort) : (setStlPort n x s).boot = s.boot := rfl
@[simp] theorem setStlPort_free (n : Nat) (x : StlPort) : (setStlPort n x s).free = s.free := rfl
@[simp] theorem setStlPort_out (n : Nat) (x : StlPort) : (setStlPort n x s).out = s.out := rfl
@[simp] theorem setStlPort_pending (n : Nat) (x : StlPort) : (setStlPort n x s).pending = s.pending := rfl
/-- What `stlPort` reads after `setStlPort`. -/
theorem stlPort_setStlPort (n k : Nat) (x : StlPort) :
    stlPort (setStlPort n x s) k = if n = k then x else stlPort s k := by
  simp [stlPort, setStlPort]

/-! ### `setStlLane` -/

@[simp] theorem setStlLane_rf (n l : Nat) (x : StlLane) : (setStlLane n l x s).rf = s.rf := rfl
@[simp] theorem setStlLane_clk (n l : Nat) (x : StlLane) : (setStlLane n l x s).clk = s.clk := rfl
@[simp] theorem setStlLane_port (n l : Nat) (x : StlLane) : (setStlLane n l x s).port = s.port := rfl
@[simp] theorem setStlLane_tbl (n l : Nat) (x : StlLane) : (setStlLane n l x s).tbl = s.tbl := rfl
@[simp] theorem setStlLane_pal (n l : Nat) (x : StlLane) : (setStlLane n l x s).pal = s.pal := rfl
@[simp] theorem setStlLane_sched (n l : Nat) (x : StlLane) : (setStlLane n l x s).sched = s.sched := rfl
@[simp] theorem setStlLane_tele (n l : Nat) (x : StlLane) : (setStlLane n l x s).tele = s.tele := rfl
@[simp] theorem setStlLane_cmd (n l : Nat) (x : StlLane) : (setStlLane n l x s).cmd = s.cmd := rfl
@[simp] theorem setStlLane_host (n l : Nat) (x : StlLane) : (setStlLane n l x s).host = s.host := rfl
@[simp] theorem setStlLane_eng (n l : Nat) (x : StlLane) : (setStlLane n l x s).eng = s.eng := rfl
@[simp] theorem setStlLane_fw (n l : Nat) (x : StlLane) : (setStlLane n l x s).fw = s.fw := rfl
@[simp] theorem setStlLane_twin (n l : Nat) (x : StlLane) : (setStlLane n l x s).twin = s.twin := rfl
@[simp] theorem setStlLane_chain (n l : Nat) (x : StlLane) : (setStlLane n l x s).chain = s.chain := rfl
@[simp] theorem setStlLane_pwr (n l : Nat) (x : StlLane) : (setStlLane n l x s).pwr = s.pwr := rfl
@[simp] theorem setStlLane_flt (n l : Nat) (x : StlLane) : (setStlLane n l x s).flt = s.flt := rfl
@[simp] theorem setStlLane_fuse (n l : Nat) (x : StlLane) : (setStlLane n l x s).fuse = s.fuse := rfl
@[simp] theorem setStlLane_boot (n l : Nat) (x : StlLane) : (setStlLane n l x s).boot = s.boot := rfl
@[simp] theorem setStlLane_free (n l : Nat) (x : StlLane) : (setStlLane n l x s).free = s.free := rfl
@[simp] theorem setStlLane_out (n l : Nat) (x : StlLane) : (setStlLane n l x s).out = s.out := rfl
@[simp] theorem setStlLane_pending (n l : Nat) (x : StlLane) : (setStlLane n l x s).pending = s.pending := rfl
/-- What `stlLane` reads after `setStlLane`. -/
theorem stlLane_setStlLane (n l n2 l2 : Nat) (x : StlLane) :
    stlLane (setStlLane n l x s) n2 l2 = if n = n2 ∧ l = l2 then x else stlLane s n2 l2 := by
  simp [stlLane, setStlLane]

/-! ### `setPkt` -/

@[simp] theorem setPkt_rf (p : Pkt) : (setPkt p s).rf = s.rf := rfl
@[simp] theorem setPkt_clk (p : Pkt) : (setPkt p s).clk = s.clk := rfl
@[simp] theorem setPkt_port (p : Pkt) : (setPkt p s).port = s.port := rfl
@[simp] theorem setPkt_tbl (p : Pkt) : (setPkt p s).tbl = s.tbl := rfl
@[simp] theorem setPkt_sched (p : Pkt) : (setPkt p s).sched = s.sched := rfl
@[simp] theorem setPkt_tele (p : Pkt) : (setPkt p s).tele = s.tele := rfl
@[simp] theorem setPkt_cmd (p : Pkt) : (setPkt p s).cmd = s.cmd := rfl
@[simp] theorem setPkt_host (p : Pkt) : (setPkt p s).host = s.host := rfl
@[simp] theorem setPkt_eng (p : Pkt) : (setPkt p s).eng = s.eng := rfl
@[simp] theorem setPkt_fw (p : Pkt) : (setPkt p s).fw = s.fw := rfl
@[simp] theorem setPkt_stl (p : Pkt) : (setPkt p s).stl = s.stl := rfl
@[simp] theorem setPkt_twin (p : Pkt) : (setPkt p s).twin = s.twin := rfl
@[simp] theorem setPkt_chain (p : Pkt) : (setPkt p s).chain = s.chain := rfl
@[simp] theorem setPkt_pwr (p : Pkt) : (setPkt p s).pwr = s.pwr := rfl
@[simp] theorem setPkt_flt (p : Pkt) : (setPkt p s).flt = s.flt := rfl
@[simp] theorem setPkt_fuse (p : Pkt) : (setPkt p s).fuse = s.fuse := rfl
@[simp] theorem setPkt_boot (p : Pkt) : (setPkt p s).boot = s.boot := rfl
@[simp] theorem setPkt_free (p : Pkt) : (setPkt p s).free = s.free := rfl
@[simp] theorem setPkt_out (p : Pkt) : (setPkt p s).out = s.out := rfl
@[simp] theorem setPkt_pending (p : Pkt) : (setPkt p s).pending = s.pending := rfl

/-! ### `setCopy` -/

@[simp] theorem setCopy_rf (c : Copy) : (setCopy c s).rf = s.rf := rfl
@[simp] theorem setCopy_clk (c : Copy) : (setCopy c s).clk = s.clk := rfl
@[simp] theorem setCopy_port (c : Copy) : (setCopy c s).port = s.port := rfl
@[simp] theorem setCopy_tbl (c : Copy) : (setCopy c s).tbl = s.tbl := rfl
@[simp] theorem setCopy_sched (c : Copy) : (setCopy c s).sched = s.sched := rfl
@[simp] theorem setCopy_tele (c : Copy) : (setCopy c s).tele = s.tele := rfl
@[simp] theorem setCopy_cmd (c : Copy) : (setCopy c s).cmd = s.cmd := rfl
@[simp] theorem setCopy_host (c : Copy) : (setCopy c s).host = s.host := rfl
@[simp] theorem setCopy_eng (c : Copy) : (setCopy c s).eng = s.eng := rfl
@[simp] theorem setCopy_fw (c : Copy) : (setCopy c s).fw = s.fw := rfl
@[simp] theorem setCopy_stl (c : Copy) : (setCopy c s).stl = s.stl := rfl
@[simp] theorem setCopy_twin (c : Copy) : (setCopy c s).twin = s.twin := rfl
@[simp] theorem setCopy_chain (c : Copy) : (setCopy c s).chain = s.chain := rfl
@[simp] theorem setCopy_pwr (c : Copy) : (setCopy c s).pwr = s.pwr := rfl
@[simp] theorem setCopy_flt (c : Copy) : (setCopy c s).flt = s.flt := rfl
@[simp] theorem setCopy_fuse (c : Copy) : (setCopy c s).fuse = s.fuse := rfl
@[simp] theorem setCopy_boot (c : Copy) : (setCopy c s).boot = s.boot := rfl
@[simp] theorem setCopy_free (c : Copy) : (setCopy c s).free = s.free := rfl
@[simp] theorem setCopy_out (c : Copy) : (setCopy c s).out = s.out := rfl
@[simp] theorem setCopy_pending (c : Copy) : (setCopy c s).pending = s.pending := rfl

/-! ### `modOut` -/

@[simp] theorem modOut_rf (n : Nat) (f : OutCmd → OutCmd) : (modOut n f s).rf = s.rf := rfl
@[simp] theorem modOut_clk (n : Nat) (f : OutCmd → OutCmd) : (modOut n f s).clk = s.clk := rfl
@[simp] theorem modOut_port (n : Nat) (f : OutCmd → OutCmd) : (modOut n f s).port = s.port := rfl
@[simp] theorem modOut_tbl (n : Nat) (f : OutCmd → OutCmd) : (modOut n f s).tbl = s.tbl := rfl
@[simp] theorem modOut_pal (n : Nat) (f : OutCmd → OutCmd) : (modOut n f s).pal = s.pal := rfl
@[simp] theorem modOut_sched (n : Nat) (f : OutCmd → OutCmd) : (modOut n f s).sched = s.sched := rfl
@[simp] theorem modOut_tele (n : Nat) (f : OutCmd → OutCmd) : (modOut n f s).tele = s.tele := rfl
@[simp] theorem modOut_host (n : Nat) (f : OutCmd → OutCmd) : (modOut n f s).host = s.host := rfl
@[simp] theorem modOut_eng (n : Nat) (f : OutCmd → OutCmd) : (modOut n f s).eng = s.eng := rfl
@[simp] theorem modOut_fw (n : Nat) (f : OutCmd → OutCmd) : (modOut n f s).fw = s.fw := rfl
@[simp] theorem modOut_stl (n : Nat) (f : OutCmd → OutCmd) : (modOut n f s).stl = s.stl := rfl
@[simp] theorem modOut_twin (n : Nat) (f : OutCmd → OutCmd) : (modOut n f s).twin = s.twin := rfl
@[simp] theorem modOut_chain (n : Nat) (f : OutCmd → OutCmd) : (modOut n f s).chain = s.chain := rfl
@[simp] theorem modOut_pwr (n : Nat) (f : OutCmd → OutCmd) : (modOut n f s).pwr = s.pwr := rfl
@[simp] theorem modOut_flt (n : Nat) (f : OutCmd → OutCmd) : (modOut n f s).flt = s.flt := rfl
@[simp] theorem modOut_fuse (n : Nat) (f : OutCmd → OutCmd) : (modOut n f s).fuse = s.fuse := rfl
@[simp] theorem modOut_boot (n : Nat) (f : OutCmd → OutCmd) : (modOut n f s).boot = s.boot := rfl
@[simp] theorem modOut_free (n : Nat) (f : OutCmd → OutCmd) : (modOut n f s).free = s.free := rfl
@[simp] theorem modOut_out (n : Nat) (f : OutCmd → OutCmd) : (modOut n f s).out = s.out := rfl
@[simp] theorem modOut_pending (n : Nat) (f : OutCmd → OutCmd) : (modOut n f s).pending = s.pending := rfl

/-! ### `dropOut` -/

@[simp] theorem dropOut_rf (n : Nat) : (dropOut n s).rf = s.rf := rfl
@[simp] theorem dropOut_clk (n : Nat) : (dropOut n s).clk = s.clk := rfl
@[simp] theorem dropOut_port (n : Nat) : (dropOut n s).port = s.port := rfl
@[simp] theorem dropOut_tbl (n : Nat) : (dropOut n s).tbl = s.tbl := rfl
@[simp] theorem dropOut_pal (n : Nat) : (dropOut n s).pal = s.pal := rfl
@[simp] theorem dropOut_sched (n : Nat) : (dropOut n s).sched = s.sched := rfl
@[simp] theorem dropOut_tele (n : Nat) : (dropOut n s).tele = s.tele := rfl
@[simp] theorem dropOut_host (n : Nat) : (dropOut n s).host = s.host := rfl
@[simp] theorem dropOut_eng (n : Nat) : (dropOut n s).eng = s.eng := rfl
@[simp] theorem dropOut_fw (n : Nat) : (dropOut n s).fw = s.fw := rfl
@[simp] theorem dropOut_stl (n : Nat) : (dropOut n s).stl = s.stl := rfl
@[simp] theorem dropOut_twin (n : Nat) : (dropOut n s).twin = s.twin := rfl
@[simp] theorem dropOut_chain (n : Nat) : (dropOut n s).chain = s.chain := rfl
@[simp] theorem dropOut_pwr (n : Nat) : (dropOut n s).pwr = s.pwr := rfl
@[simp] theorem dropOut_flt (n : Nat) : (dropOut n s).flt = s.flt := rfl
@[simp] theorem dropOut_fuse (n : Nat) : (dropOut n s).fuse = s.fuse := rfl
@[simp] theorem dropOut_boot (n : Nat) : (dropOut n s).boot = s.boot := rfl
@[simp] theorem dropOut_free (n : Nat) : (dropOut n s).free = s.free := rfl
@[simp] theorem dropOut_out (n : Nat) : (dropOut n s).out = s.out := rfl
@[simp] theorem dropOut_pending (n : Nat) : (dropOut n s).pending = s.pending := rfl

end Sys2Proof.Machine
end

