-- ==== Sys2Proof/Tests/Slice0.lean ====
section
/-! SUPPORT. Tests: for each statement with hypotheses concrete states and operands that meet them (`witness_<statement>`, one for each group of its clauses), well-formed and ill-formed terms for each check of WellFormed.lean (`test_wf_<n>`, `test_<check>`), and a few worked examples of the spec. -/

section
set_option Elab.async false

open Sys2Proof Sys2Proof.Machine Sys2Proof.Safety

namespace Sys2Proof.Tests
def up : State := setF F.RST_STAT_BOOT_STAGE 0 0 6 {}
def upB : State := { up with host := { up.host with bmc := { up.host.bmc with last := some 1 } } }
def h0 : Hdr := ⟨100, 1, 0, 0, 7, false, false, false⟩
def h1 : Hdr := ⟨100, 1, 1, 0, 7, true, false, false⟩
def img : Image := { id := 0x10001, major := 4, minor := 0, exact := [{ id := 3, stage := 1, egress := false, blocks := 1, entryBytes := 32, keyLen := 8, dataLen := 12, versioned := false, learnable := true, ageable := true, destLo := some 4, seed := 5 }, { id := 4, stage := 2, egress := false, blocks := 1, entryBytes := 32, keyLen := 8, dataLen := 12, versioned := true, learnable := false, ageable := false, destLo := none, seed := 6 }], lpm := [{ id := 48, v6 := false, rated := 1000, ratedLong := 1000, dataLen := 12, default := 0 }], policy := [{ id := 0, stage := 3, egress := false, profile := 1, slices := 1, gmasks := [0], rangePos := [] }, { id := 1, stage := 4, egress := true, profile := 3, slices := 4, gmasks := [0], rangePos := [0, 16] }], nodes := [], entries := [] }
def withImg (s : State) : State := { s with tbl := { s.tbl with image := some img, ex := [(3, { seedA := 5 }), (4, { seedA := 6 })] } }
def ti : State := withImg upB
def staged (s : State) : State := setF F.EPOCH_STAT_PENDING 0 0 1 (setF F.EPOCH_STAT_STAGED 0 0 1 s)
def key3 : TblKey := { table := 3, replace := false, static := true, chainWide := false, keyLen := 8, dataLen := 12, prefixLen := 0, key := 0x1234, data := 0x77 }
def ent (k : Nat) (reg pos : Nat) : ExEnt := { region := reg, pos := pos, static := false, origin := 1, openEnd := true, seedSel := false, vfrom := 0, vuntil := 0, key := k, data := 0x99, hit := [0,0,0,0,0,0,0,0] }
def tiE : State := { ti with tbl := { ti.tbl with ex := [(3, { seedA := 5, ents := [ent 0x1234 2 0, ent 0x55 0 7] }), (4, { seedA := 6, ents := [ent 0x1234 0 5] })] } }
def ri (s : State) : State := setF F.CMD_RING_CFG_EN 0 0 1 (setF F.CMD_RING_CFG_SQ_SIZE_LOG2 0 0 6 (setF F.CMD_RING_CFG_CQ_SIZE_LOG2 0 0 6 { s with host := { s.host with dma := true } }))
def h2 : Hdr := ⟨100, 1, 0, 0, 7, true, false, false⟩
def node (k ix parent : Nat) (s : State) : State := setReg (nodeReg0 k) ix 0 (BitVec.ofNat 32 (2 ^ 31 + 2 ^ 16 + parent)) s
def qcopy (i : Nat) (n : Node) (p : Nat) : Copy := { id := i, pkt := 1, node := n, port := p, phase := .queued }
def mcfg : MacroCfg := { mac := 0, enable := true, directDrive := false, laneRate := 1, reach := 1, portStart := 1, anEn := 1, txLane := 0xFAC688, rxLane := 0xFAC688, txInv := 255, rxInv := 1, maxFrame := [9000, 0, 0, 0, 0, 0, 0, 0] }
def on (m : Nat) (s : State) : State := setMacRt m { cfg := some { mcfg with mac := m }, powered := true } (setF F.MAC_MACRO_CFG_ENABLED m 0 1 (setF F.MAC_MACRO_CFG_LANE_RATE m 0 1 (setF F.MAC_MACRO_CFG_REACH m 0 1 (setF F.MAC_MACRO_CFG_PORT_START m 0 1 s))))
def portUp (p : Nat) (s : State) : State := setF F.MAC_MACRO_CFG_PORT_UP (p / 8) 0 1 s
def wd : Wide := { cmd := h0, search := none, next := none, mgen := 0, dev := 0, gen := 0, region := 0, pos := 0, mark := (0, 0, 0, 0) }
def mem (d : Nat) : Member := { dev := d, budget := 1000000, west := 0, east := 0, heardW := some 5, heardE := none, hopsW := 1, hopsE := 0xFFF, extSrc := false }
def chn : State := setF F.CHAIN_STAT_CSTATE 0 0 2 (setF F.CHAIN_STAT_DEV_ID 0 0 9 { upB with chain := { upB.chain with members := [mem 4] } })
def egF : State := { portUp 0 (on 0 ti) with cmd := { ti.cmd with outstanding := [{ serial := 5, kind := 0, sub := 0, tag := 9, opcode := 0x0105, idem := false, ackReq := true, prog := true, priority := 0, objs := [] }] } }
theorem some_getD {α : Type} {x : Option α} (d : α) (h : x.isSome = true) : x = some (x.getD d) := by
  cases x with
  | none => cases h
  | some _ => rfl
theorem quiet_of {s : State} (h : flag s F.VARNISH_CFG_ARMED 0 0 = false) (g : getF s F.VARNISH_CFG_CLASS_MIN 0 0 = 0) :
    (∀ ev, armedFor s ev = false) ∧ ∀ c, classTrips s c = false := by
  refine ⟨fun ev => by simp [armedFor, h], fun c => by simp [classTrips, g]⟩
end Sys2Proof.Tests
namespace Sys2Proof.Tests.T00
def ev : MicroEnv := ⟨0, false, false⟩
def es (x : Engine) (w : Nat) : State := setEngine 5 { x with store := [(x.upc, w)] } (setF F.ENG_STAT_STATE 5 0 1 upB)
def x0 : Engine := { upc := 77, sp := 3, stack := [1, 2, 3, 4, 5, 6, 7, 8], flags := 0x1000 + 0x5A, x := [(1, 0xFFFFFFFFFFFFFFF0), (2, 0x13), (3, 70), (4, 0x100)], scratch := [(0x100, 7), (0x107, 9)], work := [0xDEAD, 0xBEEF], frame := { x28 := 1, x29 := 2, x30 := 3, x31 := 4, vector := 5, sp := 6, next := 99, ended := 98, flags := 0x0FF } }
def xn : Engine := { x0 with flags := 0x5A }
def mw (seq cond target al dst a b isel mem off imm : Nat) : Nat := seq * 2 ^ 124 + cond * 2 ^ 120 + target * 2 ^ 107 + al * 2 ^ 100 + dst * 2 ^ 95 + a * 2 ^ 90 + b * 2 ^ 85 + isel * 2 ^ 84 + mem * 2 ^ 80 + off * 2 ^ 64 + imm
def mwA : Nat := mw 0 3 123 1 4 1 2 0 0 0 0x5
def xe : Engine := { xn with work := [] }
def mwP : Nat := mw 0 3 123 0 4 4 2 0 5 0 0
def mwF : Nat := mw 0 3 123 0 4 1 2 0 1 0 0

theorem witness_MicroSequencing :
    (((1, Instr.uBr 5 5 ev) ∈ [(0, Instr.uNext 5 5 ev), (1, Instr.uBr 5 5 ev), (2, Instr.uBrt 5 5 ev), (3, Instr.uBrf 5 5 ev), (4, Instr.uCall 5 5 ev), (5, Instr.uRet 5 5 ev), (6, Instr.uUret 5 5 ev), (7, Instr.uWait 5 5 ev), (8, Instr.uHalt 5 5 ev)])) ∧
    (Operating (es xn mwA) ∧ 5 < 64 ∧ (engState (es xn mwA) 5 = 1 ∨ engState (es xn mwA) 5 = 3) ∧ (engine (es xn mwA) 5).waiting = false ∧ fetchWord (es xn mwA) 5 = mwA ∧ (mwSeq mwA ≠ (1, Instr.uBr 5 5 ev).fst)) :=
  ⟨by simp, by decide +kernel⟩
theorem witness_MicroAlu :
    (((0, Instr.uPassA 5 5 ev) ∈ [(0, Instr.uPassA 5 5 ev), (1, Instr.uAdd 5 5 ev), (2, Instr.uSubtract 5 5 ev), (3, Instr.uAnd 5 5 ev), (4, Instr.uOr 5 5 ev), (5, Instr.uXor 5 5 ev), (6, Instr.uShiftLeft 5 5 ev), (7, Instr.uShiftRight 5 5 ev), (8, Instr.uArithmeticShiftRight 5 5 ev), (9, Instr.uMinimum 5 5 ev), (10, Instr.uMaximum 5 5 ev), (11, Instr.uMultiply 5 5 ev), (12, Instr.uCrc32cStep 5 5 ev), (13, Instr.uPopulationCount 5 5 ev), (14, Instr.uCompare 5 5 ev), (15, Instr.uDeposit 5 5 ev)])) ∧
    (Operating (es xn mwA) ∧ 5 < 64 ∧ (engState (es xn mwA) 5 = 1 ∨ engState (es xn mwA) 5 = 3) ∧ (engine (es xn mwA) 5).waiting = false ∧ fetchWord (es xn mwA) 5 = mwA ∧ (mwAlu mwA ≠ (0, Instr.uPassA 5 5 ev).fst)) :=
  ⟨by simp, by decide +kernel⟩
theorem witness_MicroMemory_1 :
    (Operating (es xe mwP) ∧ 5 < 64 ∧ (engState (es xe mwP) 5 = 1 ∨ engState (es xe mwP) 5 = 3) ∧ (engine (es xe mwP) 5).waiting = false ∧ fetchWord (es xe mwP) 5 = mwP ∧ ev.cs = 0 ∧ microFault (engine (es xe mwP) 5) mwP ev = none ∧ bit (engine (es xe mwP) 5).flags 11 = false) ∧
    (mwSeq mwP ≠ 6 ∧ mwSeq mwP ≠ 8 ∧ mwMem mwP = 5 ∧ (engine (es xe mwP) 5).work = []) :=
  by refine ⟨?_, ?_⟩ <;> decide +kernel
theorem witness_MicroMemory_2 :
    Operating (es x0 mwF) ∧ 5 < 64 ∧ (engState (es x0 mwF) 5 = 1 ∨ engState (es x0 mwF) 5 = 3) ∧ (engine (es x0 mwF) 5).waiting = false ∧ fetchWord (es x0 mwF) 5 = mwF ∧ (mwMem mwF = 1 ∨ mwMem mwF = 2) ∧ 65536 < memAddr (engine (es x0 mwF) 5) mwF + 8 :=
  by decide +kernel
end Sys2Proof.Tests.T00
namespace Sys2Proof.Tests.T01
def hm (n : Nat) (s : State) : State := setF F.FLT_CFG_HIST_MIN_CLASS 0 0 n (setF F.FLT_STAT_HIST_HEAD 0 0 31 s)
def cl (n : Nat) (s : State) : State := setF F.VARNISH_CFG_CLASS_MIN 0 0 n s
def oc (k ser sub : Nat) : OutCmd := { serial := ser, kind := k, sub := sub, tag := 9, opcode := 0x0105, idem := false, ackReq := true, prog := true, priority := 0, objs := [] }
def big (n : Nat) : State := setF F.CMD_RING_CFG_CQ_SIZE_LOG2 0 0 n (ri { egF with cmd := { egF.cmd with outstanding := [oc 0 5 0, oc 0 6 0, oc 1 7 0, oc 4 8 3] } })
def H (k ser sub : Nat) (a : Bool) : Hdr := ⟨100, ser, k, sub, 9, a, false, true⟩
def sf : State := setF F.FLT_STAT_SAFE 0 0 1 (ri { egF with host := { egF.host with hold := [(3, (5, 7, none))] }, sched := { egF.sched with nodes := [(⟨2, 772⟩, {})] } })
def fz : State := { egF with flt := { egF.flt with frozen := true } }

theorem witness_EventRecorded_1 :
    (hm 0 upB).flt.frozen = false ∧ armedFor (hm 0 upB) 256 = false ∧ classTrips (hm 0 upB) ((evClass 256).getD 0) = false ∧ (evClass 256).isSome = true ∧ (evClass 256).getD 0 ≠ 4 ∧ 256 % 256 < 24 ∧ 256 ≠ 3869 ∧ getF (hm 0 upB) F.FLT_CFG_HIST_MIN_CLASS 0 0 ≤ (evClass 256).getD 0 :=
  by decide +kernel
theorem witness_EventRecorded_2 :
    (hm 3 upB).flt.frozen = false ∧ armedFor (hm 3 upB) 259 = false ∧ classTrips (hm 3 upB) ((evClass 259).getD 0) = false ∧ (evClass 259).isSome = true ∧ (evClass 259).getD 0 ≠ 4 ∧ 259 % 256 < 24 ∧ 259 ≠ 3869 ∧ getF (hm 3 upB) F.FLT_CFG_HIST_MIN_CLASS 0 0 > (evClass 259).getD 0 :=
  by decide +kernel
theorem witness_EventFrame :
    (evClass 512).getD 0 ≠ 4 :=
  by decide +kernel
theorem witness_ClassFEntersTheSafeState :
    upB.flt.frozen = false ∧ isSafe upB = false ∧ 3 < 16 ∧ armedFor upB 512 = false ∧ armedFor upB Ev.FLT_SAFE_STATE = false ∧ classTrips upB 4 = false :=
  by decide +kernel
theorem witness_TriggerFreezes :
    (cl 1 upB).flt.frozen = false ∧ (evClass 512).isSome = true ∧ (armedFor (cl 1 upB) 512 = true ∨ classTrips (cl 1 upB) ((evClass 512).getD 0) = true) :=
  by decide +kernel
theorem witness_FinalReply_1 :
    outCmd (big 6) (H 0 5 0 true).serial = some (oc 0 5 0) ∧ (oc 0 5 0).kind = 0 ∧ (oc 0 5 0).sub = (H 0 5 0 true).sub ∧ (oc 0 5 0).muted = false ∧ (H 0 5 0 true).kind = 0 ∧ flag (big 6) F.CMD_RING_CFG_EN (H 0 5 0 true).sub 0 = true ∧ cqFull (big 6) (H 0 5 0 true).sub = false ∧ (cmdRing (big 6) (H 0 5 0 true).sub).waiting = [] ∧ getF (big 6) F.CMD_RING_CFG_CQ_SIZE_LOG2 (H 0 5 0 true).sub 0 ≤ 12 ∧ (((H 0 5 0 true).ackReq || decide (({ data := [1, 2, 3] } : Answer).status ≠ 0) || Option.any OpInfo.data (opInfo 257)) = true) :=
  by decide +kernel
theorem witness_FinalReply_2 :
    outCmd (big 6) (H 0 5 0 false).serial = some (oc 0 5 0) ∧ (oc 0 5 0).kind = 0 ∧ (oc 0 5 0).sub = (H 0 5 0 false).sub ∧ (oc 0 5 0).muted = false ∧ (H 0 5 0 false).kind = 0 ∧ flag (big 6) F.CMD_RING_CFG_EN (H 0 5 0 false).sub 0 = true ∧ cqFull (big 6) (H 0 5 0 false).sub = false ∧ (cmdRing (big 6) (H 0 5 0 false).sub).waiting = [] ∧ getF (big 6) F.CMD_RING_CFG_CQ_SIZE_LOG2 (H 0 5 0 false).sub 0 ≤ 12 :=
  by decide +kernel
theorem witness_SafeStateHolds_1 :
    halted sf = false ∧ isSafe sf = true ∧ sf.flt.tripped = false :=
  by decide +kernel
theorem witness_SafeStateHolds_2 :
    halted sf = false ∧ isSafe sf = true ∧ sf.flt.tripped = false ∧ sf.pal.copies = [] :=
  by decide +kernel
theorem witness_FreezeHolds_1 :
    (Instr.bypass 5 3 7).wf = true ∧ halted fz = true ∧ actsAlways (Instr.bypass 5 3 7) = true ∧ endsSafe (Instr.bypass 5 3 7) = false ∧ fz.flt.frozen = true :=
  by decide +kernel
theorem witness_FreezeHolds_2 :
    (Instr.portUp 5 3).wf = true ∧ halted fz = true ∧ actsAlways (Instr.portUp 5 3) = false :=
  by decide +kernel
end Sys2Proof.Tests.T01
namespace Sys2Proof.Tests.T02
def lk0 : State := setF F.LOCK_STAT_HELD 2 0 1 (setF F.LOCK_STAT_HOLDER 2 0 0 { upB with cmd := { upB.cmd with locks := [(2, ⟨5, 900⟩)] } })
def oc (ser : Nat) : OutCmd := { serial := ser, kind := 0, sub := 3, tag := 9, opcode := 0x0104, idem := false, ackReq := true, prog := true, priority := 0, objs := [], permille := 250, cursor := 77 }
def s3 : State := { upB with cmd := { upB.cmd with outstanding := [oc 5, oc 8] } }
def lk : State := setF F.LOCK_STAT_HELD 2 0 1 (setF F.LOCK_STAT_HOLDER 2 0 0x1000 { upB with cmd := { upB.cmd with locks := [(2, ⟨5, 900⟩)] } })
def fop (n : Nat) : FuseOp := ⟨n, 900, 5, 1, h0, 3⟩
def fs (n : Nat) : State := { upB with fuse := { upB.fuse with op := some (fop n) } }
def warm : State := { up with boot := { up.boot with warmPending := true } }
def fp : FuseParams := { value := 900, key := 0, auth := 0 }

theorem witness_SystemCommands_1 :
    Admitted upB h1 1 none :=
  by decide +kernel
theorem witness_SystemCommands_2 :
    Admitted lk0 h0 4 none ∧ h0.kind < 16 ∧ 2 ≤ 7 ∧ 1 ≤ 1000 ∧ 1000 ≤ 60000 ∧ (flag lk0 F.LOCK_STAT_HELD 2 0 = false ∨ sameMaster (getF lk0 F.LOCK_STAT_HOLDER 2 0) (masterId h0.kind h0.sub) = true) :=
  by decide +kernel
theorem witness_SystemCommands_3 :
    Admitted lk0 h0 5 none ∧ 2 ≤ 7 ∧ flag lk0 F.LOCK_STAT_HELD 2 0 = true ∧ sameMaster (getF lk0 F.LOCK_STAT_HOLDER 2 0) (masterId h0.kind h0.sub) = true :=
  by decide +kernel
theorem witness_SystemCommands_4 :
    Admitted s3 h1 3 none ∧ oc 5 ∈ s3.cmd.outstanding ∧ (oc 5).tag = 9 ∧ masterId (oc 5).kind (oc 5).sub = 3 ∧ (∀ (q : OutCmd), q ∈ s3.cmd.outstanding → q.tag = 9 → masterId q.kind q.sub = 3 → q ≠ oc 5 → (oc 5).serial < q.serial) :=
  by decide +kernel
theorem witness_SystemCommands_5 :
    Admitted lk h1 6 none :=
  by decide +kernel
theorem witness_SystemCommands_6 :
    Admitted upB h1 2 none :=
  by decide +kernel
theorem witness_SystemCommands_7 :
    Admitted upB h0 5 none ∧ 2 ≤ 7 ∧ flag upB F.LOCK_STAT_HELD 2 0 = false :=
  by decide +kernel
theorem witness_SystemCommands_8 :
    Admitted s3 h1 3 none ∧ (∀ (q : OutCmd), q ∈ s3.cmd.outstanding → q.tag = 10 → masterId q.kind q.sub ≠ 3) :=
  by decide +kernel
theorem witness_SystemCommands_9 :
    Admitted lk h0 5 none ∧ 2 ≤ 7 ∧ flag lk F.LOCK_STAT_HELD 2 0 = true ∧ sameMaster (getF lk F.LOCK_STAT_HOLDER 2 0) (masterId h0.kind h0.sub) = false :=
  by decide +kernel
theorem witness_SystemCommands_10 :
    Admitted lk h0 4 none ∧ h0.kind < 16 ∧ 2 ≤ 7 ∧ 1 ≤ 1000 ∧ 1000 ≤ 60000 ∧ flag lk F.LOCK_STAT_HELD 2 0 = true ∧ sameMaster (getF lk F.LOCK_STAT_HOLDER 2 0) (masterId h0.kind h0.sub) = false :=
  by decide +kernel
theorem witness_FusesAndWarmReset_1 :
    Operating (fs 0) ∧ (fs 0).fuse.op = some (fop 0) ∧ (fop 0).fuse = 0 :=
  by decide +kernel
theorem witness_FusesAndWarmReset_2 :
    Operating warm ∧ warm.boot.warmPending = true ∧ warm.fuse.op = none :=
  by decide +kernel
theorem witness_FusesAndWarmReset_3 :
    Operating (fs 2) ∧ (fs 2).fuse.op = some (fop 2) ∧ (fop 2).fuse = 2 :=
  by decide +kernel
theorem witness_FusesAndWarmReset_4 :
    Operating (fs 3) ∧ (fs 3).fuse.op = some (fop 3) ∧ (fop 3).fuse = 3 :=
  by decide +kernel
theorem witness_FusesAndWarmReset_5 :
    Admitted upB h0 16 none :=
  by decide +kernel
theorem witness_FusesAndWarmReset_6 :
    Admitted upB h0 16 none ∧ 77 ≠ 1465013076 :=
  by decide +kernel
theorem witness_FusesAndWarmReset_7 :
    Admitted (fs 1) h0 33 none ∧ h0.kind ≠ 1 ∧ h0.kind ≠ 2 :=
  by decide +kernel
theorem witness_FusesAndWarmReset_8 :
    (((0, Instr.fuseProgramPowerCeiling) ∈ [(0, Instr.fuseProgramPowerCeiling), (1, Instr.fuseProgramOwnerEnrol), (1, Instr.fuseProgramOwnerRevoke), (2, Instr.fuseProgramLaneLicense), (3, Instr.fuseProgramInbandKey)])) ∧
    (Admitted upB h0 32 none ∧ fuseChecks 0 fp = none ∧ upB.fuse.op = none ∧ fuseAllowed upB 0 fp = true) :=
  ⟨by simp, by decide +kernel⟩
end Sys2Proof.Tests.T02
namespace Sys2Proof.Tests.T03
def key4 : TblKey := { key3 with table := 4 }
def d4 : ExactDef := (exDef ti 4).get (by decide +kernel)
def place (s : State) (d : ExactDef) (p : TblKey) : Placed := (placeKey d (exTab s d.id) (placeCands s d (exTab s d.id) p.key) (seedCur s d.id)).getD ⟨[], 0, 0, false, 0⟩
def keyL : TblKey := { table := 48, replace := false, static := true, chainWide := false, keyLen := 6, dataLen := 12, prefixLen := 8, key := 0x10A000001, data := 0x77 }
def d48 : LpmDef := (lpmDef ti 48).get (by decide +kernel)
def d3 : ExactDef := (exDef ti 3).get (by decide +kernel)
def lpe (v : Nat) : LpmEnt := { slot := 0, tri := keyL.key / 2 ^ 32, addr := cutAddr d48 (keyL.key % 2 ^ 32) 8, plen := 8, data := 5, vfrom := v, vuntil := 0, openEnd := true }
def tiLp (v : Nat) : State := staged { ti with tbl := { ti.tbl with lpm := [(48, { ents := [lpe v] })] } }
def key3r : TblKey := { key3 with replace := true }
def entC (k reg pos : Nat) : ExEnt := { ent k reg pos with openEnd := false }
def cand4 (h : Nat) : Nat := candidate d4 6 h 0x1234
def fullTab : ExTab := { seedA := 6, ents := (List.range 4).map (fun k => entC 0x1234 0 (4 * cand4 0 + k)) ++ (List.range 4).map (fun k => entC 0x1234 1 (4 * cand4 1 + k)) ++ List.replicate 8192 (ent 0x77 2 0) }
def tiFull : State := staged { ti with tbl := { ti.tbl with ex := [(4, fullTab)] } }
def tiC : State := setF F.CHAIN_STAT_DEV_ID 0 0 9 { tiE with chain := { tiE.chain with members := [mem 4] } }
def nx : TblNext := { table := 3, max := 4, staleOnly := false, chainWide := false, destFilter := false, originMask := 0, dest := 0, destMask := 0, cursor := 0, key := 0, keyMask := 0 }
def nx3 : TblNext := { nx with cursor := 2 ^ 44 + 4 * 2 ^ 52 }
def nx2 : TblNext := { nx with cursor := 2 ^ 48 + 3 * 2 ^ 42 + 2 ^ 41 }
def fl : TblFlush := { table := 3, kind := 0, inclStatic := false, keyFilter := false, value := 5, key := 0, keyMask := 0 }
def bgL : State := ri { tiE with tbl := { tiE.tbl with lpm := [(48, { bg := some ⟨false, 0, 5, none, 0, some h0⟩ })] } }
def tiBg : State := { tiE with tbl := { tiE.tbl with ex := [(3, { bg := some ⟨true, 0, 5, some fl, 0, some h0⟩ })] } }
def mcs : State := setF F.MC_STAT_USED 0 0 2 { ti with tbl := { ti.tbl with mc := [(7, [5, 6])] } }
def mcf : State := setF F.MC_STAT_USED 0 0 1048575 mcs
def tent (hd : Nat) (v : Nat) : TcamEnt := { handle := hd, table := 0, serial := 2, prio := 5, scope := 0xFFFF, actionId := 1, data := 4, rangeEn := 0, ranges := [(0,0),(0,0),(0,0),(0,0)], key := 5, mask := 7, openEnd := true, vfrom := v, vuntil := 0, pipes := List.range 32, badIn := [] }
def tcs : State := { ti with tbl := { ti.tbl with tcam := [tent 3 1, tent 4 0] } }
def busy1 : State := setF ⟨.EPOCH_STATE0, 4, 4⟩ 0 0 3 ti
def tcp : TcamParams := { table := 0, actionId := 3, scope := 0xFFFF, priority := 9, rangeEn := 0, data := 8, ranges := [(0,0),(0,0),(0,0),(0,0)], key := 1, mask := 1 }
def p0 : PolicyDef := (polDef ti 0).get (by decide +kernel)
def full : State := { ti with tbl := { ti.tbl with tcam := (List.range 1024).map fun k => { (tent k 1) with pipes := [3] } } }
def ps : PolSet := { dir := 1, pipe := 31, index := 4095, en := true, tokenReset := 1, lenAdj := -64, rate := 25000000, burst := 65535 }
def ss : ShpSet := { kind := 3, index := 127, en := true, tokenReset := 1, rate := 25000000, burst := 65535 }
def ss2 : ShpSet := { ss with kind := 0, tokenReset := 2 }

theorem witness_TableEntries_1 :
    Admitted (staged ti) h0 257 (tblClass (staged ti) key4.table) ∧ exDef (staged ti) key4.table = some d4 ∧ keyChecks (staged ti) key4 true = none ∧ (d4.versioned = true → isStaged (staged ti) = true) ∧ exCurrent d4 (exTab (staged ti) d4.id) key4.key = none ∧ placeKey d4 (exTab (staged ti) d4.id) (placeCands (staged ti) d4 (exTab (staged ti) d4.id) key4.key) (seedCur (staged ti) d4.id) = some (place (staged ti) d4 key3) ∧ d4.versioned = true ∧ hashState (staged ti) d4.id ≠ 2 :=
  by decide +kernel
theorem witness_TableEntries_2 :
    Admitted (staged ti) h0 257 (some 1) ∧ exDef (staged ti) keyL.table = none ∧ lpmDef (staged ti) keyL.table = some d48 ∧ keyChecks (staged ti) keyL true = none ∧ isStaged (staged ti) = true ∧ (((lpmTab (staged ti) d48.id).ents.all fun e => !(e.tri == keyL.key / 2 ^ lpmBits d48 && e.addr == cutAddr d48 (keyL.key % 2 ^ lpmBits d48) keyL.prefixLen && e.plen == keyL.prefixLen && e.openEnd)) = true) ∧ (lpmTab (staged ti) d48.id).ents.length < min d48.rated d48.ratedLong ∧ 0 ≠ d48.id :=
  by decide +kernel
theorem witness_TableEntries_3 :
    Admitted tiE h0 258 (tblClass tiE key3.table) ∧ exDef tiE key3.table = some d3 ∧ keyChecks tiE key3 false = none ∧ d3.versioned = false ∧ exCurrent d3 (exTab tiE d3.id) key3.key = some (ent 4660 2 0) ∧ (ent 4660 2 0).region = 2 ∧ hashState tiE d3.id ≠ 2 :=
  by decide +kernel
theorem witness_TableEntries_4 :
    Admitted (tiLp 0) h0 258 (some 1) ∧ exDef (tiLp 0) keyL.table = none ∧ lpmDef (tiLp 0) keyL.table = some d48 ∧ keyChecks (tiLp 0) keyL false = none ∧ isStaged (tiLp 0) = true ∧ List.find? (fun e => e.tri == keyL.key / 2 ^ lpmBits d48 && e.addr == cutAddr d48 (keyL.key % 2 ^ lpmBits d48) keyL.prefixLen && e.plen == keyL.prefixLen && e.openEnd) (lpmTab (tiLp 0) d48.id).ents = some (lpe 0) :=
  by decide +kernel
theorem witness_TableEntries_5 :
    Admitted (staged tiE) h0 258 (some 1) ∧ exDef (staged tiE) key4.table = some d4 ∧ keyChecks (staged tiE) key4 false = none ∧ d4.versioned = true ∧ isStaged (staged tiE) = true ∧ exCurrent d4 (exTab (staged tiE) d4.id) key4.key = some (ent 4660 0 5) :=
  by decide +kernel
theorem witness_TableEntries_6 :
    Admitted tiE h0 257 (tblClass tiE key3r.table) ∧ exDef tiE key3r.table = some d3 ∧ keyChecks tiE key3r true = none ∧ (d3.versioned = true → isStaged tiE = true) ∧ exCurrent d3 (exTab tiE d3.id) key3r.key = some (ent 4660 2 0) ∧ key3r.replace = true ∧ (d3.versioned = false ∨ stagedEntry tiE (ent 4660 2 0).vfrom = true) :=
  by decide +kernel
theorem witness_TableEntries_7 :
    exDef (ri tiE) key4.table = some d4 ∧ d4.versioned = true ∧ isStaged (ri tiE) = false ∧ Admitted (ri tiE) h2 257 (some 1) ∧ keyChecks (ri tiE) key4 true = none ∧ Admitted (ri tiE) h2 258 (some 1) ∧ keyChecks (ri tiE) key4 false = none :=
  by decide +kernel
theorem witness_TableEntries_8 :
    Admitted (ri ti) h2 258 (tblClass (ri ti) key3.table) ∧ exDef (ri ti) key3.table = some d3 ∧ keyChecks (ri ti) key3 false = none ∧ d3.versioned = false ∧ exCurrent d3 (exTab (ri ti) d3.id) key3.key = none :=
  by decide +kernel
theorem witness_TableEntries_9 :
    Admitted (ri tiE) h2 257 (tblClass (ri tiE) key3.table) ∧ exDef (ri tiE) key3.table = some d3 ∧ keyChecks (ri tiE) key3 true = none ∧ (d3.versioned = true → isStaged (ri tiE) = true) ∧ exCurrent d3 (exTab (ri tiE) d3.id) key3.key = some (ent 4660 2 0) ∧ key3.replace = false :=
  by decide +kernel
theorem witness_TableEntries_10 :
    Admitted tiFull h0 257 (tblClass tiFull key4.table) ∧ exDef tiFull key4.table = some d4 ∧ keyChecks tiFull key4 true = none ∧ (d4.versioned = true → isStaged tiFull = true) ∧ exCurrent d4 (exTab tiFull d4.id) key4.key = none ∧ placeKey d4 (exTab tiFull d4.id) (placeCands tiFull d4 (exTab tiFull d4.id) key4.key) (seedCur tiFull d4.id) = none :=
  by decide +kernel
theorem witness_TableEntries_11 :
    Admitted (ri (staged ti)) h2 258 (some 1) ∧ exDef (ri (staged ti)) keyL.table = none ∧ lpmDef (ri (staged ti)) keyL.table = some d48 ∧ keyChecks (ri (staged ti)) keyL false = none ∧ isStaged (ri (staged ti)) = true ∧ List.find? (fun e => e.tri == keyL.key / 2 ^ lpmBits d48 && e.addr == cutAddr d48 (keyL.key % 2 ^ lpmBits d48) keyL.prefixLen && e.plen == keyL.prefixLen && e.openEnd) (lpmTab (ri (staged ti)) d48.id).ents = none :=
  by decide +kernel
theorem witness_TableReads_1 :
    Admitted tiC h1 259 none ∧ keyChecks tiC key3 false = none ∧ nextDev tiC 0 = some 4 ∧ 4 ≠ devId tiC :=
  by decide +kernel
theorem witness_TableReads_2 :
    Admitted tiE h1 259 none ∧ keyChecks tiE key3 false = none ∧ tiE.chain.members = [] ∧ tiE.chain.wides = [] ∧ tiE.chain.forwarded = [] :=
  by decide +kernel
theorem witness_TableReads_3 :
    Admitted tiE h1 260 none ∧ nextChecks tiE nx = none ∧ nx.cursor = 0 ∧ tiE.chain.members = [] :=
  by decide +kernel
theorem witness_TableReads_4 :
    Admitted tiE h0 259 none ∧ keyChecks tiE key3 false = none :=
  by decide +kernel
theorem witness_TableReads_5 :
    exDef tiE key3.table = some d3 ∧ d3.versioned = false ∧ List.filter (fun x => x.key == key3.key) (exTab tiE d3.id).ents = [ent 4660 2 0] :=
  by decide +kernel
theorem witness_TableReads_6 :
    Admitted tiC h1 260 none ∧ nextChecks tiC nx3 = none ∧ nx3.cursor ≠ 0 ∧ bits nx3.cursor 44 8 ≠ mgen tiC % 256 ∧ bits nx3.cursor 52 12 ≠ devId tiC :=
  by decide +kernel
theorem witness_TableReads_7 :
    Admitted tiE h1 260 none ∧ nextChecks tiE nx = none ∧ (nx.cursor = 0 ∧ 0 = 0 ∨ bits nx.cursor 42 6 = nx.table ∧ walkPos tiE nx.table (bits nx.cursor 40 2) (bits nx.cursor 0 40) = some 0) ∧ (nx.cursor = 0 ∨ bits nx.cursor 48 16 = getF tiE F.TBL_STAT0_GEN nx.table 0) :=
  by decide +kernel
theorem witness_TableReads_8 :
    Admitted tiE h1 260 none ∧ nextChecks tiE nx2 = none ∧ (nx2.cursor = 0 ∧ 2 * 4 * halfBuckets d3 = 0 ∨ bits nx2.cursor 42 6 = nx2.table ∧ walkPos tiE nx2.table (bits nx2.cursor 40 2) (bits nx2.cursor 0 40) = some (2 * 4 * halfBuckets d3)) ∧ nx2.cursor ≠ 0 ∧ bits nx2.cursor 48 16 ≠ getF tiE F.TBL_STAT0_GEN nx2.table 0 :=
  by decide +kernel
theorem witness_TableOperations_1 :
    exDef tiE 3 = some d3 ∧ Admitted tiE h0 262 (tblClass tiE 3) ∧ 99 < 2 ^ 32 ∧ seedCur tiE 3 ≤ 1 ∧ ((exTab tiE 3).bg = none ∧ hashState tiE 3 = 0 ∧ bgCount tiE < 16) ∧ lpmDef tiE 3 = none :=
  by decide +kernel
theorem witness_TableOperations_2 :
    exDef tiE fl.table = some d3 ∧ Admitted tiE h0 261 (tblClass tiE fl.table) ∧ flushChecks tiE fl = none ∧ ((exTab tiE fl.table).bg = none ∧ hashState tiE fl.table ≠ 1 ∧ bgCount tiE < 16) :=
  by decide +kernel
theorem witness_TableOperations_3 :
    exDef tiE 48 = none ∧ lpmDef tiE 48 = some d48 ∧ Admitted tiE h0 262 (some 1) ∧ ((lpmTab tiE 48).bg = none ∧ hashState tiE 48 = 0 ∧ bgCount tiE < 16) ∧ 7 ≠ 0 :=
  by decide +kernel
theorem witness_TableOperations_4 :
    exDef tiE 3 = some d3 ∧ d3.ageable = true ∧ Admitted tiE h0 263 (tblClass tiE 3) ∧ 1 ≤ 10 ∧ 10 ≤ 1000 ∧ 1 ≤ 20 ∧ 20 ≤ 32767 ∧ 1 ≤ 30 ∧ 30 ≤ 256 :=
  by decide +kernel
theorem witness_TableOperations_5 :
    exDef bgL 48 = none ∧ lpmDef bgL 48 = some d48 ∧ Admitted bgL h2 262 (some 1) ∧ (¬((lpmTab bgL 48).bg = none ∧ hashState bgL 48 = 0 ∧ bgCount bgL < 16)) :=
  by decide +kernel
theorem witness_TableOperations_6 :
    exDef (ri tiBg) fl.table = some d3 ∧ Admitted (ri tiBg) h2 261 (tblClass (ri tiBg) fl.table) ∧ flushChecks (ri tiBg) fl = none ∧ (¬((exTab (ri tiBg) fl.table).bg = none ∧ hashState (ri tiBg) fl.table ≠ 1 ∧ bgCount (ri tiBg) < 16)) :=
  by decide +kernel
theorem witness_TableOperations_7 :
    exDef (ri tiBg) 3 = some d3 ∧ Admitted (ri tiBg) h2 262 (tblClass (ri tiBg) 3) ∧ 99 < 2 ^ 32 ∧ seedCur (ri tiBg) 3 ≤ 1 ∧ (¬((exTab (ri tiBg) 3).bg = none ∧ hashState (ri tiBg) 3 = 0 ∧ bgCount (ri tiBg) < 16)) ∧ lpmDef (ri tiBg) 3 = none :=
  by decide +kernel
theorem witness_MulticastGroups_1 :
    Admitted mcs h0 272 (some 0) ∧ 7 ≤ 65535 ∧ 0 ≤ (mcGroup mcs 7).length ∧ 0 + ([] : List Nat).length ≤ 4095 ∧ ([] : List Nat).length ≤ 48 ∧ ([] : List Nat).any mcBadTarget = false ∧ getF mcs F.MC_STAT_USED 0 0 + (List.take 0 (mcGroup mcs 7) ++ [] ++ if true = true then [] else List.drop (0 + ([] : List Nat).length) (mcGroup mcs 7)).length - (mcGroup mcs 7).length ≤ 1048576 :=
  by decide +kernel
theorem witness_MulticastGroups_2 :
    Admitted mcs h1 273 none ∧ 7 ≤ 65535 ∧ 1 ≤ 1 ∧ 1 ≤ 48 :=
  by decide +kernel
theorem witness_MulticastGroups_3 :
    Admitted (ri mcf) h2 272 (some 0) ∧ 7 ≤ 65535 ∧ 2 ≤ (mcGroup (ri mcf) 7).length ∧ (2 + [9, 9, 9].length ≤ 4095) ∧ ([9, 9, 9].length ≤ 48) ∧ ([9, 9, 9].any mcBadTarget = false) ∧ (1048576 < getF (ri mcf) F.MC_STAT_USED 0 0 + (List.take 2 (mcGroup (ri mcf) 7) ++ [9, 9, 9] ++ if false = true then [] else List.drop (2 + [9, 9, 9].length) (mcGroup (ri mcf) 7)).length - (mcGroup (ri mcf) 7).length) :=
  by decide +kernel
theorem witness_PolicyVersions_1 :
    Admitted ti h0 513 (some 1) ∧ isStaged ti = false ∧ epState ti ((curEpoch ti + 1) % 16) = 0 :=
  by decide +kernel
theorem witness_PolicyVersions_2 :
    Admitted (ri ti) h2 514 (some 1) ∧ isStaged (ri ti) = false ∧ epState (ri ti) ((curEpoch (ri ti) + 1) % 16) = 0 :=
  by decide +kernel
theorem witness_PolicyVersions_3 :
    Admitted (staged tcs) h0 515 (some 1) ∧ isStaged (staged tcs) = true ∧ (staged tcs).tbl.image.isSome = true :=
  by decide +kernel
theorem witness_PolicyVersions_4 :
    Admitted (ri tcs) h2 515 (some 1) ∧ isStaged (ri tcs) = false :=
  by decide +kernel
theorem witness_PolicyVersions_5 :
    Admitted (ri (staged ti)) h2 513 (some 1) ∧ isStaged (ri (staged ti)) = true :=
  by decide +kernel
theorem witness_PolicyVersions_6 :
    Admitted (ri (staged ti)) h2 514 (some 1) ∧ isStaged (ri (staged ti)) = true :=
  by decide +kernel
theorem witness_PolicyVersions_7 :
    Admitted (ri busy1) h2 513 (some 1) ∧ isStaged (ri busy1) = false ∧ epState (ri busy1) ((curEpoch (ri busy1) + 1) % 16) ≠ 0 :=
  by decide +kernel
theorem witness_PolicyVersions_8 :
    Admitted (ri busy1) h2 514 (some 1) ∧ isStaged (ri busy1) = false ∧ epState (ri busy1) ((curEpoch (ri busy1) + 1) % 16) ≠ 0 :=
  by decide +kernel
theorem witness_PolicyEntries_1 :
    Admitted (staged tcs) h0 516 (some 1) ∧ polDef (staged tcs) tcp.table = some p0 ∧ tcamChecks (staged tcs) tcp = none ∧ isStaged (staged tcs) = true ∧ (((scopePipes (staged tcs) p0 tcp.scope).all fun x => decide (freeRows (staged tcs) p0 x ≠ 0)) = true) :=
  by decide +kernel
theorem witness_PolicyEntries_2 :
    Admitted (staged tcs) h0 517 (some 1) ∧ isStaged (staged tcs) = true ∧ tcamEnt (staged tcs) 3 = some (tent 3 1) ∧ (tent 3 1).openEnd = true :=
  by decide +kernel
theorem witness_PolicyEntries_3 :
    Admitted tcs h1 518 none ∧ tcamEnt tcs 5 = none :=
  by decide +kernel
theorem witness_PolicyEntries_4 :
    Admitted (ri tcs) h2 517 (some 1) ∧ isStaged (ri tcs) = false :=
  by decide +kernel
theorem witness_PolicyEntries_5 :
    Admitted tcs h1 519 none ∧ (polDef tcs 0).isSome = true ∧ 1 ≤ 1 ∧ 1 ≤ 64 :=
  by decide +kernel
theorem witness_PolicyEntries_6 :
    Admitted (ri (staged tcs)) h2 517 (some 1) ∧ isStaged (ri (staged tcs)) = true ∧ tcamEnt (ri (staged tcs)) 5 = none :=
  by decide +kernel
theorem witness_PolicyEntries_7 :
    Admitted (ri tcs) h2 516 (some 1) ∧ polDef (ri tcs) tcp.table = some p0 ∧ tcamChecks (ri tcs) tcp = none ∧ isStaged (ri tcs) = false :=
  by decide +kernel
theorem witness_PolicyEntries_8 :
    Admitted (ri (staged full)) h2 516 (some 1) ∧ polDef (ri (staged full)) tcp.table = some p0 ∧ tcamChecks (ri (staged full)) tcp = none ∧ isStaged (ri (staged full)) = true ∧ List.find? (fun x => freeRows (ri (staged full)) p0 x == 0) (scopePipes (ri (staged full)) p0 tcp.scope) = some 3 :=
  by decide +kernel
theorem witness_PolicersAndShapers_1 :
    Admitted ti h1 529 none ∧ 1 ≤ 1 ∧ 31 ≤ 31 ∧ 4095 ≤ 4095 :=
  by decide +kernel
theorem witness_PolicersAndShapers_2 :
    (Admitted ti h0 528 (some 3) ∧ ps.dir ≤ 1 ∧ ps.pipe ≤ 31 ∧ ps.index ≤ 4095 ∧ 1 ≤ ps.tokenReset ∧ ps.tokenReset ≤ 2 ∧ -64 ≤ ps.lenAdj ∧ ps.lenAdj ≤ 63) ∧
    (1 ≤ ps.rate ∧ ps.rate ≤ 25000000 ∧ 1 ≤ ps.burst ∧ ps.burst ≤ 65535) :=
  by refine ⟨?_, ?_⟩ <;> decide +kernel
theorem witness_PolicersAndShapers_3 :
    Admitted ti h0 769 (some 2) ∧ ss2.kind ≤ 3 ∧ ss2.index < nodeCount ss2.kind ∧ 1 ≤ ss2.tokenReset ∧ ss2.tokenReset ≤ 2 ∧ 1 ≤ ss2.rate ∧ ss2.rate ≤ 25000000 ∧ 1 ≤ ss2.burst ∧ ss2.burst ≤ 65535 :=
  by decide +kernel
end Sys2Proof.Tests.T03
namespace Sys2Proof.Tests.T04
def nd : State := node 0 5 2 (node 1 2 3 (node 3 7 4 (node 1 4 772 upB)))
def ns (k ix par : Nat) : NodeSet := { kind := k, index := ix, attach := 1, parent := par, band := 1, weight := 9, cls := 0, lenAdj := -4 }
def ndH : State := ri { nd with pal := { nd.pal with copies := [qcopy 1 ⟨0, 5⟩ 3] } }
def v04_1 : State := { ndH with rf := nd.rf }
def pwd : State := setMacRt 0 { powered := true } upB
def mcfgOff : MacroCfg := { mcfg with enable := false }
def lic : State := (List.range 24).foldl (fun z m => setF F.MAC_MACRO_CFG_ENABLED (m + 10) 0 1 z) { upB with fuse := { upB.fuse with licence := 0 } }
def pu : State := portUp 0 (on 0 upB)
def ts0 : TargetSet := { target := 0, en := true, kind := 0, vlanEn := false, ipv6 := false, resume := false, port := 0, expRate := 100, expClass := 0, dscp := 0, srcMac := 1, dstMac := 2, vid := 0, pcp := 0, srcUdp := 1, srcIp := 1, dstIp := 2, dstUdp := 4739, msgMax := 1400, obsDomain := 9, destQp := 0, pmtu := 0, pKey := 0, rKey := 0, startPsn := 0, baseVa := 0, size := 0, gbase := 0 }
def tgOn : State := setF F.TGT_STAT_EN 0 0 1 pu
def fle : FlowEnt := { set := 0, tac := 5, port := 3, imgKey := 7, partialKey := false, pkts := 2, octets := 300 }
def flw : State := { pu with tele := { pu.tele with flows := [(0, [fle]), (3, [fle, { fle with tac := 6 }])] } }
def tgSend : State := { tgOn with tele := { tgOn.tele with targets := [(0, { cfg := some ts0, sending := true, frames := [⟨[], 0, 0, false⟩] })] } }
def v04_3 : State := { flw with tele := { flw.tele with vf := [((3, 2), ⟨true, 5, 6⟩)] } }
def v04_4 : State := (ri { upB with tele := { upB.tele with asked := [{ seq := 1, time := 5 }] } })
def held : State := setF F.SWATCH_STAT_HELD_A 0 0 1 { upB with tele := { upB.tele with heldA := 4, heldB := 5 } }
def heldAB : State := setF F.SWATCH_STAT_HELD_A 0 0 1 (setF F.SWATCH_STAT_HELD_B 0 0 1 (ri upB))
def mf : State := setMapBit .MACRO_FAILED 95 true upB
def qu : State := setF F.PIPE_STAT_QUARANTINED 5 1 1 upB
def bk : State := setMapBit .BANK_RETIRED 127 true upB
def ret (k i : Nat) (s : State) : State := { s with flt := { s.flt with returns := [{ kind := k, index := i, cmd := h0, since := 5 }] } }
def v04_6 : State := { upB with stl := { upB.stl with refoSerial := 9 } }
def v04_7 : State := (ri { chn with chain := { chn.chain with wides := [wd] } })
def gs : Gesso := { version := 5, minHitless := 3, formOk := true, digest := 1, sig := 2, owner := none, pipe := img, roles := [], store := [] }
def stg : State := { upB with fw := { upB.fw with staged := some gs, running := some { gs with version := 4 } } }
def v04_8 : State := (ri { upB with fw := { upB.fw with update := some ⟨[], 0, h0, none, none, false⟩ } })
def v04_10 : State := (ri { stg with fw := { stg.fw with update := some ⟨[], 0, h0, none, none, false⟩ } })
def v04_9 : State := (ri { stg with fw := { stg.fw with running := some { gs with version := 2 } } })
def gs3 : Gesso := { gs with roles := [0, 3, 3] }
def v04_11 : State := (ri { stg with fw := { stg.fw with staged := some gs3 } })

theorem witness_SchedulerNodes_1 :
    Admitted nd h0 770 (some 2) ∧ (ns 0 5 2).attach = 1 ∧ nodeChecks (ns 0 5 2).kind 1 (ns 0 5 2).index = none ∧ attachChecks nd (ns 0 5 2) = none ∧ ((if (ns 0 5 2).kind = 1 then (ns 0 5 2).parent else portOfService nd (ns 0 5 2).parent) = portAbove nd { kind := (ns 0 5 2).kind, ix := (ns 0 5 2).index } ∨ ¬if (ns 0 5 2).kind = 1 then childAttached nd (ns 0 5 2).index = true else heldBy nd { kind := (ns 0 5 2).kind, ix := (ns 0 5 2).index } ≠ 0) ∧ ((nodeRt nd { kind := (ns 0 5 2).kind, ix := (ns 0 5 2).index }).moves = []) ∧ (defers nd { kind := (ns 0 5 2).kind, ix := (ns 0 5 2).index } (ns 0 5 2).parent = false) :=
  by decide +kernel
theorem witness_SchedulerNodes_2 :
    Admitted nd h0 770 (some 2) ∧ nodeChecks 0 0 5 = none ∧ (0 = 1 ∧ childAttached nd 5 = false ∨ 0 ≠ 1 ∧ detachPend nd { kind := 0, ix := 5 } = false ∧ heldBy nd { kind := 0, ix := 5 } = 0) ∧ (∀ (x : Node × NodeRt), x ∈ nd.sched.nodes → x.snd.moves = []) :=
  by decide +kernel
theorem witness_SchedulerNodes_3 :
    Admitted v04_1 h0 770 (some 2) ∧ nodeChecks 0 0 5 = none ∧ 0 ≠ 1 ∧ (detachPend v04_1 { kind := 0, ix := 5 } = false) ∧ (attached v04_1 { kind := 0, ix := 5 } = true) ∧ (heldBy v04_1 { kind := 0, ix := 5 } ≠ 0) :=
  by decide +kernel
theorem witness_SchedulerNodes_4 :
    Admitted ndH h2 770 (some 2) ∧ nodeChecks 1 0 2 = none ∧ childAttached ndH 2 = true :=
  by decide +kernel
theorem witness_SchedulerNodes_5 :
    (Admitted (setF { reg := RegName.SCH_NODE0_Q, lo := 30, w := 1 } 5 0 1 ndH) h2 770 (some 2)) ∧ nodeChecks 0 0 5 = none ∧ 0 ≠ 1 ∧ (detachPend (setF { reg := RegName.SCH_NODE0_Q, lo := 30, w := 1 } 5 0 1 ndH) { kind := 0, ix := 5 } = true) :=
  by decide +kernel
theorem witness_SchedulerNodes_6 :
    Admitted ndH h2 770 (some 2) ∧ (ns 0 5 9).attach = 1 ∧ nodeChecks (ns 0 5 9).kind 1 (ns 0 5 9).index = none ∧ attachChecks ndH (ns 0 5 9) = none ∧ ((if (ns 0 5 9).kind = 1 then (ns 0 5 9).parent else portOfService ndH (ns 0 5 9).parent) ≠ portAbove ndH { kind := (ns 0 5 9).kind, ix := (ns 0 5 9).index }) ∧ (if (ns 0 5 9).kind = 1 then childAttached ndH (ns 0 5 9).index = true else heldBy ndH { kind := (ns 0 5 9).kind, ix := (ns 0 5 9).index } ≠ 0) :=
  by decide +kernel
theorem witness_MacroConfiguration_1 :
    (Admitted pwd h0 1025 (some 4) ∧ mcfg.enable = true ∧ macroChecks mcfg = none ∧ mcfg.txLane < 2 ^ 24 ∧ mcfg.rxLane < 2 ^ 24 ∧ mcfg.txInv < 256 ∧ mcfg.rxInv < 256 ∧ (macEnabled pwd mcfg.mac = true ∨ countIx 96 (macEnabled pwd) < licensedMacros pwd)) ∧
    (pipeMoving pwd mcfg.mac = false ∧ macFailed pwd mcfg.mac = false ∧ macEnabled pwd mcfg.mac = false ∧ (macRt pwd mcfg.mac).powered = true ∧ 0 < 8 ∧ drvState pwd mcfg.mac 0 = 0 ∧ drvSquelch pwd mcfg.mac 0 = false ∧ 1 ≠ mcfg.mac) :=
  by refine ⟨?_, ?_⟩ <;> decide +kernel
theorem witness_MacroConfiguration_2 :
    Admitted (setMapBit RegName.MACRO_FAILED 0 true (portUp 0 (on 0 upB))) h0 1025 (some 4) ∧ 0 ≤ 95 :=
  by decide +kernel
theorem witness_MacroConfiguration_3 :
    Admitted upB h0 1025 (some 4) ∧ mcfgOff.mac ≤ 95 ∧ mcfgOff.enable = false :=
  by decide +kernel
theorem witness_MacroConfiguration_4 :
    Admitted (ri lic) h2 1025 (some 4) ∧ mcfg.enable = true ∧ macroChecks mcfg = none ∧ mcfg.txLane < 2 ^ 24 ∧ mcfg.rxLane < 2 ^ 24 ∧ mcfg.txInv < 256 ∧ mcfg.rxInv < 256 ∧ macEnabled (ri lic) mcfg.mac = false ∧ licensedMacros (ri lic) ≤ countIx 96 (macEnabled (ri lic)) :=
  by decide +kernel
theorem witness_MacroConfiguration_5 :
    Admitted (setMapBit RegName.MACRO_FAILED 0 true (ri upB)) h2 1025 (some 4) ∧ mcfg.enable = true ∧ macroChecks mcfg = none ∧ mcfg.txLane < 2 ^ 24 ∧ mcfg.rxLane < 2 ^ 24 ∧ mcfg.txInv < 256 ∧ mcfg.rxInv < 256 ∧ (macEnabled (setMapBit RegName.MACRO_FAILED 0 true (ri upB)) mcfg.mac = true ∨ countIx 96 (macEnabled (setMapBit RegName.MACRO_FAILED 0 true (ri upB))) < licensedMacros (setMapBit RegName.MACRO_FAILED 0 true (ri upB))) ∧ (pipeMoving (setMapBit RegName.MACRO_FAILED 0 true (ri upB)) mcfg.mac = true ∨ macFailed (setMapBit RegName.MACRO_FAILED 0 true (ri upB)) mcfg.mac = true) :=
  by decide +kernel
theorem witness_MacroConfiguration_6 :
    (Admitted upB h0 1025 (some 4) ∧ mcfg.enable = true ∧ macroChecks mcfg = none ∧ mcfg.txLane < 2 ^ 24 ∧ mcfg.rxLane < 2 ^ 24 ∧ mcfg.txInv < 256 ∧ mcfg.rxInv < 256 ∧ (macEnabled upB mcfg.mac = true ∨ countIx 96 (macEnabled upB) < licensedMacros upB)) ∧
    (pipeMoving upB mcfg.mac = false ∧ macFailed upB mcfg.mac = false ∧ (macRt upB mcfg.mac).powered = false) :=
  by refine ⟨?_, ?_⟩ <;> decide +kernel
theorem witness_TelemetryCommands_1 :
    Admitted pu h0 1281 (some 5) ∧ ts0.en = true ∧ targetChecks pu ts0 = none ∧ ts0.kind < 2 ∧ ts0.port < 1024 ∧ (targetOn pu ts0.target = false ∧ (target pu ts0.target).ending = false) ∧ (ts0.kind = 0 ∨ ts0.resume = false) :=
  by decide +kernel
theorem witness_TelemetryCommands_2 :
    Admitted tgOn h0 1281 (some 5) ∧ 0 ≤ 15 ∧ targetOn tgOn 0 = true ∧ (target tgOn 0).sending = false :=
  by decide +kernel
theorem witness_TelemetryCommands_3 :
    Admitted flw h0 1284 (some 5) ∧ 63 ≤ 63 ∧ 15 ≤ 15 ∧ 7 ≤ 1007 ∧ 1 ≤ 1001 ∧ 1001 ≤ 1008 ∧ 7 + 1001 ≤ 1008 :=
  by decide +kernel
theorem witness_TelemetryCommands_4 :
    Admitted tgSend h0 1281 (some 5) ∧ 0 ≤ 15 ∧ targetOn tgSend 0 = true ∧ (target tgSend 0).sending = true :=
  by decide +kernel
theorem witness_TelemetryCommands_5 :
    Admitted flw h0 1282 (some 5) ∧ (List.map (fun n => (tgetD flw.tele.flows n []).length) (List.range 8)).sum ≠ 0 ∧ (∀ (g : FlowFlush), g ∈ flw.tele.flushes → g.cmd.serial ≠ h0.serial) :=
  by decide +kernel
theorem witness_TelemetryCommands_6 :
    Admitted v04_3 h1 1285 none ∧ 3 ≤ 63 :=
  by decide +kernel
theorem witness_TelemetryCommands_7 :
    Admitted flw h1 1283 none ∧ 2 ≤ 2 ∧ 2 ≤ 6 ∧ 1 ≤ 3 ∧ 3 ≤ 64 ∧ 0 + 3 ≤ sectionLen 2 :=
  by decide +kernel
theorem witness_TelemetryCommands_8 :
    Admitted pu h0 1281 (some 5) ∧ 0 ≤ 15 ∧ targetOn pu 0 = false :=
  by decide +kernel
theorem witness_TelemetryCommands_9 :
    Admitted pu h0 1282 (some 5) ∧ (List.map (fun n => (tgetD pu.tele.flows n []).length) (List.range 8)).sum = 0 :=
  by decide +kernel
theorem witness_TelemetryCommands_10 :
    Admitted (ri tgOn) h2 1281 (some 5) ∧ ts0.en = true ∧ targetChecks (ri tgOn) ts0 = none ∧ ts0.kind < 2 ∧ ts0.port < 1024 ∧ (¬(targetOn (ri tgOn) ts0.target = false ∧ (target (ri tgOn) ts0.target).ending = false)) :=
  by decide +kernel
theorem witness_SwatchCommands_1 :
    Admitted v04_4 h2 1286 (some 5) ∧ swatchBlocked (skipPassed (tick h2.t v04_4)) ((skipPassed (tick h2.t v04_4)).tele.swatchK + 1) = false ∧ 0 < (skipPassed (tick h2.t v04_4)).clk.tod + 10000 :=
  by decide +kernel
theorem witness_SwatchCommands_2 :
    Admitted held h0 1287 (some 5) ∧ (flag (skipPassed (tick h0.t held)) F.SWATCH_STAT_HELD_A 0 0 = true ∧ (skipPassed (tick h0.t held)).tele.heldA % 2 ^ 32 = 4) :=
  by decide +kernel
theorem witness_SwatchCommands_3 :
    Admitted (setF F.SWATCH_STAT_HELD_B 0 0 1 held) h0 1287 (some 5) ∧ (¬(flag (skipPassed (tick h0.t (setF F.SWATCH_STAT_HELD_B 0 0 1 held))) F.SWATCH_STAT_HELD_A 0 0 = true ∧ (skipPassed (tick h0.t (setF F.SWATCH_STAT_HELD_B 0 0 1 held))).tele.heldA % 2 ^ 32 = 5)) ∧ (flag (skipPassed (tick h0.t (setF F.SWATCH_STAT_HELD_B 0 0 1 held))) F.SWATCH_STAT_HELD_B 0 0 = true ∧ (skipPassed (tick h0.t (setF F.SWATCH_STAT_HELD_B 0 0 1 held))).tele.heldB % 2 ^ 32 = 5) :=
  by decide +kernel
theorem witness_SwatchCommands_4 :
    Admitted heldAB h2 1286 (some 5) ∧ swatchBlocked (skipPassed (tick h2.t heldAB)) ((skipPassed (tick h2.t heldAB)).tele.swatchK + 1) = true :=
  by decide +kernel
theorem witness_SwatchCommands_5 :
    Admitted (ri held) h2 1287 (some 5) ∧ (¬(flag (skipPassed (tick h2.t (ri held))) F.SWATCH_STAT_HELD_A 0 0 = true ∧ (skipPassed (tick h2.t (ri held))).tele.heldA % 2 ^ 32 = 9)) ∧ (¬(flag (skipPassed (tick h2.t (ri held))) F.SWATCH_STAT_HELD_B 0 0 = true ∧ (skipPassed (tick h2.t (ri held))).tele.heldB % 2 ^ 32 = 9)) :=
  by decide +kernel
theorem witness_SwatchCommands_6 :
    Admitted (ri upB) h2 1286 (some 5) ∧ swatchBlocked (skipPassed (tick h2.t (ri upB))) ((skipPassed (tick h2.t (ri upB))).tele.swatchK + 1) = false ∧ (skipPassed (tick h2.t (ri upB))).clk.tod + 10000 ≤ 1000000 :=
  by decide +kernel
theorem witness_PowerCommands_1 :
    Admitted upB h1 1540 none :=
  by decide +kernel
theorem witness_PowerCommands_2 :
    Admitted upB h1 1541 none :=
  by decide +kernel
theorem witness_PowerCommands_3 :
    Admitted upB h0 1538 (some 6) ∧ 1 ≤ 1 :=
  by decide +kernel
theorem witness_PowerCommands_4 :
    Admitted upB h0 1539 (some 6) ∧ 70 ≤ 70 ∧ 70 < 71 ∧ 71 < 110 ∧ 110 ≤ 110 ∧ 1 ≤ 10 ∧ 10 ≤ 10 :=
  by decide +kernel
theorem witness_PowerCommands_5 :
    Admitted upB h0 1537 (some 6) ∧ 600 ≤ 600 ∧ 600 ≤ 1400 ∧ 600 ≤ getF upB F.PWR_CTL_CEILING_W 0 0 :=
  by decide +kernel
theorem witness_PowerCommands_6 :
    Admitted (ri (setF F.PWR_CTL_CEILING_W 0 0 1399 upB)) h2 1537 (some 6) ∧ 600 ≤ 1400 ∧ 1400 ≤ 1400 ∧ getF (ri (setF F.PWR_CTL_CEILING_W 0 0 1399 upB)) F.PWR_CTL_CEILING_W 0 0 < 1400 :=
  by decide +kernel
theorem witness_FaultCommands_1 :
    Admitted upB h0 1795 none ∧ 257 < 65536 ∧ (evClass 257).isSome = true :=
  by decide +kernel
theorem witness_FaultCommands_2 :
    Admitted mf h0 1797 none ∧ 95 ≤ 95 ∧ macFailed mf 95 = true ∧ groupBusy mf (95 / 12) = false :=
  by decide +kernel
theorem witness_FaultCommands_3 :
    Admitted qu h0 1793 none ∧ 1 ≤ 1 ∧ 5 ≤ 31 ∧ quarantined qu 1 5 = true ∧ groupBusy qu (5 / 4) = false :=
  by decide +kernel
theorem witness_FaultCommands_4 :
    Admitted bk h0 1794 none ∧ 127 ≤ 127 ∧ mapBit bk RegName.BANK_RETIRED 127 = true ∧ (¬((bk.flt.returns.any fun r => r.kind == 1) = true ∨ bk.pal.bankDrain ≠ [])) :=
  by decide +kernel
theorem witness_FaultCommands_5 :
    Admitted (ri upB) h2 1797 none ∧ 95 ≤ 95 ∧ macFailed (ri upB) 95 = false :=
  by decide +kernel
theorem witness_FaultCommands_6 :
    Admitted (ri upB) h2 1793 none ∧ 1 ≤ 1 ∧ 5 ≤ 31 ∧ quarantined (ri upB) 1 5 = false :=
  by decide +kernel
theorem witness_FaultCommands_7 :
    Admitted (ri upB) h2 1794 none ∧ 127 ≤ 127 ∧ mapBit (ri upB) RegName.BANK_RETIRED 127 = false :=
  by decide +kernel
theorem witness_FaultCommands_8 :
    Admitted (ri (ret 2 90 mf)) h2 1797 none ∧ 95 ≤ 95 ∧ macFailed (ri (ret 2 90 mf)) 95 = true ∧ groupBusy (ri (ret 2 90 mf)) (95 / 12) = true :=
  by decide +kernel
theorem witness_FaultCommands_9 :
    Admitted (ri (ret 0 6 qu)) h2 1793 none ∧ 1 ≤ 1 ∧ 5 ≤ 31 ∧ quarantined (ri (ret 0 6 qu)) 1 5 = true ∧ groupBusy (ri (ret 0 6 qu)) (5 / 4) = true :=
  by decide +kernel
theorem witness_FaultCommands_10 :
    Admitted (ri upB) h2 1796 none ∧ (evClass 3869).isSome = true ∧ (raise0 Ev.FLT_INJECTED (tick h2.t (ri upB))).flt.frozen = false ∧ isSafe (raise0 Ev.FLT_INJECTED (tick h2.t (ri upB))) = false :=
  by decide +kernel
theorem witness_FaultCommands_11 :
    Admitted (ri (ret 1 6 bk)) h2 1794 none ∧ 127 ≤ 127 ∧ mapBit (ri (ret 1 6 bk)) RegName.BANK_RETIRED 127 = true ∧ (((ri (ret 1 6 bk)).flt.returns.any fun r => r.kind == 1) = true ∨ (ri (ret 1 6 bk)).pal.bankDrain ≠ []) :=
  by decide +kernel
theorem witness_FaultCommands_12 :
    Admitted (ri upB) h2 1795 none ∧ 65535 < 65536 ∧ evClass 65535 = none :=
  by decide +kernel
theorem witness_FaultCommands_13 :
    Admitted (setF F.VARNISH_CFG_ARMED 0 0 1 (setF F.VARNISH_CFG_ARMED_ID 0 0 Ev.FLT_INJECTED (ri upB))) h2 1796 none ∧ (evClass 3869).isSome = true ∧ (raise0 Ev.FLT_INJECTED (tick h2.t (setF F.VARNISH_CFG_ARMED 0 0 1 (setF F.VARNISH_CFG_ARMED_ID 0 0 Ev.FLT_INJECTED (ri upB))))).flt.frozen = true :=
  by decide +kernel
theorem witness_LinkConfiguration_1 :
    (Admitted pu h0 2050 (some 7) ∧ 1 ≤ 2 ∧ 10 ≤ 10 ∧ 10 ≤ 10000 ∧ 100 ≤ 100 ∧ 100 ≤ 60000 ∧ (65535 = 65535 ∨ startsPort pu 65535 = true) ∧ (0 = 65535 ∨ startsPort pu 0 = true)) ∧
    ((twinRole pu = 1 ∨ twinState pu ≠ 4) ∧ 0 ≠ 65535 ∧ 1 ≠ 0 ∧ twinRole pu = 0) :=
  by refine ⟨?_, ?_⟩ <;> decide +kernel
theorem witness_LinkConfiguration_2 :
    Admitted chn h1 2053 none :=
  by decide +kernel
theorem witness_LinkConfiguration_3 :
    Admitted upB h0 2049 (some 7) ∧ stlCfgChecks 0 1 8 true = none ∧ (∀ (a : Nat), (stlPort upB 0).cfgAt = some a → a + 100000 ≤ (tick h0.t upB).clk.mono) ∧ upB.stl.refoSerial ≤ h0.serial :=
  by decide +kernel
theorem witness_LinkConfiguration_4 :
    Admitted chn h0 2051 (some 7) ∧ 4094 < 4095 ∧ 1000 ≤ 1000 ∧ 1000 ≤ 4000000 ∧ chn.chain.wides = [] :=
  by decide +kernel
theorem witness_LinkConfiguration_5 :
    Admitted v04_6 h0 2049 (some 7) ∧ stlCfgChecks 1 0 4 false = none ∧ (∀ (a : Nat), (stlPort v04_6 1).cfgAt = some a → a + 100000 ≤ (tick h0.t v04_6).clk.mono) ∧ h0.serial < v04_6.stl.refoSerial :=
  by decide +kernel
theorem witness_LinkConfiguration_6 :
    Admitted chn h1 2052 none :=
  by decide +kernel
theorem witness_LinkConfiguration_7 :
    Admitted v04_7 h2 2051 (some 7) ∧ 9 < 4095 ∧ 1000 ≤ 4000000 ∧ 4000000 ≤ 4000000 ∧ v04_7.chain.wides ≠ [] :=
  by decide +kernel
theorem witness_LinkConfiguration_8 :
    Admitted (ri (setF F.TWIN_STAT_STATE 0 0 4 (setF F.TWIN_CFG_STAT_ROLE 0 0 1 pu))) h2 2050 (some 7) ∧ 0 ≤ 2 ∧ 10 ≤ 10 ∧ 10 ≤ 10000 ∧ 100 ≤ 100 ∧ 100 ≤ 60000 ∧ (65535 = 65535 ∨ startsPort (ri (setF F.TWIN_STAT_STATE 0 0 4 (setF F.TWIN_CFG_STAT_ROLE 0 0 1 pu))) 65535 = true) ∧ twinRole (ri (setF F.TWIN_STAT_STATE 0 0 4 (setF F.TWIN_CFG_STAT_ROLE 0 0 1 pu))) ≠ 0 ∧ twinState (ri (setF F.TWIN_STAT_STATE 0 0 4 (setF F.TWIN_CFG_STAT_ROLE 0 0 1 pu))) = 4 :=
  by decide +kernel
theorem witness_LinkConfiguration_9 :
    Admitted pu h0 2050 (some 7) ∧ 2 ≤ 2 ∧ 10 ≤ 10000 ∧ 10000 ≤ 10000 ∧ 100 ≤ 60000 ∧ 60000 ≤ 60000 ∧ (0 = 65535 ∨ startsPort pu 0 = true) ∧ (65535 = 65535 ∨ startsPort pu 65535 = true) ∧ (twinRole pu = 2 ∨ twinState pu ≠ 4) ∧ 0 ≠ 65535 :=
  by decide +kernel
theorem witness_LinkConfiguration_10 :
    Admitted (setF F.TWIN_CFG_STAT_ROLE 0 0 1 pu) h0 2050 (some 7) ∧ 0 ≤ 2 ∧ 10 ≤ 10 ∧ 10 ≤ 10000 ∧ 100 ≤ 100 ∧ 100 ≤ 60000 ∧ (65535 = 65535 ∨ startsPort (setF F.TWIN_CFG_STAT_ROLE 0 0 1 pu) 65535 = true) ∧ (twinRole (setF F.TWIN_CFG_STAT_ROLE 0 0 1 pu) = 0 ∨ twinState (setF F.TWIN_CFG_STAT_ROLE 0 0 1 pu) ≠ 4) ∧ twinRole (setF F.TWIN_CFG_STAT_ROLE 0 0 1 pu) ≠ 0 :=
  by decide +kernel
theorem witness_FirmwareCommands_1 :
    Admitted stg h0 3843 none ∧ stg.fw.staged = some gs ∧ stg.fw.update = none ∧ (gs.pipe.id = ((Option.map (fun r => (r.pipe.id, r.version)) stg.fw.running).getD (0, 0)).fst) ∧ (gs.minHitless ≤ ((Option.map (fun r => (r.pipe.id, r.version)) stg.fw.running).getD (0, 0)).snd) ∧ standInsOk stg gs = true :=
  by decide +kernel
theorem witness_FirmwareCommands_2 :
    Admitted (ri upB) h2 3842 none ∧ 0 ≤ 1 ∧ 100 ≤ 8388608 ∧ (ri upB).fw.update = none :=
  by decide +kernel
theorem witness_FirmwareCommands_3 :
    Admitted (setF F.ENG_STAT_STATE 63 0 5 stg) h0 3845 none ∧ 63 ≤ 63 ∧ engState (setF F.ENG_STAT_STATE 63 0 5 stg) 63 = 5 :=
  by decide +kernel
theorem witness_FirmwareCommands_4 :
    Admitted stg h0 3843 none ∧ stg.fw.staged = some gs :=
  by decide +kernel
theorem witness_FirmwareCommands_5 :
    Admitted upB h1 3841 none :=
  by decide +kernel
theorem witness_FirmwareCommands_6 :
    Admitted (ri upB) h2 3844 none ∧ 1 ≤ 1 ∧ (ri upB).fw.staged = none :=
  by decide +kernel
theorem witness_FirmwareCommands_7 :
    Admitted (ri upB) h2 3843 none ∧ 1 ≤ 1 ∧ (ri upB).fw.staged = none :=
  by decide +kernel
theorem witness_FirmwareCommands_8 :
    Admitted (ri stg) h2 3845 none ∧ 63 ≤ 63 ∧ engState (ri stg) 63 ≠ 5 :=
  by decide +kernel
theorem witness_FirmwareCommands_9 :
    Admitted v04_8 h2 3842 none ∧ 0 ≤ 1 ∧ 100 ≤ 8388608 ∧ v04_8.fw.update.isSome = true :=
  by decide +kernel
theorem witness_FirmwareCommands_10 :
    Admitted v04_10 h2 3843 none ∧ v04_10.fw.staged = some gs ∧ v04_10.fw.update.isSome = true :=
  by decide +kernel
theorem witness_FirmwareCommands_11 :
    Admitted v04_9 h2 3843 none ∧ v04_9.fw.staged = some gs ∧ v04_9.fw.update = none ∧ (gs.pipe.id ≠ ((Option.map (fun r => (r.pipe.id, r.version)) v04_9.fw.running).getD (0, 0)).fst ∨ ((Option.map (fun r => (r.pipe.id, r.version)) v04_9.fw.running).getD (0, 0)).snd < gs.minHitless) :=
  by decide +kernel
theorem witness_FirmwareCommands_12 :
    Admitted v04_11 h2 3843 none ∧ v04_11.fw.staged = some gs3 ∧ v04_11.fw.update = none ∧ (gs3.pipe.id = ((Option.map (fun r => (r.pipe.id, r.version)) v04_11.fw.running).getD (0, 0)).fst) ∧ (gs3.minHitless ≤ ((Option.map (fun r => (r.pipe.id, r.version)) v04_11.fw.running).getD (0, 0)).snd) ∧ standInsOk v04_11 gs3 = false :=
  by decide +kernel
end Sys2Proof.Tests.T04
namespace Sys2Proof.Tests.T05
def lk : State := setF F.LOCK_STAT_HELD 2 0 1 (setF F.LOCK_STAT_HOLDER 2 0 0x1000 { upB with cmd := { upB.cmd with locks := [(2, ⟨5, 900⟩), (3, ⟨5, 900⟩)] } })
def eg : State := setF F.ENG_STAT_ROLE 3 0 1 (setF F.ENG_STAT_STATE 3 0 1 upB)
def oc (ser prio : Nat) : OutCmd := { serial := ser, kind := 0, sub := 0, tag := 9, opcode := 0x0105, idem := false, ackReq := true, prog := true, priority := prio, objs := [], permille := 250, cursor := 77 }
def oc1 : OutCmd := { oc 8 1 with dispatched := true }
def pr : State := ri { eg with cmd := { eg.cmd with outstanding := [oc1] } }
def oc2 : OutCmd := { oc 8 1 with dispatched := true, permille := 0 }
def pr2 : State := ri { eg with cmd := { eg.cmd with outstanding := [oc2] } }
def egC : State := { eg with cmd := { eg.cmd with outstanding := [oc 8 1, oc 9 0, oc 10 0] } }
def ocK (k : Nat) : OutCmd := { oc1 with kind := k }
def prK (k : Nat) : State := portUp 0 (on 0 (ri { eg with cmd := { eg.cmd with outstanding := [ocK k] } }))
def macs : State := on 0 upB
def b (n : RegName) : Nat := (regRow n).base
def one (n : RegName) (i : Nat) : RegKey := ⟨n, i, 0⟩
def ev : State := raise Ev.PWR_T_OVER 0 0 upB
def sf : State := setF F.FLT_STAT_SAFE 0 0 1 upB
def v05_1 : State := {}
def vfs : State := { upB with tele := { upB.tele with vf := [((3, 0), ⟨true, 1, 2⟩)] } }
def wm : State := setF F.HIF_CFG_WIDE_MODE 0 0 1 upB
def v05_3 : State := (setMacRt 0 { caps := [⟨1, 2, 3⟩, ⟨4, 5, 6⟩] } upB)
def v05_7 : State := on 0 v05_3
def wb (a : Nat) : State := setF F.WIDE_MBX_ADDR_ADDR 0 0 a (setF F.WIDE_MBX_STAT_BUSY 0 0 1 wm)
def mv (a : Nat) : Option (List W32 × State) := mbxValue a (setF F.WIDE_MBX_STAT_BUSY 0 0 0 (tick 5 (wb a)))
def mvw (a : Nat) : List W32 := ((mv a).map (fun x => x.1)).getD []
def mvs (a : Nat) : State := ((mv a).map (fun x => x.2)).getD upB
def v05_2 : State := { upB with clk := { upB.clk with tod := 0x123456789AB } }
def v05_6 : State := { upB with rf := { upB.rf with held := [(b .TOD_SET, 0x1000)] } }

theorem witness_SequencerEvents_1 :
    Operating lk ∧ 2 < 8 ∧ (flag lk F.LOCK_STAT_HELD 2 0 = true ∧ (tgetD lk.cmd.locks 2 { serial := 0, expiry := 0 }).expiry ≤ (tick 900 lk).clk.mono) :=
  by decide +kernel
theorem witness_SequencerEvents_2 :
    Operating pr ∧ 8 ≠ 0 ∧ (∀ (f : FlowFlush), f ∈ pr.tele.flushes → f.cmd.serial ≠ 8) ∧ outCmd (flushTurn 8 (tick 1000000 pr)) 8 = some oc1 ∧ ((oc1.prog = true ∧ Option.any OpInfo.prog (opInfo oc1.opcode) = true ∧ oc1.dispatched = true) ∧ 1000000 ≤ (flushTurn 8 (tick 1000000 pr)).clk.mono - oc1.lastInterim ∧ (oc1.lastPermille / 100 < oc1.permille / 100 ∨ 100000000 ≤ (flushTurn 8 (tick 1000000 pr)).clk.mono - oc1.lastInterim)) ∧ oc1.kind = 0 ∧ oc1.muted = false ∧ cqFull (flushTurn 8 (tick 1000000 pr)) oc1.sub = false ∧ flag (flushTurn 8 (tick 1000000 pr)) F.CMD_RING_CFG_EN oc1.sub 0 = true :=
  by decide +kernel
theorem witness_SequencerEvents_3 :
    Operating lk ∧ 2 < 8 ∧ (¬(flag lk F.LOCK_STAT_HELD 2 0 = true ∧ (tgetD lk.cmd.locks 2 { serial := 0, expiry := 0 }).expiry ≤ (tick 899 lk).clk.mono)) :=
  by decide +kernel
theorem witness_SequencerEvents_4 :
    Operating pr2 ∧ 9 ≠ 0 ∧ outCmd (flushTurn 9 (tick 100000000 pr2)) 9 = none :=
  by decide +kernel
theorem witness_SequencerEvents_5 :
    Operating eg ∧ 3 < 64 ∧ (engState eg 3 = 1 ∨ engState eg 3 = 2) ∧ getF eg F.ENG_STAT_ROLE 3 0 = 1 ∧ (tgetD eg.eng 3 { }).drain = false ∧ List.filter (dispatchable eg) eg.cmd.outstanding = [] :=
  by decide +kernel
theorem witness_SequencerEvents_6 :
    Operating pr ∧ 8 ≠ 0 ∧ outCmd (flushTurn 8 (tick 999999 pr)) 8 = some oc1 ∧ (¬((oc1.prog = true ∧ Option.any OpInfo.prog (opInfo oc1.opcode) = true ∧ oc1.dispatched = true) ∧ 1000000 ≤ (flushTurn 8 (tick 999999 pr)).clk.mono - oc1.lastInterim ∧ (oc1.lastPermille / 100 < oc1.permille / 100 ∨ 100000000 ≤ (flushTurn 8 (tick 999999 pr)).clk.mono - oc1.lastInterim))) :=
  by decide +kernel
theorem witness_SequencerEvents_7 :
    Operating egC ∧ 3 < 64 ∧ (engState egC 3 = 1 ∨ engState egC 3 = 2) ∧ getF egC F.ENG_STAT_ROLE 3 0 = 1 ∧ (tgetD egC.eng 3 { }).drain = false ∧ oc 9 0 ∈ egC.cmd.outstanding ∧ dispatchable egC (oc 9 0) = true ∧ (oc 9 0).serial < 2 ^ 64 ∧ (∀ (q : OutCmd), q ∈ egC.cmd.outstanding → dispatchable egC q = true → q ≠ oc 9 0 → (oc 9 0).priority < q.priority ∨ (oc 9 0).priority = q.priority ∧ (oc 9 0).serial < q.serial) ∧ (∀ (q : OutCmd), q ∈ egC.cmd.outstanding → q.serial < 2 ^ 64) :=
  by decide +kernel
theorem witness_SequencerEvents_8 :
    Operating (prK 1) ∧ 8 ≠ 0 ∧ outCmd (flushTurn 8 (tick 1000000 (prK 1))) 8 = some (ocK 1) ∧ (((ocK 1).prog = true ∧ Option.any OpInfo.prog (opInfo (ocK 1).opcode) = true ∧ (ocK 1).dispatched = true) ∧ 1000000 ≤ (flushTurn 8 (tick 1000000 (prK 1))).clk.mono - (ocK 1).lastInterim ∧ ((ocK 1).lastPermille / 100 < (ocK 1).permille / 100 ∨ 100000000 ≤ (flushTurn 8 (tick 1000000 (prK 1))).clk.mono - (ocK 1).lastInterim)) ∧ (ocK 1).kind = 1 :=
  by decide +kernel
theorem witness_SequencerEvents_9 :
    Operating (prK 4) ∧ 8 ≠ 0 ∧ outCmd (flushTurn 8 (tick 1000000 (prK 4))) 8 = some (ocK 4) ∧ (((ocK 4).prog = true ∧ Option.any OpInfo.prog (opInfo (ocK 4).opcode) = true ∧ (ocK 4).dispatched = true) ∧ 1000000 ≤ (flushTurn 8 (tick 1000000 (prK 4))).clk.mono - (ocK 4).lastInterim ∧ ((ocK 4).lastPermille / 100 < (ocK 4).permille / 100 ∨ 100000000 ≤ (flushTurn 8 (tick 1000000 (prK 4))).clk.mono - (ocK 4).lastInterim)) ∧ 2 < (ocK 4).kind :=
  by decide +kernel
theorem witness_SequencerEvents_10 :
    Operating (prK 2) ∧ 8 ≠ 0 ∧ outCmd (flushTurn 8 (tick 1000000 (prK 2))) 8 = some (ocK 2) ∧ (((ocK 2).prog = true ∧ Option.any OpInfo.prog (opInfo (ocK 2).opcode) = true ∧ (ocK 2).dispatched = true) ∧ 1000000 ≤ (flushTurn 8 (tick 1000000 (prK 2))).clk.mono - (ocK 2).lastInterim ∧ ((ocK 2).lastPermille / 100 < (ocK 2).permille / 100 ∨ 100000000 ≤ (flushTurn 8 (tick 1000000 (prK 2))).clk.mono - (ocK 2).lastInterim)) ∧ (ocK 2).kind = 2 ∧ portIsUp (flushTurn 8 (tick 1000000 (prK 2))) (ocK 2).sub = true :=
  by decide +kernel
theorem witness_HostAccesses_1 :
    4 ≤ 6 ∧ 6 ≤ 6 ∧ (4 = 1 ∨ 4 = 2 ∨ 4 = 4) ∧ Served upB :=
  by decide +kernel
theorem witness_HostAccesses_2 :
    Served macs ∧ isSafe macs = false ∧ b RegName.PORT_WD % 4 = 0 ∧ locate (b RegName.PORT_WD) = some (one RegName.PORT_WD 0) ∧ ((one RegName.PORT_WD 0).n ∈ [RegName.PORT_PTP, RegName.PORT_PFC_TIME, RegName.PORT_WD, RegName.PORT_ADM, RegName.HOST_FLOW, RegName.IB_PORT_EN, RegName.CHAIN_TIME_CFG]) ∧ domainOff macs (domainOf (b RegName.PORT_WD)) = false ∧ noPort macs (one RegName.PORT_WD 0) = false ∧ reg macs (one RegName.PORT_WD 0).n (one RegName.PORT_WD 0).i (one RegName.PORT_WD 0).j &&& BitVec.ofNat 32 (regRow (one RegName.PORT_WD 0).n).keep ≠ 4294967295 &&& BitVec.ofNat 32 (regRow (one RegName.PORT_WD 0).n).keep :=
  by decide +kernel
theorem witness_HostAccesses_3 :
    Served upB ∧ isSafe upB = false ∧ 524288 % 4 = 0 ∧ locate 524288 = none ∧ inCounters 524288 = false :=
  by decide +kernel
theorem witness_HostAccesses_4 :
    Served macs ∧ isSafe macs = false ∧ b RegName.FLT_SAFE_TOD % 4 = 0 ∧ locate (b RegName.FLT_SAFE_TOD) = some (one RegName.FLT_SAFE_TOD 0) ∧ domainOff macs (domainOf (b RegName.FLT_SAFE_TOD)) = false ∧ (one RegName.FLT_SAFE_TOD 0).j = 0 ∧ wideWords (one RegName.FLT_SAFE_TOD 0) ≠ 0 ∧ b RegName.FLT_SAFE_TOD % (4 * wideWords (one RegName.FLT_SAFE_TOD 0)) = 0 ∧ (one RegName.FLT_SAFE_TOD 0).n ≠ RegName.MAC_TS_POP :=
  by decide +kernel
theorem witness_HostAccesses_5 :
    Served ev ∧ isSafe ev = false ∧ b RegName.PWR_EVT % 4 = 0 ∧ locate (b RegName.PWR_EVT) = some (one RegName.PWR_EVT 0) ∧ ((one RegName.PWR_EVT 0).n ∈ [RegName.CMD_EVT, RegName.PWR_EVT, RegName.EPOCH_EVT, RegName.TCAM_EVT, RegName.LEARN_EVT, RegName.PAL_EVT, RegName.SCH_EVT, RegName.TEL_EVT, RegName.CNT_EVT, RegName.ENG_EVT, RegName.TWIN_EVT, RegName.CHAIN_EVT, RegName.FLT_EVT]) ∧ domainOff ev (domainOf (b RegName.PWR_EVT)) = false ∧ reg ev RegName.PWR_EVT 0 0 &&& BitVec.ofNat 32 (regRow (one RegName.PWR_EVT 0).n).keep = reg ev (one RegName.PWR_EVT 0).n (one RegName.PWR_EVT 0).i (one RegName.PWR_EVT 0).j &&& BitVec.ofNat 32 (regRow (one RegName.PWR_EVT 0).n).keep :=
  by decide +kernel
theorem witness_HostAccesses_6 :
    Served sf ∧ isSafe sf = true :=
  by decide +kernel
theorem witness_HostAccesses_7 :
    Served upB ∧ isSafe upB = false ∧ 3 ≠ 4 :=
  by decide +kernel
theorem witness_HostAccesses_8 :
    Served sf ∧ isSafe sf = true ∧ 12582944 % 4 = 0 ∧ safeServed 12582944 = false :=
  by decide +kernel
theorem witness_HostAccesses_9 :
    4 ≤ 6 ∧ 6 ≤ 6 ∧ (2 = 1 ∨ 2 = 2 ∨ 2 = 4) ∧ halted v05_1 = false ∧ (v05_1.flt.tripped = true ∨ bootStage v05_1 = 0) :=
  by decide +kernel
theorem witness_HostAccesses_10 :
    Served macs ∧ isSafe macs = false ∧ (b RegName.PORT_PTP + 64) % 4 = 0 ∧ (locate (b RegName.PORT_PTP + 64) = some (⟨RegName.PORT_PTP, 0, 1⟩ : RegKey)) ∧ ((⟨RegName.PORT_PTP, 0, 1⟩ : RegKey).n ∈ [RegName.PORT_PTP, RegName.PORT_PFC_TIME, RegName.PORT_WD, RegName.PORT_ADM, RegName.HOST_FLOW, RegName.IB_PORT_EN, RegName.CHAIN_TIME_CFG]) ∧ domainOff macs (domainOf (b RegName.PORT_PTP + 64)) = false ∧ (noPort macs (⟨RegName.PORT_PTP, 0, 1⟩ : RegKey) = true) :=
  by decide +kernel
theorem witness_HostAccesses_11 :
    Served macs ∧ isSafe macs = false ∧ b RegName.PORT_PTP % 4 = 0 ∧ locate (b RegName.PORT_PTP) = some (one RegName.PORT_PTP 0) ∧ ((one RegName.PORT_PTP 0).n ∈ [RegName.PORT_PTP, RegName.PORT_PFC_TIME, RegName.PORT_WD, RegName.PORT_ADM, RegName.HOST_FLOW, RegName.IB_PORT_EN, RegName.CHAIN_TIME_CFG]) ∧ domainOff macs (domainOf (b RegName.PORT_PTP)) = false ∧ noPort macs (one RegName.PORT_PTP 0) = false ∧ reg macs (one RegName.PORT_PTP 0).n (one RegName.PORT_PTP 0).i (one RegName.PORT_PTP 0).j &&& BitVec.ofNat 32 (regRow (one RegName.PORT_PTP 0).n).keep = 305419896 &&& BitVec.ofNat 32 (regRow (one RegName.PORT_PTP 0).n).keep :=
  by decide +kernel
theorem witness_WideAccess_1 :
    Served vfs ∧ isSafe vfs = false ∧ 3 < 64 ∧ 0 + 8 ≤ vfBar0.size ∧ (((List.range 8).all fun k => vfSees vfs 3 (0 + k)) = false) ∧ (((List.range 8).all fun k => !vfCovers vfs 3 ((0 + k) / 4096)) = true) :=
  by decide +kernel
theorem witness_WideAccess_2 :
    Served wm ∧ isSafe wm = false ∧ BitVec.ofNat 32 (b RegName.FLT_SAFE_TOD) &&& BitVec.ofNat 32 (regRow RegName.WIDE_MBX_ADDR).keep = reg wm RegName.WIDE_MBX_ADDR 0 0 &&& BitVec.ofNat 32 (regRow RegName.WIDE_MBX_ADDR).keep ∧ flag wm F.WIDE_MBX_STAT_BUSY 0 0 = false ∧ flag wm F.HIF_CFG_WIDE_MODE 0 0 = true :=
  by decide +kernel
theorem witness_WideAccess_3 :
    Served v05_7 ∧ isSafe v05_7 = false ∧ 0 < 96 ∧ domainOff v05_7 (11 + 0 / 12) = false ∧ flag v05_7 F.HIF_CFG_WIDE_MODE 0 0 = false :=
  by decide +kernel
theorem witness_WideAccess_4 :
    Served vfs ∧ isSafe vfs = false ∧ 3 < 64 ∧ 4096 + 8 ≤ vfBar0.size ∧ (((List.range 8).all fun k => vfSees vfs 3 (4096 + k)) = true) ∧ 4096 % 8 = 0 :=
  by decide +kernel
theorem witness_WideAccess_5 :
    Operating (wb (b RegName.FLT_SAFE_TOD)) ∧ flag (wb (b RegName.FLT_SAFE_TOD)) F.WIDE_MBX_STAT_BUSY 0 0 = true ∧ (mbxValue (getF (wb (b RegName.FLT_SAFE_TOD)) F.WIDE_MBX_ADDR_ADDR 0 0) (setF F.WIDE_MBX_STAT_BUSY 0 0 0 (tick 5 (wb (b RegName.FLT_SAFE_TOD)))) = some (mvw (b RegName.FLT_SAFE_TOD), mvs (b RegName.FLT_SAFE_TOD))) :=
  by decide +kernel
theorem witness_WideAccess_6 :
    Served v05_2 ∧ isSafe v05_2 = false ∧ b RegName.TOD_NOW % 4 = 0 ∧ locate (b RegName.TOD_NOW) = some (one RegName.TOD_NOW 0) ∧ (one RegName.TOD_NOW 0).j = 0 ∧ wideWords (one RegName.TOD_NOW 0) = 2 ∧ flag v05_2 F.HIF_CFG_WIDE_MODE 0 0 = false ∧ domainOff v05_2 (domainOf (b RegName.TOD_NOW)) = false :=
  by decide +kernel
theorem witness_WideAccess_7 :
    Operating (wb (b RegName.PWR_EVT)) ∧ flag (wb (b RegName.PWR_EVT)) F.WIDE_MBX_STAT_BUSY 0 0 = true ∧ mbxValue (getF (wb (b RegName.PWR_EVT)) F.WIDE_MBX_ADDR_ADDR 0 0) (setF F.WIDE_MBX_STAT_BUSY 0 0 0 (tick 5 (wb (b RegName.PWR_EVT)))) = none :=
  by decide +kernel
theorem witness_WideAccess_8 :
    Served (setF F.HIF_CFG_WIDE_MODE 0 0 1 v05_7) ∧ isSafe (setF F.HIF_CFG_WIDE_MODE 0 0 1 v05_7) = false ∧ 0 < 96 ∧ domainOff (setF F.HIF_CFG_WIDE_MODE 0 0 1 v05_7) (11 + 0 / 12) = false ∧ flag (setF F.HIF_CFG_WIDE_MODE 0 0 1 v05_7) F.HIF_CFG_WIDE_MODE 0 0 = true :=
  by decide +kernel
theorem witness_WideAccess_9 :
    Served (setF F.WIDE_MBX_STAT_BUSY 0 0 1 wm) ∧ isSafe (setF F.WIDE_MBX_STAT_BUSY 0 0 1 wm) = false ∧ BitVec.ofNat 32 (b RegName.FLT_SAFE_TOD) &&& BitVec.ofNat 32 (regRow RegName.WIDE_MBX_ADDR).keep = reg (setF F.WIDE_MBX_STAT_BUSY 0 0 1 wm) RegName.WIDE_MBX_ADDR 0 0 &&& BitVec.ofNat 32 (regRow RegName.WIDE_MBX_ADDR).keep ∧ flag (setF F.WIDE_MBX_STAT_BUSY 0 0 1 wm) F.WIDE_MBX_STAT_BUSY 0 0 = true :=
  by decide +kernel
theorem witness_FieldsOf64Bits_1 :
    Served upB ∧ isSafe upB = false ∧ (b RegName.SQ_BASE + 4) % 4 = 0 ∧ (locate (b RegName.SQ_BASE + 4) = some (⟨RegName.SQ_BASE, 0, 1⟩ : RegKey)) ∧ ((⟨RegName.SQ_BASE, 0, 1⟩ : RegKey).n ∈ [RegName.SMP_RING_BASE, RegName.SMP_WB_ADDR, RegName.SWATCH_BUF_A, RegName.SWATCH_BUF_B, RegName.PKT_RING_BASE, RegName.PKT_WB_ADDR, RegName.SQ_BASE, RegName.CQ_BASE, RegName.CMD_WB_ADDR, RegName.TOD_SET]) ∧ ((⟨RegName.SQ_BASE, 0, 1⟩ : RegKey).j = 1) ∧ ((⟨RegName.SQ_BASE, 0, 1⟩ : RegKey).n ≠ RegName.TOD_SET) :=
  by decide +kernel
theorem witness_FieldsOf64Bits_2 :
    Served upB ∧ isSafe upB = false ∧ b RegName.SQ_BASE % 4 = 0 ∧ locate (b RegName.SQ_BASE) = some (one RegName.SQ_BASE 0) ∧ ((one RegName.SQ_BASE 0).n ∈ [RegName.SMP_RING_BASE, RegName.SMP_WB_ADDR, RegName.SWATCH_BUF_A, RegName.SWATCH_BUF_B, RegName.PKT_RING_BASE, RegName.PKT_WB_ADDR, RegName.SQ_BASE, RegName.CQ_BASE, RegName.CMD_WB_ADDR, RegName.TOD_SET]) ∧ (one RegName.SQ_BASE 0).j = 0 :=
  by decide +kernel
theorem witness_FieldsOf64Bits_3 :
    Served v05_6 ∧ isSafe v05_6 = false ∧ (b RegName.TOD_SET + 4) % 4 = 0 ∧ (locate (b RegName.TOD_SET + 4) = some (⟨RegName.TOD_SET, 0, 1⟩ : RegKey)) ∧ ((⟨RegName.TOD_SET, 0, 1⟩ : RegKey).n ∈ [RegName.SMP_RING_BASE, RegName.SMP_WB_ADDR, RegName.SWATCH_BUF_A, RegName.SWATCH_BUF_B, RegName.PKT_RING_BASE, RegName.PKT_WB_ADDR, RegName.SQ_BASE, RegName.CQ_BASE, RegName.CMD_WB_ADDR, RegName.TOD_SET]) ∧ ((⟨RegName.TOD_SET, 0, 1⟩ : RegKey).j = 1) ∧ ((⟨RegName.TOD_SET, 0, 1⟩ : RegKey).n = RegName.TOD_SET) :=
  by decide +kernel
end Sys2Proof.Tests.T05
namespace Sys2Proof.Tests.T06
def mvd : State := { upB with port := { upB.port with srcOld := [(0, 3)], srcTo := [(0, 7)] } }
def mvdF : State := setF (srcField 0) 0 0 7 (setF ⟨.GLB_SRC_MAP1, 16, 1⟩ 0 0 1 { mvd with pal := { mvd.pal with fifo := [(3, [{ id := 0, frame := [], len := 0, ended := true, tailBad := false, src := 768, admClass := 0, iclass := 0, ts := 0, tsMono := 0, marker := true }])] } })
def v06_1 : State := { upB with tele := { upB.tele with winStart := [(1, (0, 0, 0))] } }
def pool : State := setF F.PAL_STAT0_BANKS_IN_SERVICE 0 0 128 upB
def e0 (n : Nat) (m : Bool) : FifoEnt := { id := n, frame := [], len := 0, ended := true, tailBad := false, src := 768, admClass := 0, iclass := 0, ts := 0, tsMono := 0, marker := m }
def mvdC : State := { mvdF with pal := { mvd.pal with fifo := [(3, [e0 1 false, e0 0 true])] } }
def st (n : Nat) : State := setF F.RST_STAT_BOOT_STAGE 0 0 n {}
def drv (m l st retry : Nat) : State := setF ⟨drvCtl m, 8, 3⟩ (drvUnit m) l st (setF ⟨drvCtl m, 12, 4⟩ (drvUnit m) l retry upB)
def v06_w : State := setStlPort 2 { stlPort upB 2 with enabled := true, wakeAt := some 500000 } upB
def v06_2 : State := (setMacRt 95 { wakeAt := some 500000, cfg := some { mcfg with mac := 95 } } upB)
def v06_3 : State := (setMacRt 95 { wakeAt := some 500000 } upB)
def rst : State := setF F.PKT_RING_CFG_RESET 33 0 1 (setF F.PKT_RING_CFG_EN 33 0 1 { upB with host := { upB.host with pkt := [(33, { posted := [[1], [2]], staged := some ([5], 1) })] } })
def tl : State := setF F.PKT_RING_CFG_SIZE_LOG2 2 0 6 (setF F.RING_TAIL_TAIL 2 0 62 { upB with host := { upB.host with pkt := [(2, { posted := [[1], [2]] })] } })
def oc (k s : Nat) : OutCmd := { serial := k, kind := 0, sub := s, tag := 9, opcode := 0x0105, idem := false, ackReq := true, prog := true, priority := 0, objs := [] }
def v06_5 : State := (ri { upB with cmd := { upB.cmd with outstanding := [oc 5 0, oc 6 1] } })
def co : State := setF F.CMD_RING_TIME_COAL_US 2 0 5 (setF F.PKT_RING_TIME_COAL_US 2 0 5 { upB with cmd := { upB.cmd with rings := [(2, { coal := ⟨1, 100⟩ })] }, host := { upB.host with msix := true, pkt := [(2, { coal := ⟨1, 100⟩ })] } })
def full : State := setF F.FLT_STAT_SAFE 0 0 1 { egF with flt := { egF.flt with frozen := true } }
def v06_7 : State := (setF F.RST_STAT_RAIL_OK 0 0 55 (setF F.CLK_STAT_AON_CLK_OK 0 0 1 {}))
def v06_10 : State := (setF F.RST_STAT_RAIL_OK 0 0 63 {})
def v06_8 : State := (setF F.RST_STAT_RAIL_OK 0 0 51 (setF F.CLK_STAT_AON_CLK_OK 0 0 1 {}))
def v06_6 : State := { full with boot := { off := true } }

theorem witness_SettingsInBounds_1 :
    Operating upB :=
  by decide +kernel
theorem witness_SettingsInBounds_2 :
    Operating upB ∧ bootStage upB ≠ 0 ∧ 0 < 4 ∧ bits (454232839#32).toNat (8 * 0) 5 = 7 ∧ (∀ (j : Nat), j < 4 → j ≠ 0 → bits (454232839#32).toNat (8 * j) 5 = getF upB (srcField j) 0 0) ∧ 454232839#32 &&& BitVec.ofNat 32 (regRow RegName.GLB_SRC_MAP0).keep = reg upB RegName.GLB_SRC_MAP0 0 0 &&& BitVec.ofNat 32 (regRow RegName.GLB_SRC_MAP0).keep ∧ 7 ≠ getF upB (srcField 0) 0 0 ∧ tget upB.port.srcOld 0 = none :=
  by decide +kernel
theorem witness_SettingsInBounds_3 :
    Operating mvdF ∧ 0 < 5 ∧ tget mvdF.port.srcOld 0 = some 3 ∧ tget mvdF.port.srcTo 0 = some 7 ∧ markerOut mvdF (servingPipe mvdF 0 3) 0 = true ∧ scopeReady mvdF 0 7 = true ∧ getF mvdF (srcField 0) 0 0 = 7 ∧ tgetD mvdF.port.srcHeld 0 [] = [] :=
  by decide +kernel
theorem witness_SettingsInBounds_4 :
    Operating upB ∧ bootStage upB ≠ 0 ∧ BitVec.ofNat 32 (1000 * 2 ^ 22 + 3600 * 2 ^ 10) &&& BitVec.ofNat 32 (regRow RegName.TEL_CFG).keep = reg upB RegName.TEL_CFG 0 0 &&& BitVec.ofNat 32 (regRow RegName.TEL_CFG).keep :=
  by decide +kernel
theorem witness_SettingsInBounds_5 :
    Operating v06_1 ∧ bootStage v06_1 ≠ 0 ∧ 1 < 773 ∧ (locate (37761024 + 4 * 1) = some (⟨RegName.PORT_RATE_CFG, 1, 0⟩ : RegKey)) ∧ 5#32 &&& BitVec.ofNat 32 (regRow RegName.PORT_RATE_CFG).keep = reg v06_1 RegName.PORT_RATE_CFG 1 0 &&& BitVec.ofNat 32 (regRow RegName.PORT_RATE_CFG).keep ∧ bits (5#32).toNat 0 26 ≠ 0 ∧ bits (5#32).toNat 0 26 ≤ 60000000 ∧ bits (5#32).toNat 0 26 ≠ getF v06_1 F.PORT_RATE_CFG_WINDOW_US 1 0 :=
  by decide +kernel
theorem witness_SettingsInBounds_6 :
    Operating pool ∧ 0 < 4 ∧ partsSum pool - getF pool F.PAL_POOL_SIZE_SIZE 0 0 + (5#32).toNat % 2 ^ 21 ≤ cellsInService pool ∧ 1 ≠ 0 :=
  by decide +kernel
theorem witness_SettingsInBounds_7 :
    Operating upB ∧ 1 ≤ bits ((10000#32).toNat) 0 14 ∧ bits ((10000#32).toNat) 0 14 ≤ 10000 ∧ (∀ (n : Nat), n < 16 → epState upB n ≠ 3) :=
  by decide +kernel
theorem witness_SettingsInBounds_8 :
    Operating upB ∧ (bits ((0#32).toNat) 0 14 = 0 ∨ 10000 < bits ((0#32).toNat) 0 14) :=
  by decide +kernel
theorem witness_SettingsInBounds_9 :
    Operating mvdC ∧ 0 < 5 ∧ tget mvdC.port.srcOld 0 = some 3 ∧ tget mvdC.port.srcTo 0 = some 7 ∧ (markerOut mvdC (servingPipe mvdC 0 3) 0 = false ∨ scopeReady mvdC 0 7 = false) :=
  by decide +kernel
theorem witness_SettingsInBounds_10 :
    Operating upB ∧ 3 < 4 ∧ cellsInService upB < partsSum upB - getF upB F.PAL_POOL_SIZE_SIZE 3 0 + (5#32).toNat % 2 ^ 21 ∧ partsSum upB < partsSum upB - getF upB F.PAL_POOL_SIZE_SIZE 3 0 + (5#32).toNat % 2 ^ 21 :=
  by decide +kernel
theorem witness_LaneDrivers_1 :
    (Operating (drv 0 0 2 3) ∧ drvExists 0 0 = true ∧ (drvState (drv 0 0 2 3) 0 0 ≠ 1 ∨ (tick 1000000000 (drv 0 0 2 3)).clk.mono < (laneRt (drv 0 0 2 3) 0 0).rampAt + 20000) ∧ (drvState (drv 0 0 2 3) 0 0 = 1 ∨ drvState (drv 0 0 2 3) 0 0 = 2) ∧ drvRetry (drv 0 0 2 3) 0 0 ≠ 8 ∧ (drvState (drv 0 0 2 3) 0 0 ≠ 3 ∨ (tick 1000000000 (drv 0 0 2 3)).clk.mono < (laneRt (drv 0 0 2 3) 0 0).tripAt + 100000000) ∧ drvState (drv 0 0 2 3) 0 0 = 2 ∧ (laneRt (drv 0 0 2 3) 0 0).onSince + 1000000000 ≤ (tick 1000000000 (drv 0 0 2 3)).clk.mono) ∧
    (drvState (drv 0 0 2 3) 0 0 ≠ 4 ∧ (drvState (drv 0 0 2 3) 0 0 = 1 ∨ drvState (drv 0 0 2 3) 0 0 = 2 ∨ drvState (drv 0 0 2 3) 0 0 = 3) ∧ drvState (drv 0 0 2 3) 0 0 ≠ 0) :=
  by refine ⟨?_, ?_⟩ <;> decide +kernel
theorem witness_LaneDrivers_2 :
    Operating (drv 0 0 3 7) ∧ drvExists 0 0 = true ∧ drvState (drv 0 0 3 7) 0 0 ≠ 1 ∧ drvState (drv 0 0 3 7) 0 0 ≠ 2 ∧ drvState (drv 0 0 3 7) 0 0 = 3 ∧ (laneRt (drv 0 0 3 7) 0 0).tripAt + 100000000 ≤ (tick 100000000 (drv 0 0 3 7)).clk.mono :=
  by decide +kernel
theorem witness_LaneDrivers_3 :
    Operating v06_w ∧ 2 < 4 ∧ (stlPort v06_w 2).wakeAt = some 500000 ∧ 500000 ≤ (tick 500000 v06_w).clk.mono :=
  by decide +kernel
theorem witness_LaneDrivers_4 :
    Operating v06_2 ∧ 95 < 96 ∧ (macRt v06_2 95).wakeAt = some 500000 ∧ 500000 ≤ (tick 500000 v06_2).clk.mono :=
  by decide +kernel
theorem witness_LaneDrivers_5 :
    Operating upB ∧ 95 < 96 ∧ 7 < 8 ∧ portOfLane upB 95 7 = none ∧ (signed 6 (bits (BitVec.ofNat 32 (31 * 2 ^ 24 + 31 * 2 ^ 12 + 63 * 2 ^ 18)).toNat 24 6)).natAbs + (signed 6 (bits (BitVec.ofNat 32 (31 * 2 ^ 24 + 31 * 2 ^ 12 + 63 * 2 ^ 18)).toNat 12 6)).natAbs + (signed 6 (bits (BitVec.ofNat 32 (31 * 2 ^ 24 + 31 * 2 ^ 12 + 63 * 2 ^ 18)).toNat 6 6)).natAbs + (signed 6 (bits (BitVec.ofNat 32 (31 * 2 ^ 24 + 31 * 2 ^ 12 + 63 * 2 ^ 18)).toNat 0 6)).natAbs ≤ 63 :=
  by decide +kernel
theorem witness_LaneDrivers_6 :
    (Operating (setF { reg := RegName.STL_LANE_TXCTL, lo := 0, w := 1 } 0 3 1 (drv 96 3 4 8))) ∧ drvExists 96 3 = true ∧ (drvState (setF { reg := RegName.STL_LANE_TXCTL, lo := 0, w := 1 } 0 3 1 (drv 96 3 4 8)) 96 3 = 4) ∧ (drvSquelch (setF { reg := RegName.STL_LANE_TXCTL, lo := 0, w := 1 } 0 3 1 (drv 96 3 4 8)) 96 3 = true) :=
  by decide +kernel
theorem witness_LaneDrivers_7 :
    Operating (drv 0 7 1 0) ∧ drvExists 0 7 = true ∧ drvState (drv 0 7 1 0) 0 7 = 1 ∧ (laneRt (drv 0 7 1 0) 0 7).rampAt + 20000 ≤ (tick 20000 (drv 0 7 1 0)).clk.mono :=
  by decide +kernel
theorem witness_LaneDrivers_8 :
    Operating v06_w ∧ 2 < 4 ∧ (stlPort v06_w 2).wakeAt = some 500000 ∧ (tick 499999 v06_w).clk.mono < 500000 :=
  by decide +kernel
theorem witness_LaneDrivers_9 :
    Operating v06_3 ∧ 95 < 96 ∧ (macRt v06_3 95).wakeAt = some 500000 ∧ (tick 499999 v06_3).clk.mono < 500000 :=
  by decide +kernel
theorem witness_LaneDrivers_10 :
    Operating upB ∧ 0 < 96 ∧ 0 < 8 ∧ portOfLane upB 0 0 = none ∧ 63 < (signed 6 (bits (BitVec.ofNat 32 (32 * 2 ^ 24 + 31 * 2 ^ 12 + 5)).toNat 24 6)).natAbs + (signed 6 (bits (BitVec.ofNat 32 (32 * 2 ^ 24 + 31 * 2 ^ 12 + 5)).toNat 12 6)).natAbs + (signed 6 (bits (BitVec.ofNat 32 (32 * 2 ^ 24 + 31 * 2 ^ 12 + 5)).toNat 6 6)).natAbs + (signed 6 (bits (BitVec.ofNat 32 (32 * 2 ^ 24 + 31 * 2 ^ 12 + 5)).toNat 0 6)).natAbs :=
  by decide +kernel
theorem witness_LaneDrivers_11 :
    Operating (drv 99 0 1 8) ∧ drvExists 99 0 = true ∧ (drvState (drv 99 0 1 8) 99 0 = 1 ∨ drvState (drv 99 0 1 8) 99 0 = 2) ∧ drvRetry (drv 99 0 1 8) 99 0 = 8 :=
  by decide +kernel
theorem witness_TimeOfDay_1 :
    Operating upB :=
  by decide +kernel
theorem witness_TimeOfDay_2 :
    Operating (setF F.TOD_CTL_PPS_IN_EN 0 0 1 upB) ∧ flag (setF F.TOD_CTL_PPS_IN_EN 0 0 1 upB) F.TOD_CTL_PPS_IN_EN 0 0 = true :=
  by decide +kernel
theorem witness_TimeOfDay_3 :
    Operating upB :=
  by decide +kernel
theorem witness_TimeOfDay_4 :
    Operating upB ∧ flag upB F.TOD_CTL_PPS_IN_EN 0 0 = false :=
  by decide +kernel
theorem witness_Rings_1 :
    Operating rst ∧ 33 < 64 ∧ 32 ≤ 33 ∧ flag rst F.PKT_RING_CFG_RESET 33 0 = true :=
  by decide +kernel
theorem witness_Rings_2 :
    Operating upB ∧ bootStage upB ≠ 0 ∧ 0 < 64 ∧ flag upB F.PKT_RING_CFG_EN 0 0 = false ∧ bit (2157969413#32).toNat 31 = true ∧ bit (2157969413#32).toNat 30 = false ∧ 2157969413#32 &&& BitVec.ofNat 32 (regRow RegName.PKT_RING_CFG).keep = reg upB RegName.PKT_RING_CFG 0 0 &&& BitVec.ofNat 32 (regRow RegName.PKT_RING_CFG).keep :=
  by decide +kernel
theorem witness_Rings_3 :
    Operating upB ∧ bootStage upB ≠ 0 ∧ 0 < 16 ∧ flag upB F.CMD_RING_CFG_EN 0 0 = false ∧ bit (2147483661#32).toNat 31 = true ∧ bit (2147483661#32).toNat 30 = false ∧ 2147483661#32 &&& BitVec.ofNat 32 (regRow RegName.CMD_RING_CFG).keep = reg upB RegName.CMD_RING_CFG 0 0 &&& BitVec.ofNat 32 (regRow RegName.CMD_RING_CFG).keep :=
  by decide +kernel
theorem witness_Rings_4 :
    Operating tl ∧ 2 < 64 ∧ 1 < ringSize tl 2 ∧ 0 < (1 + ringSize tl 2 - getF tl F.RING_TAIL_TAIL 2 0 % ringSize tl 2) % ringSize tl 2 ∧ ([[7], [8], [9]][0]? = some [7]) ∧ 0 ≠ 2 :=
  by decide +kernel
theorem witness_Rings_5 :
    Operating v06_5 ∧ 0 < 16 :=
  by decide +kernel
theorem witness_Rings_6 :
    Operating co ∧ 2 < 16 ∧ (cmdRing co 2).coal.count ≠ 0 ∧ getF co F.CMD_RING_TIME_COAL_US 2 0 ≠ 0 ∧ (cmdRing co 2).coal.first + getF co F.CMD_RING_TIME_COAL_US 2 0 * 1000 ≤ (tick 5100 co).clk.mono ∧ 2 < 64 ∧ (pktRing co 2).coal.count ≠ 0 ∧ getF co F.PKT_RING_TIME_COAL_US 2 0 ≠ 0 ∧ (pktRing co 2).coal.first + getF co F.PKT_RING_TIME_COAL_US 2 0 * 1000 ≤ (tick 5100 co).clk.mono :=
  by decide +kernel
theorem witness_Rings_7 :
    Operating upB ∧ bootStage upB ≠ 0 ∧ 7 < 8 ∧ flag upB F.SMP_RING_CFG_EN 7 0 = false ∧ bit (2147483648#32).toNat 31 = true ∧ 2147483648#32 &&& BitVec.ofNat 32 (regRow RegName.SMP_RING_CFG).keep = reg upB RegName.SMP_RING_CFG 7 0 &&& BitVec.ofNat 32 (regRow RegName.SMP_RING_CFG).keep :=
  by decide +kernel
theorem witness_Rings_8 :
    Operating upB ∧ bootStage upB ≠ 0 ∧ 7 < 8 ∧ 4294967295 < 2 ^ 32 :=
  by decide +kernel
theorem witness_Rings_9 :
    halted upB = false ∧ upB.flt.tripped = false ∧ 15 < 16 ∧ 4095 < 2 ^ 12 ∧ (cmdRing upB 15).waiting = [] :=
  by decide +kernel
theorem witness_Rings_10 :
    halted upB = false ∧ upB.flt.tripped = false ∧ 0 < 16 ∧ 3 < 2 ^ 12 ∧ (flag upB F.CMD_RING_CFG_EN 0 0 = false ∨ [[1]] = []) :=
  by decide +kernel
theorem witness_Rings_11 :
    Operating co ∧ 3 < 16 ∧ (cmdRing co 3).coal.count = 0 :=
  by decide +kernel
theorem witness_Rings_12 :
    Operating upB ∧ 3 < 64 ∧ flag upB F.PKT_RING_CFG_RESET 3 0 = false :=
  by decide +kernel
theorem witness_Rings_13 :
    halted (ri upB) = false ∧ (ri upB).flt.tripped = false ∧ 0 < 16 ∧ 3 < 2 ^ 12 ∧ ([[1, 2, 3]] = [[1, 2, 3]]) ∧ flag (ri upB) F.CMD_RING_CFG_EN 0 0 = true ∧ getF (ri upB) F.SQ_HEAD_HEAD 0 0 ≠ 3 ∧ (List.filter (fun x => x.kind == 0) (ri upB).cmd.outstanding).length < share 0 :=
  by decide +kernel
theorem witness_ResetAndBoot_1 :
    full.boot.off = false :=
  by decide +kernel
theorem witness_ResetAndBoot_2 :
    halted egF = false ∧ egF.flt.tripped = false :=
  by decide +kernel
theorem witness_ResetAndBoot_3 :
    Operating (st 3) ∧ bootStage (st 3) = 3 ∧ getF (st 3) F.RST_STAT_LAST_RESET 0 0 ≠ 2 ∧ none.or (st 3).fw.flash0 = none ∧ none.or (st 3).fw.flash1 = none :=
  by decide +kernel
theorem witness_ResetAndBoot_4 :
    halted v06_7 = false ∧ 3 < 6 ∧ bootStage v06_7 = 0 ∧ flag v06_7 F.CLK_STAT_AON_CLK_OK 0 0 = true ∧ putBit (getF v06_7 F.RST_STAT_RAIL_OK 0 0) 3 true = 63 :=
  by decide +kernel
theorem witness_ResetAndBoot_5 :
    halted v06_10 = false ∧ 3 < 6 :=
  by decide +kernel
theorem witness_ResetAndBoot_6 :
    Operating (st 1) ∧ bootStage (st 1) = 1 :=
  by decide +kernel
theorem witness_ResetAndBoot_7 :
    Operating (st 5) ∧ bootStage (st 5) = 5 :=
  by decide +kernel
theorem witness_ResetAndBoot_8 :
    halted (setF F.CLK_STAT_AON_CLK_OK 0 0 1 up) = false :=
  by decide +kernel
theorem witness_ResetAndBoot_9 :
    Operating (st 2) ∧ bootStage (st 2) = 2 :=
  by decide +kernel
theorem witness_ResetAndBoot_10 :
    Operating (st 4) ∧ bootStage (st 4) = 4 :=
  by decide +kernel
theorem witness_ResetAndBoot_11 :
    halted v06_8 = false ∧ 3 < 6 ∧ (bootStage v06_8 ≠ 0 ∨ flag v06_8 F.CLK_STAT_AON_CLK_OK 0 0 = false ∨ putBit (getF v06_8 F.RST_STAT_RAIL_OK 0 0) 3 true ≠ 63) :=
  by decide +kernel
theorem witness_ResetAndBoot_12 :
    Operating (setF F.RST_STAT_RAIL_OK 0 0 63 (st 0)) ∧ bootStage (setF F.RST_STAT_RAIL_OK 0 0 63 (st 0)) = 0 ∧ flag (setF F.RST_STAT_RAIL_OK 0 0 63 (st 0)) F.CLK_STAT_AON_CLK_OK 0 0 = false ∧ getF (setF F.RST_STAT_RAIL_OK 0 0 63 (st 0)) F.RST_STAT_RAIL_OK 0 0 = 63 :=
  by decide +kernel
theorem witness_ResetAndBoot_13 :
    v06_6.boot.off = true :=
  by decide +kernel
theorem witness_ResetAndBoot_14 :
    Operating (st 6) ∧ bootStage (st 6) = 6 :=
  by decide +kernel
end Sys2Proof.Tests.T06
namespace Sys2Proof.Tests.T07
def pin : State := setF F.VARNISH_CFG_PIN_EN 0 0 1 upB
def frz : State := { pin with flt := { pin.flt with frozen := true, trigger := 3, trigEvent := 0x123, trigTod := 0xABCDEF012345 } }
def v07_1 : State := { up with boot := { off := true } }
def noPin : State := setF F.VARNISH_CFG_PIN_EN 0 0 0 upB
def b (n : RegName) : Nat := (regRow n).base
def v07_5 : State := (setF F.FLT_STAT_SAFE 0 0 1 { upB with host := { upB.host with bmc := { upB.host.bmc with addr := b .TOD_NOW } } })
def v07_6 : State := ({ upB with host := { upB.host with bmc := { upB.host.bmc with addr := b .FLT_STAT } } })
def pkt (target ver opcode : Nat) (rest : List Byte) : List Byte := leBytes 2 opcode ++ leBytes 1 1 ++ leBytes 1 ver ++ leBytes 4 99 ++ leBytes 2 target ++ leBytes 2 (rest.length / 4) ++ zeros 20 ++ rest
def oc (k s : Nat) : OutCmd := { serial := k, kind := 0, sub := s, tag := 9, opcode := 0x0105, idem := false, ackReq := true, prog := true, priority := 0, objs := [] }
def fullQ : State := { upB with cmd := { upB.cmd with outstanding := (List.range 256).map (fun i => { oc i 0 with kind := 1 }) } }
def ibS : State := setF F.IB_CFG_IB_EN 0 0 1 (setReg .IB_PORT_EN 0 0 0xFFFFFFFF { upB with fuse := { upB.fuse with keyGen := 3 } })
def ocI (k s : Nat) : OutCmd := { serial := k, kind := 2, sub := s, tag := 9, opcode := 0x0105, idem := false, ackReq := true, prog := true, priority := 0, objs := [] }
def due : State := portUp 8 { ibS with cmd := { ibS.cmd with outstanding := [oc 6 0, ocI 5 8, ocI 7 0], ibDue := [(8, [1, 2], 5), (0, [3], 7)] } }
def noUart : State := setF F.UART_CFG_EN 0 0 0 upB
def ua (n : Nat) : State := setF F.UART_CFG_EN 0 0 1 { upB with host := { upB.host with uart := zeros n } }
def ibf (ver hd key nonce : Nat) (p : List Byte) : Frame := ⟨zeros 12 ++ [0x88, 0xB6] ++ leBytes 1 ver ++ leBytes 1 hd ++ zeros 2 ++ leBytes 4 key ++ leBytes 8 nonce ++ p ++ zeros 32⟩
def pu : State := portUp 8 (on 1 upB)
def op : State := setPortRt 8 { rxOpen := some (3, 64) } pu
def pa : State := setF F.PORT_FLOW_FLOW_MODE 1 0 1 pu
def pr8 : State := setF F.PORT_STAT_PAUSED_TX 1 0 5 (setPortRt 8 { announced := [(8, 1000)] } pa)
def pf : State := setF F.PORT_FLOW_FLOW_MODE 1 0 2 (setF F.PORT_FLOW_PFC_RX_EN 1 0 0xFF pu)
def pq : State := setPortRt 8 { toSend := [⟨true, 5, [(1, 2)]⟩, ⟨false, 5, [(0, 2)]⟩] } pf
def fr (n ty : Nat) : Frame := ⟨zeros 12 ++ beBytes 2 ty ++ zeros n⟩
def pz (c e : Nat) : State := setF F.PORT_STAT_PAUSED_RX 1 0 0xFF (setPortRt 8 { pauseRx := [(c, e)] } pf)
def prC : State := setF F.PORT_STAT_PAUSED_TX 1 0 5 (setF F.PORT_FLOW_PFC_TX_EN 1 0 0xFF (setPortRt 8 { announced := [(0, 1000), (2, 1000)] } pf))
def pr : State := setF F.PORT_STAT_PAUSED_TX 1 0 1 (setPortRt 8 { announced := [(0, 1000)] } pa)
def lanes (m : Nat) (s : State) : State := (List.range 8).foldl (fun s l => setF ⟨drvCtl m, 8, 3⟩ (drvUnit m) l 2 s) s
def br : State := lanes 1 (setMacRt 1 { cfg := some { mcfg with mac := 1, anEn := 1 }, powered := true } (on 1 upB))
def brR (r : PortRt) : State := setPortRt 8 r br
def v07_13 : State := (portUp 8 (brR { anDone := true, ltDone := true, lockSince := some 5 }))
def v07_15 : State := (brR { anDone := true, ltDone := true, lockSince := some 5 })
def v07_19 : State := (setF F.MAC_MACRO_CFG_PORT_START 1 0 3 (brR { anDone := true }))
def v07_18 : State := (brR { anDone := true, ltDone := true })
def v07_10 : State := (brR { anDone := true, ltDone := true, lockSince := some 1000000 })
def v07_17 : State := (brR { anDone := true })
def lit07_1 : BasePage := { gbps := 0, width := (basePage br 8).width, cr := (basePage br 8).cr, kr := (basePage br 8).kr, pause := (basePage br 8).pause }
def v07_16 : State := (brR { anRetryAt := some 6 })

theorem witness_VarnishPinAndTap_1 :
    frz.boot.off = false ∧ 1 ≤ 25 ∧ 25 ≤ 25 :=
  by decide +kernel
theorem witness_VarnishPinAndTap_2 :
    v07_1.boot.off = true ∧ 1 ≤ 3 ∧ 3 ≤ 25 :=
  by decide +kernel
theorem witness_VarnishPinAndTap_3 :
    halted pin = false ∧ flag pin F.VARNISH_CFG_PIN_EN 0 0 = true :=
  by decide +kernel
theorem witness_VarnishPinAndTap_4 :
    halted noPin = false ∧ flag noPin F.VARNISH_CFG_PIN_EN 0 0 = false :=
  by decide +kernel
theorem witness_ManagementController_1 :
    halted v07_5 = false ∧ safeServed v07_5.host.bmc.addr = false ∧ inCounters v07_5.host.bmc.addr = false :=
  by decide +kernel
theorem witness_ManagementController_2 :
    halted (setF F.FLT_STAT_SAFE 0 0 1 upB) = false ∧ isSafe (setF F.FLT_STAT_SAFE 0 0 1 upB) = true ∧ (setF F.FLT_STAT_SAFE 0 0 1 upB).flt.tripped = false :=
  by decide +kernel
theorem witness_ManagementController_3 :
    halted upB = false ∧ isSafe upB = false ∧ upB.flt.tripped = false :=
  by decide +kernel
theorem witness_ManagementController_4 :
    halted upB = false ∧ upB.flt.tripped = false ∧ isSafe upB = false :=
  by decide +kernel
theorem witness_ManagementController_5 :
    halted v07_6 = false ∧ safeServed v07_6.host.bmc.addr = true ∧ (locate v07_6.host.bmc.addr = some (⟨RegName.FLT_STAT, 0, 0⟩ : RegKey)) :=
  by decide +kernel
theorem witness_SequencerTakesPackets_1 :
    earlyChecks upB 0 (pkt 4095 1 1 []) true = none ∧ (pTarget (pkt 4095 1 1 []) = 4095 ∨ pTarget (pkt 4095 1 1 []) = 0 ∨ pTarget (pkt 4095 1 1 []) = devId upB) ∧ (List.filter (fun x => x.kind == 0) upB.cmd.outstanding).length < share 0 ∧ firstReserved (pkt 4095 1 1 []) 32 (paramReserved (pOpcode (pkt 4095 1 1 [])) (pkt 4095 1 1 [])) = none :=
  by decide +kernel
theorem witness_SequencerTakesPackets_2 :
    earlyChecks fullQ 1 (pkt 4095 1 1 []) true = none ∧ (pTarget (pkt 4095 1 1 []) = 4095 ∨ pTarget (pkt 4095 1 1 []) = 0 ∨ pTarget (pkt 4095 1 1 []) = devId fullQ) ∧ share 1 ≤ (List.filter (fun x => x.kind == 1) fullQ.cmd.outstanding).length :=
  by decide +kernel
theorem witness_InbandAndConsole_1 :
    Operating due ∧ 8 < 768 ∧ (List.find? (fun d => d.fst == 8) due.cmd.ibDue = some (8, [1, 2], 5)) ∧ (ibReady (tick 5 due) 8 && portIsUp due 8 && macIdle (tick 5 due) 8) = true :=
  by decide +kernel
theorem witness_InbandAndConsole_2 :
    Operating noUart ∧ flag noUart F.UART_CFG_EN 0 0 = false :=
  by decide +kernel
theorem witness_InbandAndConsole_3 :
    Operating upB ∧ flag upB F.UART_CFG_EN 0 0 = true ∧ upB.host.uart.length < 64 :=
  by decide +kernel
theorem witness_InbandAndConsole_4 :
    Operating (ua 5) ∧ flag (ua 5) F.UART_CFG_EN 0 0 = true ∧ (true = true ∨ 64 ≤ (ua 5).host.uart.length) :=
  by decide +kernel
theorem witness_InbandAndConsole_5 :
    Operating due ∧ 0 < 768 ∧ (List.find? (fun d => d.fst == 0) due.cmd.ibDue = none ∨ (ibReady (tick 5 due) 0 && portIsUp due 0 && macIdle (tick 5 due) 0) = false) :=
  by decide +kernel
theorem witness_InbandAndConsole_6 :
    Operating ibS ∧ 4 < 768 ∧ ibHeaderLen (ibf 1 0 3 9 []).bytes = some 14 ∧ (leAt (List.drop 14 (ibf 1 0 3 9 []).bytes) 0 1 ≠ 1 ∨ leAt (List.drop 14 (ibf 1 0 3 9 []).bytes) 1 1 = 0) :=
  by decide +kernel
theorem witness_FramesAndPauses_1 :
    Operating op ∧ 8 < 768 ∧ ((portRt op 8).rxOpen = some (3, 64)) ∧ ((op.pal.copies.all fun c => !(c.pkt == 3 && decide (c.phase = CopyPhase.sending))) = true) :=
  by decide +kernel
theorem witness_FramesAndPauses_2 :
    betweenPipes pu 0 8 = false ∧ movingFrom pu 8 = none ∧ getF pu F.FIFO_STAT_LEVEL (ingressPipe pu 8) 0 + (zeros 60).length + 4 ≤ fifoLimit pu (ingressPipe pu 8) (admClass pu 8 0 (zeros 60)) ∧ getF pu F.FIFO_STAT_LEVEL (ingressPipe pu 8) 0 + (zeros 60).length + 4 < 2 ^ F.FIFO_STAT_LEVEL.w :=
  by decide +kernel
theorem witness_FramesAndPauses_3 :
    Operating pr8 ∧ 8 < 768 ∧ ((portRt pr8 8).toSend = [] ∨ portIsUp pr8 8 = false ∨ (pr8.pal.copies.any fun c => c.port == 8 && decide (c.phase = CopyPhase.sending)) = true) ∧ flowMode pr8 8 = 1 ∧ getF pr8 F.PORT_STAT_PAUSED_TX (8 / 8) (8 % 8) ≠ 0 ∧ announceDue (tick 50000000 pr8) 8 8 = true :=
  by decide +kernel
theorem witness_FramesAndPauses_4 :
    Operating pq ∧ 8 < 768 ∧ ((portRt pq 8).toSend = [{ pfc := true, made := 5, times := [(1, 2)] }, { pfc := false, made := 5, times := [(0, 2)] }]) ∧ portIsUp pq 8 = true ∧ ((pq.pal.copies.any fun c => c.port == 8 && decide (c.phase = CopyPhase.sending)) = false) ∧ flowMode pq 8 = 2 ∧ List.filter (fun c => bit (getF pq F.PORT_STAT_PAUSED_TX (8 / 8) (8 % 8)) c && bit (getF pq F.PORT_FLOW_PFC_TX_EN (8 / 8) (8 % 8)) c && announceDue (tick 5 pq) 8 c) (List.range 8) = [] :=
  by decide +kernel
theorem witness_FramesAndPauses_5 :
    Operating pu ∧ 8 < 768 ∧ startsPort pu 8 = true ∧ (portIsUp (countCodewords 8 7 2 (tick 5 pu)) 8 = true ∧ (portRt (countCodewords 8 7 2 (tick 5 pu)) 8).rxOpen = none) ∧ (64 ≤ (fr 46 2048).bytes.length + 4 ∧ (fr 46 2048).bytes.length + 4 ≤ maxFrameIn (countCodewords 8 7 2 (tick 5 pu)) 8) ∧ beAt (fr 46 2048).bytes 12 2 ≠ 34824 :=
  by decide +kernel
theorem witness_FramesAndPauses_6 :
    Operating pf ∧ 8 < 768 ∧ portIsUp pf 8 = true :=
  by decide +kernel
theorem witness_FramesAndPauses_7 :
    Operating (pz 7 5000) ∧ 8 < 768 ∧ 7 < 8 ∧ tget (portRt (pz 7 5000) 8).pauseRx 7 = some 5000 ∧ 5000 ≤ (tick 5 (pz 7 5000)).clk.mono * 1000 :=
  by decide +kernel
theorem witness_FramesAndPauses_8 :
    Operating prC ∧ 8 < 768 ∧ flowMode prC 8 = 2 ∧ List.filter (fun c => bit (getF prC F.PORT_STAT_PAUSED_TX (8 / 8) (8 % 8)) c && bit (getF prC F.PORT_FLOW_PFC_TX_EN (8 / 8) (8 % 8)) c && announceDue (tick 50000000 prC) 8 c) (List.range 8) ≠ [] :=
  by decide +kernel
theorem witness_FramesAndPauses_9 :
    Operating pu ∧ 8 < 768 ∧ (portIsUp (countCodewords 8 7 2 (tick 5 pu)) 8 = true ∧ (portRt (countCodewords 8 7 2 (tick 5 pu)) 8).rxOpen = none) ∧ (64 ≤ (fr 46 34824).bytes.length + 4 ∧ (fr 46 34824).bytes.length + 4 ≤ maxFrameIn (countCodewords 8 7 2 (tick 5 pu)) 8) ∧ beAt (fr 46 34824).bytes 12 2 = 34824 :=
  by decide +kernel
theorem witness_FramesAndPauses_10 :
    betweenPipes pu 0 8 = false ∧ movingFrom pu 8 = none ∧ fifoLimit pu (ingressPipe pu 8) (admClass pu 8 0 (zeros 90000)) < getF pu F.FIFO_STAT_LEVEL (ingressPipe pu 8) 0 + (zeros 90000).length + 4 :=
  by decide +kernel
theorem witness_FramesAndPauses_11 :
    Operating upB ∧ 8 < 768 ∧ portIsUp upB 8 = false :=
  by decide +kernel
theorem witness_FramesAndPauses_12 :
    Operating pu ∧ 8 < 768 ∧ (portRt pu 8).rxOpen = none :=
  by decide +kernel
theorem witness_FramesAndPauses_13 :
    Operating (pz 0 5001) ∧ 8 < 768 ∧ 0 < 8 ∧ tget (portRt (pz 0 5001) 8).pauseRx 0 = some 5001 ∧ (tick 5 (pz 0 5001)).clk.mono * 1000 < 5001 :=
  by decide +kernel
theorem witness_FramesAndPauses_14 :
    Operating upB ∧ 8 < 768 ∧ (¬(portIsUp (countCodewords 8 7 2 (tick 5 upB)) 8 = true ∧ (portRt (countCodewords 8 7 2 (tick 5 upB)) 8).rxOpen = none)) :=
  by decide +kernel
theorem witness_FramesAndPauses_15 :
    Operating upB ∧ 8 < 768 ∧ flowMode upB 8 ≠ 1 ∧ flowMode upB 8 ≠ 2 :=
  by decide +kernel
theorem witness_FramesAndPauses_16 :
    Operating pu ∧ 8 < 768 ∧ (portIsUp (countCodewords 8 7 2 (tick 5 pu)) 8 = true ∧ (portRt (countCodewords 8 7 2 (tick 5 pu)) 8).rxOpen = none) :=
  by decide +kernel
theorem witness_FramesAndPauses_17 :
    Operating pu ∧ 8 < 768 ∧ (portIsUp (countCodewords 8 7 2 (tick 5 pu)) 8 = true ∧ (portRt (countCodewords 8 7 2 (tick 5 pu)) 8).rxOpen = none) ∧ (fr 45 2048).bytes.length + 4 < 64 :=
  by decide +kernel
theorem witness_FramesAndPauses_18 :
    Operating pr ∧ 8 < 768 ∧ flowMode pr 8 = 1 ∧ (getF pr F.PORT_STAT_PAUSED_TX (8 / 8) (8 % 8) = 0 ∨ announceDue (tick 50000000 pr) 8 8 = false) :=
  by decide +kernel
theorem witness_FramesAndPauses_19 :
    Operating pu ∧ 8 < 768 ∧ (portIsUp (countCodewords 8 7 2 (tick 5 pu)) 8 = true ∧ (portRt (countCodewords 8 7 2 (tick 5 pu)) 8).rxOpen = none) ∧ 64 ≤ (fr 9500 2048).bytes.length + 4 ∧ maxFrameIn (countCodewords 8 7 2 (tick 5 pu)) 8 < (fr 9500 2048).bytes.length + 4 :=
  by decide +kernel
theorem witness_FramesAndPauses_20 :
    Operating pu ∧ 8 < 768 ∧ (portIsUp (countCodewords 8 7 2 (tick 5 pu)) 8 = true ∧ (portRt (countCodewords 8 7 2 (tick 5 pu)) 8).rxOpen = none) ∧ (64 ≤ (fr 46 2048).bytes.length + 4 ∧ (fr 46 2048).bytes.length + 4 ≤ maxFrameIn (countCodewords 8 7 2 (tick 5 pu)) 8) ∧ beAt (fr 46 2048).bytes 12 2 ≠ 34824 :=
  by decide +kernel
theorem witness_FramesAndPauses_21 :
    Operating pu ∧ 8 < 768 ∧ (portIsUp (countCodewords 8 7 2 (tick 5 pu)) 8 = true ∧ (portRt (countCodewords 8 7 2 (tick 5 pu)) 8).rxOpen = none) ∧ (¬(64 ≤ (fr 46 34824).bytes.length + 4 ∧ (fr 46 34824).bytes.length + 4 ≤ maxFrameIn (countCodewords 8 7 2 (tick 5 pu)) 8) ∨ beAt (fr 46 34824).bytes 12 2 = 34824) :=
  by decide +kernel
theorem witness_LinkBringUp_1 :
    Operating v07_13 ∧ 8 < 768 ∧ startsPort v07_13 8 = true ∧ portIsUp (dropReplies 8 (dropInMac 8 (tick 5 v07_13))) 8 = true :=
  by decide +kernel
theorem witness_LinkBringUp_2 :
    Operating v07_15 ∧ 8 < 768 ∧ startsPort v07_15 8 = true ∧ portIsUp (dropReplies 8 (dropInMac 8 (tick 5 v07_15))) 8 = false :=
  by decide +kernel
theorem witness_LinkBringUp_3 :
    Operating v07_19 ∧ 8 < 768 ∧ (¬(startsPort v07_19 8 = true ∧ anOn v07_19 8 = true ∧ lanesOn v07_19 8 = true ∧ (portRt v07_19 8).anDone = false)) ∧ inTraining v07_19 8 = true ∧ txLanes v07_19 8 = [0] ∧ [1073741823] = [1073741823] ∧ (pcsReady v07_19 8 = false ∨ (portRt v07_19 8).lockSince.isSome = true) :=
  by decide +kernel
theorem witness_LinkBringUp_4 :
    Operating v07_18 ∧ 8 < 768 ∧ inTraining v07_18 8 = false ∧ pcsReady v07_18 8 = true ∧ (portRt v07_18 8).lockSince = none :=
  by decide +kernel
theorem witness_LinkBringUp_5 :
    Operating v07_10 ∧ 8 < 768 ∧ (portRt v07_10 8).lockSince = some 1000000 ∧ pcsReady v07_10 8 = true ∧ portIsUp v07_10 8 = false ∧ 1000000 + 1000000 ≤ (tick 2000000 v07_10).clk.mono ∧ 9 < 768 ∧ 9 ≠ 8 :=
  by decide +kernel
theorem witness_LinkBringUp_6 :
    Operating v07_17 ∧ 8 < 768 ∧ inTraining v07_17 8 = true :=
  by decide +kernel
theorem witness_LinkBringUp_7 :
    Operating br ∧ 8 < 768 ∧ startsPort br 8 = true ∧ anOn br 8 = true ∧ lanesOn br 8 = true ∧ (portRt br 8).anDone = false ∧ (∀ (r : Nat), (portRt br 8).anRetryAt = some r → r ≤ (tick 5 br).clk.mono) :=
  by decide +kernel
theorem witness_LinkBringUp_8 :
    Operating br ∧ 8 < 768 ∧ (startsPort br 8 = true ∧ anOn br 8 = true ∧ lanesOn br 8 = true ∧ (portRt br 8).anDone = false) ∧ sharesType (basePage (tick 6 br) 8) (basePage br 8) = true :=
  by decide +kernel
theorem witness_LinkBringUp_9 :
    Operating br ∧ 8 < 768 ∧ (startsPort br 8 = true ∧ anOn br 8 = true ∧ lanesOn br 8 = true ∧ (portRt br 8).anDone = false) ∧ sharesType (basePage (tick 6 br) 8) lit07_1 = false :=
  by decide +kernel
theorem witness_LinkBringUp_10 :
    Operating br ∧ 8 < 768 ∧ inTraining br 8 = false :=
  by decide +kernel
theorem witness_LinkBringUp_11 :
    Operating v07_15 ∧ 9 < 768 ∧ startsPort v07_15 9 = false :=
  by decide +kernel
theorem witness_LinkBringUp_12 :
    Operating v07_16 ∧ 8 < 768 ∧ startsPort v07_16 8 = true ∧ anOn v07_16 8 = true ∧ lanesOn v07_16 8 = true ∧ (portRt v07_16 8).anDone = false ∧ (portRt v07_16 8).anRetryAt = some 6 ∧ (tick 5 v07_16).clk.mono < 6 :=
  by decide +kernel
theorem witness_LinkBringUp_13 :
    Operating v07_10 ∧ 8 < 768 ∧ ((portRt v07_10 8).lockSince = none ∨ pcsReady v07_10 8 = false ∨ portIsUp v07_10 8 = true ∨ ∀ (l : Nat), (portRt v07_10 8).lockSince = some l → (tick 1999999 v07_10).clk.mono < l + 1000000) :=
  by decide +kernel
end Sys2Proof.Tests.T07
namespace Sys2Proof.Tests.T08
def ev : MicroEnv := ⟨0, false, false⟩
def es (x : Engine) (w : Nat) : State := setEngine 5 { x with store := [(x.upc, w)] } (setF F.ENG_STAT_STATE 5 0 1 upB)
def x0 : Engine := { upc := 77, sp := 3, stack := [1, 2, 3, 4, 5, 6, 7, 8], flags := 0x1000 + 0x5A, x := [(1, 0xFFFFFFFFFFFFFFF0), (2, 0x13), (3, 70), (4, 0x100)], scratch := [(0x100, 7), (0x107, 9)], work := [0xDEAD, 0xBEEF], frame := { x28 := 1, x29 := 2, x30 := 3, x31 := 4, vector := 5, sp := 6, next := 99, ended := 98, flags := 0x0FF } }
def mw (seq cond target al dst a b isel mem off imm : Nat) : Nat := seq * 2 ^ 124 + cond * 2 ^ 120 + target * 2 ^ 107 + al * 2 ^ 100 + dst * 2 ^ 95 + a * 2 ^ 90 + b * 2 ^ 85 + isel * 2 ^ 84 + mem * 2 ^ 80 + off * 2 ^ 64 + imm
def mw1 : Nat := mw 6 3 123 1 4 1 2 0 0 0 5
def es2 : State := es x0 mw1
def xi : Engine := { x0 with flags := 0x5A + 2 ^ 11 + 2 ^ 9 }
def mw3 : Nat := mw 1 3 123 1 4 1 2 0 0 0 5
def es4 : State := es xi mw3
def xn : Engine := { x0 with flags := 0x5A }
def mw5 : Nat := mw 6 3 123 0 4 1 2 0 0 0 0
def es6 : State := es xn mw5
def mw7 : Nat := mw 7 3 123 11 31 1 2 0 4 32 5
def es8 : State := es xn mw7
def mw9 : Nat := mw 1 3 123 0 4 1 2 0 1 0 0
def es10 : State := es x0 mw9
def mw11 : Nat := mw 1 3 123 0 4 1 2 0 1 0 0
def es12 : State := es xn mw11
def mw13 : Nat := mw 8 3 123 5 0 1 2 0 6 9 5
def es14 : State := es xn mw13
def mw15 : Nat := mw 0 3 123 1 4 1 2 0 0 0 0
def es16 : State := es x0 mw15
def mw17 : Nat := mw 0 3 123 14 4 1 2 0 0 0 0
def es18 : State := es xi mw17
def mw19 : Nat := mw 6 3 123 4 3 2 2 0 0 0 0
def es20 : State := es x0 mw19
def mw21 : Nat := mw 6 3 123 3 3 2 2 0 0 0 0
def es22 : State := es x0 mw21
def mw23 : Nat := mw 6 3 123 5 3 2 2 0 0 0 0
def es24 : State := es x0 mw23
def mw25 : Nat := mw 6 3 123 0 3 2 2 0 0 0 0
def es26 : State := es x0 mw25
def mw27 : Nat := mw 6 3 123 9 3 2 2 0 0 0 0
def es28 : State := es x0 mw27
def mw29 : Nat := mw 6 3 123 10 3 2 2 0 0 0 0
def es30 : State := es x0 mw29
def mw31 : Nat := mw 6 3 123 11 3 2 2 0 0 0 0
def es32 : State := es x0 mw31
def mw33 : Nat := mw 6 3 123 12 3 2 2 0 0 0 0
def es34 : State := es x0 mw33
def mw35 : Nat := mw 6 3 123 6 3 2 2 0 0 0 0
def es36 : State := es x0 mw35
def mw37 : Nat := mw 6 3 123 7 3 2 2 0 0 0 0
def es38 : State := es x0 mw37
def mw39 : Nat := mw 6 3 123 13 3 2 2 0 0 0 0
def es40 : State := es x0 mw39
def mw41 : Nat := mw 6 3 123 15 3 2 2 0 0 0 0
def es42 : State := es x0 mw41
def mw43 : Nat := mw 6 3 123 8 3 2 2 0 0 0 0
def es44 : State := es x0 mw43
def mw45 : Nat := mw 0 3 123 0 4 4 2 0 7 0 0
def es46 : State := es x0 mw45
def mw47 : Nat := mw 0 3 123 0 4 4 2 0 1 0 0
def es48 : State := es x0 mw47
def mw49 : Nat := mw 0 3 123 0 4 4 2 0 5 0 0
def es50 : State := es x0 mw49
def mw51 : Nat := mw 0 3 123 0 4 4 2 0 2 0 0
def es52 : State := es x0 mw51
def mw53 : Nat := mw 0 3 123 0 4 4 2 0 4 0 0
def es54 : State := es x0 mw53
def mw55 : Nat := mw 0 3 123 0 4 4 2 0 6 0 0
def es56 : State := es x0 mw55
def mw57 : Nat := mw 0 3 123 0 4 1 2 0 6 65535 0
def es58 : State := es xn mw57
def mw59 : Nat := mw 0 3 123 0 4 1 2 0 3 65535 0
def es60 : State := es xn mw59
def mw61 : Nat := mw 0 3 123 0 4 1 2 0 1 65535 0
def es62 : State := es xn mw61
def mw63 : Nat := mw 0 3 123 0 4 4 2 0 3 0 0
def es64 : State := es x0 mw63

theorem witness_MicroSequencing_1 :
    (((6, Instr.uUret 5 5 ev) ∈ [(0, Instr.uNext 5 5 ev), (1, Instr.uBr 5 5 ev), (2, Instr.uBrt 5 5 ev), (3, Instr.uBrf 5 5 ev), (4, Instr.uCall 5 5 ev), (5, Instr.uRet 5 5 ev), (6, Instr.uUret 5 5 ev), (7, Instr.uWait 5 5 ev), (8, Instr.uHalt 5 5 ev)])) ∧
    (Operating es2 ∧ 5 < 64 ∧ (engState es2 5 = 1 ∨ engState es2 5 = 3) ∧ (engine es2 5).waiting = false ∧ fetchWord es2 5 = mw 6 3 123 1 4 1 2 0 0 0 5 ∧ (mwSeq mw1 = (6, Instr.uUret 5 5 ev).fst) ∧ ev.cs = 0 ∧ microFault (engine es2 5) mw1 ev = none) ∧
    (bit (engine es2 5).flags 11 = false ∧ bit (engine es2 5).frame.flags 11 = false ∧ mwSeq mw1 ≠ 7 ∧ mwSeq mw1 = 6 ∧ (0 < 8 ∨ 0 = 11 ∨ 0 = 12) ∧ mwMem mw1 ≠ 6 ∧ 0 ≠ 5 ∧ mwMem mw1 ≠ 4) :=
  by refine ⟨by simp, ?_, ?_⟩ <;> decide +kernel
theorem witness_MicroSequencing_2 :
    (((1, Instr.uBr 5 5 ev) ∈ [(0, Instr.uNext 5 5 ev), (1, Instr.uBr 5 5 ev), (2, Instr.uBrt 5 5 ev), (3, Instr.uBrf 5 5 ev), (4, Instr.uCall 5 5 ev), (5, Instr.uRet 5 5 ev), (6, Instr.uUret 5 5 ev), (7, Instr.uWait 5 5 ev), (8, Instr.uHalt 5 5 ev)])) ∧
    (Operating es4 ∧ 5 < 64 ∧ (engState es4 5 = 1 ∨ engState es4 5 = 3) ∧ (engine es4 5).waiting = false ∧ fetchWord es4 5 = mw 1 3 123 1 4 1 2 0 0 0 5 ∧ (mwSeq mw3 = (1, Instr.uBr 5 5 ev).fst) ∧ ((1, Instr.uBr 5 5 ev).fst ≤ 5) ∧ ev.cs = 0) ∧
    (microFault (engine es4 5) mw3 ev = none ∧ mwMem mw3 ≠ 6 ∧ bit (engine es4 5).flags 11 = true ∧ bit (engine es4 5).flags 12 = false ∧ pendingIrq (engine es4 5) = some 6) :=
  by refine ⟨by simp, ?_, ?_⟩ <;> decide +kernel
theorem witness_MicroSequencing_3 :
    (((6, Instr.uUret 5 5 (⟨2, false, false⟩ : MicroEnv)) ∈ [(0, Instr.uNext 5 5 (⟨2, false, false⟩ : MicroEnv)), (1, Instr.uBr 5 5 (⟨2, false, false⟩ : MicroEnv)), (2, Instr.uBrt 5 5 (⟨2, false, false⟩ : MicroEnv)), (3, Instr.uBrf 5 5 (⟨2, false, false⟩ : MicroEnv)), (4, Instr.uCall 5 5 (⟨2, false, false⟩ : MicroEnv)), (5, Instr.uRet 5 5 (⟨2, false, false⟩ : MicroEnv)), (6, Instr.uUret 5 5 (⟨2, false, false⟩ : MicroEnv)), (7, Instr.uWait 5 5 (⟨2, false, false⟩ : MicroEnv)), (8, Instr.uHalt 5 5 (⟨2, false, false⟩ : MicroEnv))])) ∧
    (Operating es6 ∧ 5 < 64 ∧ (engState es6 5 = 1 ∨ engState es6 5 = 3) ∧ (engine es6 5).waiting = false ∧ fetchWord es6 5 = mw 6 3 123 0 4 1 2 0 0 0 0 ∧ (mwSeq mw5 = (6, Instr.uUret 5 5 (⟨2, false, false⟩ : MicroEnv)).fst) ∧ ((⟨2, false, false⟩ : MicroEnv).cs = 2) ∧ (mwMem mw5 = 0 ∨ mwMem mw5 = 7) ∧ (mwSeq mw5 = 0 ∧ (engine es6 5).upc = 8191 ∨ mwSeq mw5 = 4 ∧ (engine es6 5).sp = 8 ∨ mwSeq mw5 = 5 ∧ (engine es6 5).sp = 0 ∨ mwSeq mw5 = 6 ∧ bit (engine es6 5).flags 12 = false)) :=
  ⟨by simp, by decide +kernel⟩
theorem witness_MicroSequencing_4 :
    (((7, Instr.uWait 5 5 ev) ∈ [(0, Instr.uNext 5 5 ev), (1, Instr.uBr 5 5 ev), (2, Instr.uBrt 5 5 ev), (3, Instr.uBrf 5 5 ev), (4, Instr.uCall 5 5 ev), (5, Instr.uRet 5 5 ev), (6, Instr.uUret 5 5 ev), (7, Instr.uWait 5 5 ev), (8, Instr.uHalt 5 5 ev)])) ∧
    (Operating es8 ∧ 5 < 64 ∧ (engState es8 5 = 1 ∨ engState es8 5 = 3) ∧ (engine es8 5).waiting = false ∧ fetchWord es8 5 = mw 7 3 123 11 31 1 2 0 4 32 5 ∧ (mwSeq mw7 = (7, Instr.uWait 5 5 ev).fst) ∧ ev.cs = 0 ∧ microFault (engine es8 5) mw7 ev = none) ∧
    (bit (engine es8 5).flags 11 = false ∧ bit (engine es8 5).frame.flags 11 = false ∧ mwSeq mw7 = 7 ∧ mwMem mw7 ≠ 6) :=
  by refine ⟨by simp, ?_, ?_⟩ <;> decide +kernel
theorem witness_MicroSequencing_5 :
    (((1, Instr.uBr 5 5 ev) ∈ [(0, Instr.uNext 5 5 ev), (1, Instr.uBr 5 5 ev), (2, Instr.uBrt 5 5 ev), (3, Instr.uBrf 5 5 ev), (4, Instr.uCall 5 5 ev), (5, Instr.uRet 5 5 ev), (6, Instr.uUret 5 5 ev), (7, Instr.uWait 5 5 ev), (8, Instr.uHalt 5 5 ev)])) ∧
    (Operating es10 ∧ 5 < 64 ∧ (engState es10 5 = 1 ∨ engState es10 5 = 3) ∧ (engine es10 5).waiting = false ∧ fetchWord es10 5 = mw 1 3 123 0 4 1 2 0 1 0 0 ∧ (mwSeq mw9 = (1, Instr.uBr 5 5 ev).fst) ∧ ev.cs = 0 ∧ microFault (engine es10 5) mw9 ev = some 2 ∧ bit (engine es10 5).flags 12 = true) :=
  ⟨by simp, by decide +kernel⟩
theorem witness_MicroSequencing_6 :
    (((1, Instr.uBr 5 5 ev) ∈ [(0, Instr.uNext 5 5 ev), (1, Instr.uBr 5 5 ev), (2, Instr.uBrt 5 5 ev), (3, Instr.uBrf 5 5 ev), (4, Instr.uCall 5 5 ev), (5, Instr.uRet 5 5 ev), (6, Instr.uUret 5 5 ev), (7, Instr.uWait 5 5 ev), (8, Instr.uHalt 5 5 ev)])) ∧
    (Operating es12 ∧ 5 < 64 ∧ (engState es12 5 = 1 ∨ engState es12 5 = 3) ∧ (engine es12 5).waiting = false ∧ fetchWord es12 5 = mw 1 3 123 0 4 1 2 0 1 0 0 ∧ (mwSeq mw11 = (1, Instr.uBr 5 5 ev).fst) ∧ ev.cs = 0 ∧ microFault (engine es12 5) mw11 ev = some 2 ∧ bit (engine es12 5).flags 12 = false) :=
  ⟨by simp, by decide +kernel⟩
theorem witness_MicroSequencing_7 :
    (((8, Instr.uHalt 5 5 ev) ∈ [(0, Instr.uNext 5 5 ev), (1, Instr.uBr 5 5 ev), (2, Instr.uBrt 5 5 ev), (3, Instr.uBrf 5 5 ev), (4, Instr.uCall 5 5 ev), (5, Instr.uRet 5 5 ev), (6, Instr.uUret 5 5 ev), (7, Instr.uWait 5 5 ev), (8, Instr.uHalt 5 5 ev)])) ∧
    (Operating es14 ∧ 5 < 64 ∧ (engState es14 5 = 1 ∨ engState es14 5 = 3) ∧ (engine es14 5).waiting = false ∧ fetchWord es14 5 = mw 8 3 123 5 0 1 2 0 6 9 5 ∧ (mwSeq mw13 = (8, Instr.uHalt 5 5 ev).fst) ∧ ev.cs = 0 ∧ microFault (engine es14 5) mw13 ev = none) ∧
    (bit (engine es14 5).flags 11 = false ∧ bit (engine es14 5).frame.flags 11 = false ∧ mwSeq mw13 = 8) :=
  by refine ⟨by simp, ?_, ?_⟩ <;> decide +kernel
theorem witness_MicroAlu_1 :
    (((1, Instr.uAdd 5 5 ev) ∈ [(0, Instr.uPassA 5 5 ev), (1, Instr.uAdd 5 5 ev), (2, Instr.uSubtract 5 5 ev), (3, Instr.uAnd 5 5 ev), (4, Instr.uOr 5 5 ev), (5, Instr.uXor 5 5 ev), (6, Instr.uShiftLeft 5 5 ev), (7, Instr.uShiftRight 5 5 ev), (8, Instr.uArithmeticShiftRight 5 5 ev), (9, Instr.uMinimum 5 5 ev), (10, Instr.uMaximum 5 5 ev), (11, Instr.uMultiply 5 5 ev), (12, Instr.uCrc32cStep 5 5 ev), (13, Instr.uPopulationCount 5 5 ev), (14, Instr.uCompare 5 5 ev), (15, Instr.uDeposit 5 5 ev)])) ∧
    (Operating es16 ∧ 5 < 64 ∧ (engState es16 5 = 1 ∨ engState es16 5 = 3) ∧ (engine es16 5).waiting = false ∧ fetchWord es16 5 = mw 0 3 123 1 4 1 2 0 0 0 0 ∧ (mwAlu mw15 = (1, Instr.uAdd 5 5 ev).fst) ∧ ev.cs = 0 ∧ microFault (engine es16 5) mw15 ev = none) ∧
    (((1, Instr.uAdd 5 5 ev).fst = 1) ∧ ((1, Instr.uAdd 5 5 ev).fst ≠ 14) ∧ mwMem mw15 ≠ 1 ∧ mwMem mw15 ≠ 3 ∧ mwMem mw15 ≠ 5 ∧ (mwSeq mw15 = 6 → mwDst mw15 < 28) ∧ 0 ≠ mwDst mw15 ∧ (mwSeq mw15 = 6 → 0 < 28)) ∧
    (mwSeq mw15 ≠ 6 ∧ srcA (engine es16 5) mw15 < 2 ^ 64 ∧ srcB (engine es16 5) mw15 < 2 ^ 64 ∧ bit (engine es16 5).flags 11 = false ∧ mwMem mw15 ≠ 6 ∧ 8 ≤ 8) :=
  by refine ⟨by simp, ?_, ?_, ?_⟩ <;> decide +kernel
theorem witness_MicroAlu_2 :
    (((14, Instr.uCompare 5 5 ev) ∈ [(0, Instr.uPassA 5 5 ev), (1, Instr.uAdd 5 5 ev), (2, Instr.uSubtract 5 5 ev), (3, Instr.uAnd 5 5 ev), (4, Instr.uOr 5 5 ev), (5, Instr.uXor 5 5 ev), (6, Instr.uShiftLeft 5 5 ev), (7, Instr.uShiftRight 5 5 ev), (8, Instr.uArithmeticShiftRight 5 5 ev), (9, Instr.uMinimum 5 5 ev), (10, Instr.uMaximum 5 5 ev), (11, Instr.uMultiply 5 5 ev), (12, Instr.uCrc32cStep 5 5 ev), (13, Instr.uPopulationCount 5 5 ev), (14, Instr.uCompare 5 5 ev), (15, Instr.uDeposit 5 5 ev)])) ∧
    (Operating es18 ∧ 5 < 64 ∧ (engState es18 5 = 1 ∨ engState es18 5 = 3) ∧ (engine es18 5).waiting = false ∧ fetchWord es18 5 = mw 0 3 123 14 4 1 2 0 0 0 0 ∧ (mwAlu mw17 = (14, Instr.uCompare 5 5 ev).fst) ∧ ev.cs = 0 ∧ microFault (engine es18 5) mw17 ev = none) ∧
    (((14, Instr.uCompare 5 5 ev).fst = 2 ∨ (14, Instr.uCompare 5 5 ev).fst = 14) ∧ mwSeq mw17 ≠ 6 ∧ srcA (engine es18 5) mw17 < 2 ^ 64 ∧ srcB (engine es18 5) mw17 < 2 ^ 64) :=
  by refine ⟨by simp, ?_, ?_⟩ <;> decide +kernel
theorem witness_MicroAlu_3 :
    (((4, Instr.uOr 5 5 ev) ∈ [(0, Instr.uPassA 5 5 ev), (1, Instr.uAdd 5 5 ev), (2, Instr.uSubtract 5 5 ev), (3, Instr.uAnd 5 5 ev), (4, Instr.uOr 5 5 ev), (5, Instr.uXor 5 5 ev), (6, Instr.uShiftLeft 5 5 ev), (7, Instr.uShiftRight 5 5 ev), (8, Instr.uArithmeticShiftRight 5 5 ev), (9, Instr.uMinimum 5 5 ev), (10, Instr.uMaximum 5 5 ev), (11, Instr.uMultiply 5 5 ev), (12, Instr.uCrc32cStep 5 5 ev), (13, Instr.uPopulationCount 5 5 ev), (14, Instr.uCompare 5 5 ev), (15, Instr.uDeposit 5 5 ev)])) ∧
    (Operating es20 ∧ 5 < 64 ∧ (engState es20 5 = 1 ∨ engState es20 5 = 3) ∧ (engine es20 5).waiting = false ∧ fetchWord es20 5 = mw 6 3 123 4 3 2 2 0 0 0 0 ∧ (mwAlu mw19 = (4, Instr.uOr 5 5 ev).fst) ∧ ev.cs = 0 ∧ microFault (engine es20 5) mw19 ev = none ∧ ((4, Instr.uOr 5 5 ev).fst = 4)) :=
  ⟨by simp, by decide +kernel⟩
theorem witness_MicroAlu_4 :
    (((3, Instr.uAnd 5 5 ev) ∈ [(0, Instr.uPassA 5 5 ev), (1, Instr.uAdd 5 5 ev), (2, Instr.uSubtract 5 5 ev), (3, Instr.uAnd 5 5 ev), (4, Instr.uOr 5 5 ev), (5, Instr.uXor 5 5 ev), (6, Instr.uShiftLeft 5 5 ev), (7, Instr.uShiftRight 5 5 ev), (8, Instr.uArithmeticShiftRight 5 5 ev), (9, Instr.uMinimum 5 5 ev), (10, Instr.uMaximum 5 5 ev), (11, Instr.uMultiply 5 5 ev), (12, Instr.uCrc32cStep 5 5 ev), (13, Instr.uPopulationCount 5 5 ev), (14, Instr.uCompare 5 5 ev), (15, Instr.uDeposit 5 5 ev)])) ∧
    (Operating es22 ∧ 5 < 64 ∧ (engState es22 5 = 1 ∨ engState es22 5 = 3) ∧ (engine es22 5).waiting = false ∧ fetchWord es22 5 = mw 6 3 123 3 3 2 2 0 0 0 0 ∧ (mwAlu mw21 = (3, Instr.uAnd 5 5 ev).fst) ∧ ev.cs = 0 ∧ microFault (engine es22 5) mw21 ev = none ∧ ((3, Instr.uAnd 5 5 ev).fst = 3)) :=
  ⟨by simp, by decide +kernel⟩
theorem witness_MicroAlu_5 :
    (((5, Instr.uXor 5 5 ev) ∈ [(0, Instr.uPassA 5 5 ev), (1, Instr.uAdd 5 5 ev), (2, Instr.uSubtract 5 5 ev), (3, Instr.uAnd 5 5 ev), (4, Instr.uOr 5 5 ev), (5, Instr.uXor 5 5 ev), (6, Instr.uShiftLeft 5 5 ev), (7, Instr.uShiftRight 5 5 ev), (8, Instr.uArithmeticShiftRight 5 5 ev), (9, Instr.uMinimum 5 5 ev), (10, Instr.uMaximum 5 5 ev), (11, Instr.uMultiply 5 5 ev), (12, Instr.uCrc32cStep 5 5 ev), (13, Instr.uPopulationCount 5 5 ev), (14, Instr.uCompare 5 5 ev), (15, Instr.uDeposit 5 5 ev)])) ∧
    (Operating es24 ∧ 5 < 64 ∧ (engState es24 5 = 1 ∨ engState es24 5 = 3) ∧ (engine es24 5).waiting = false ∧ fetchWord es24 5 = mw 6 3 123 5 3 2 2 0 0 0 0 ∧ (mwAlu mw23 = (5, Instr.uXor 5 5 ev).fst) ∧ ev.cs = 0 ∧ microFault (engine es24 5) mw23 ev = none ∧ ((5, Instr.uXor 5 5 ev).fst = 5)) :=
  ⟨by simp, by decide +kernel⟩
theorem witness_MicroAlu_6 :
    (((0, Instr.uPassA 5 5 ev) ∈ [(0, Instr.uPassA 5 5 ev), (1, Instr.uAdd 5 5 ev), (2, Instr.uSubtract 5 5 ev), (3, Instr.uAnd 5 5 ev), (4, Instr.uOr 5 5 ev), (5, Instr.uXor 5 5 ev), (6, Instr.uShiftLeft 5 5 ev), (7, Instr.uShiftRight 5 5 ev), (8, Instr.uArithmeticShiftRight 5 5 ev), (9, Instr.uMinimum 5 5 ev), (10, Instr.uMaximum 5 5 ev), (11, Instr.uMultiply 5 5 ev), (12, Instr.uCrc32cStep 5 5 ev), (13, Instr.uPopulationCount 5 5 ev), (14, Instr.uCompare 5 5 ev), (15, Instr.uDeposit 5 5 ev)])) ∧
    (Operating es26 ∧ 5 < 64 ∧ (engState es26 5 = 1 ∨ engState es26 5 = 3) ∧ (engine es26 5).waiting = false ∧ fetchWord es26 5 = mw 6 3 123 0 3 2 2 0 0 0 0 ∧ (mwAlu mw25 = (0, Instr.uPassA 5 5 ev).fst) ∧ ev.cs = 0 ∧ microFault (engine es26 5) mw25 ev = none ∧ ((0, Instr.uPassA 5 5 ev).fst = 0)) :=
  ⟨by simp, by decide +kernel⟩
theorem witness_MicroAlu_7 :
    (((9, Instr.uMinimum 5 5 ev) ∈ [(0, Instr.uPassA 5 5 ev), (1, Instr.uAdd 5 5 ev), (2, Instr.uSubtract 5 5 ev), (3, Instr.uAnd 5 5 ev), (4, Instr.uOr 5 5 ev), (5, Instr.uXor 5 5 ev), (6, Instr.uShiftLeft 5 5 ev), (7, Instr.uShiftRight 5 5 ev), (8, Instr.uArithmeticShiftRight 5 5 ev), (9, Instr.uMinimum 5 5 ev), (10, Instr.uMaximum 5 5 ev), (11, Instr.uMultiply 5 5 ev), (12, Instr.uCrc32cStep 5 5 ev), (13, Instr.uPopulationCount 5 5 ev), (14, Instr.uCompare 5 5 ev), (15, Instr.uDeposit 5 5 ev)])) ∧
    (Operating es28 ∧ 5 < 64 ∧ (engState es28 5 = 1 ∨ engState es28 5 = 3) ∧ (engine es28 5).waiting = false ∧ fetchWord es28 5 = mw 6 3 123 9 3 2 2 0 0 0 0 ∧ (mwAlu mw27 = (9, Instr.uMinimum 5 5 ev).fst) ∧ ev.cs = 0 ∧ microFault (engine es28 5) mw27 ev = none ∧ ((9, Instr.uMinimum 5 5 ev).fst = 9)) :=
  ⟨by simp, by decide +kernel⟩
theorem witness_MicroAlu_8 :
    (((10, Instr.uMaximum 5 5 ev) ∈ [(0, Instr.uPassA 5 5 ev), (1, Instr.uAdd 5 5 ev), (2, Instr.uSubtract 5 5 ev), (3, Instr.uAnd 5 5 ev), (4, Instr.uOr 5 5 ev), (5, Instr.uXor 5 5 ev), (6, Instr.uShiftLeft 5 5 ev), (7, Instr.uShiftRight 5 5 ev), (8, Instr.uArithmeticShiftRight 5 5 ev), (9, Instr.uMinimum 5 5 ev), (10, Instr.uMaximum 5 5 ev), (11, Instr.uMultiply 5 5 ev), (12, Instr.uCrc32cStep 5 5 ev), (13, Instr.uPopulationCount 5 5 ev), (14, Instr.uCompare 5 5 ev), (15, Instr.uDeposit 5 5 ev)])) ∧
    (Operating es30 ∧ 5 < 64 ∧ (engState es30 5 = 1 ∨ engState es30 5 = 3) ∧ (engine es30 5).waiting = false ∧ fetchWord es30 5 = mw 6 3 123 10 3 2 2 0 0 0 0 ∧ (mwAlu mw29 = (10, Instr.uMaximum 5 5 ev).fst) ∧ ev.cs = 0 ∧ microFault (engine es30 5) mw29 ev = none ∧ ((10, Instr.uMaximum 5 5 ev).fst = 10)) :=
  ⟨by simp, by decide +kernel⟩
theorem witness_MicroAlu_9 :
    (((11, Instr.uMultiply 5 5 ev) ∈ [(0, Instr.uPassA 5 5 ev), (1, Instr.uAdd 5 5 ev), (2, Instr.uSubtract 5 5 ev), (3, Instr.uAnd 5 5 ev), (4, Instr.uOr 5 5 ev), (5, Instr.uXor 5 5 ev), (6, Instr.uShiftLeft 5 5 ev), (7, Instr.uShiftRight 5 5 ev), (8, Instr.uArithmeticShiftRight 5 5 ev), (9, Instr.uMinimum 5 5 ev), (10, Instr.uMaximum 5 5 ev), (11, Instr.uMultiply 5 5 ev), (12, Instr.uCrc32cStep 5 5 ev), (13, Instr.uPopulationCount 5 5 ev), (14, Instr.uCompare 5 5 ev), (15, Instr.uDeposit 5 5 ev)])) ∧
    (Operating es32 ∧ 5 < 64 ∧ (engState es32 5 = 1 ∨ engState es32 5 = 3) ∧ (engine es32 5).waiting = false ∧ fetchWord es32 5 = mw 6 3 123 11 3 2 2 0 0 0 0 ∧ (mwAlu mw31 = (11, Instr.uMultiply 5 5 ev).fst) ∧ ev.cs = 0 ∧ microFault (engine es32 5) mw31 ev = none ∧ ((11, Instr.uMultiply 5 5 ev).fst = 11)) :=
  ⟨by simp, by decide +kernel⟩
theorem witness_MicroAlu_10 :
    (((12, Instr.uCrc32cStep 5 5 ev) ∈ [(0, Instr.uPassA 5 5 ev), (1, Instr.uAdd 5 5 ev), (2, Instr.uSubtract 5 5 ev), (3, Instr.uAnd 5 5 ev), (4, Instr.uOr 5 5 ev), (5, Instr.uXor 5 5 ev), (6, Instr.uShiftLeft 5 5 ev), (7, Instr.uShiftRight 5 5 ev), (8, Instr.uArithmeticShiftRight 5 5 ev), (9, Instr.uMinimum 5 5 ev), (10, Instr.uMaximum 5 5 ev), (11, Instr.uMultiply 5 5 ev), (12, Instr.uCrc32cStep 5 5 ev), (13, Instr.uPopulationCount 5 5 ev), (14, Instr.uCompare 5 5 ev), (15, Instr.uDeposit 5 5 ev)])) ∧
    (Operating es34 ∧ 5 < 64 ∧ (engState es34 5 = 1 ∨ engState es34 5 = 3) ∧ (engine es34 5).waiting = false ∧ fetchWord es34 5 = mw 6 3 123 12 3 2 2 0 0 0 0 ∧ (mwAlu mw33 = (12, Instr.uCrc32cStep 5 5 ev).fst) ∧ ev.cs = 0 ∧ microFault (engine es34 5) mw33 ev = none ∧ ((12, Instr.uCrc32cStep 5 5 ev).fst = 12)) :=
  ⟨by simp, by decide +kernel⟩
theorem witness_MicroAlu_11 :
    (((6, Instr.uShiftLeft 5 5 ev) ∈ [(0, Instr.uPassA 5 5 ev), (1, Instr.uAdd 5 5 ev), (2, Instr.uSubtract 5 5 ev), (3, Instr.uAnd 5 5 ev), (4, Instr.uOr 5 5 ev), (5, Instr.uXor 5 5 ev), (6, Instr.uShiftLeft 5 5 ev), (7, Instr.uShiftRight 5 5 ev), (8, Instr.uArithmeticShiftRight 5 5 ev), (9, Instr.uMinimum 5 5 ev), (10, Instr.uMaximum 5 5 ev), (11, Instr.uMultiply 5 5 ev), (12, Instr.uCrc32cStep 5 5 ev), (13, Instr.uPopulationCount 5 5 ev), (14, Instr.uCompare 5 5 ev), (15, Instr.uDeposit 5 5 ev)])) ∧
    (Operating es36 ∧ 5 < 64 ∧ (engState es36 5 = 1 ∨ engState es36 5 = 3) ∧ (engine es36 5).waiting = false ∧ fetchWord es36 5 = mw 6 3 123 6 3 2 2 0 0 0 0 ∧ (mwAlu mw35 = (6, Instr.uShiftLeft 5 5 ev).fst) ∧ ev.cs = 0 ∧ microFault (engine es36 5) mw35 ev = none ∧ ((6, Instr.uShiftLeft 5 5 ev).fst = 6) ∧ srcB (engine es36 5) mw35 < 64) :=
  ⟨by simp, by decide +kernel⟩
theorem witness_MicroAlu_12 :
    (((7, Instr.uShiftRight 5 5 ev) ∈ [(0, Instr.uPassA 5 5 ev), (1, Instr.uAdd 5 5 ev), (2, Instr.uSubtract 5 5 ev), (3, Instr.uAnd 5 5 ev), (4, Instr.uOr 5 5 ev), (5, Instr.uXor 5 5 ev), (6, Instr.uShiftLeft 5 5 ev), (7, Instr.uShiftRight 5 5 ev), (8, Instr.uArithmeticShiftRight 5 5 ev), (9, Instr.uMinimum 5 5 ev), (10, Instr.uMaximum 5 5 ev), (11, Instr.uMultiply 5 5 ev), (12, Instr.uCrc32cStep 5 5 ev), (13, Instr.uPopulationCount 5 5 ev), (14, Instr.uCompare 5 5 ev), (15, Instr.uDeposit 5 5 ev)])) ∧
    (Operating es38 ∧ 5 < 64 ∧ (engState es38 5 = 1 ∨ engState es38 5 = 3) ∧ (engine es38 5).waiting = false ∧ fetchWord es38 5 = mw 6 3 123 7 3 2 2 0 0 0 0 ∧ (mwAlu mw37 = (7, Instr.uShiftRight 5 5 ev).fst) ∧ ev.cs = 0 ∧ microFault (engine es38 5) mw37 ev = none ∧ ((7, Instr.uShiftRight 5 5 ev).fst = 7) ∧ srcB (engine es38 5) mw37 < 64) :=
  ⟨by simp, by decide +kernel⟩
theorem witness_MicroAlu_13 :
    (((13, Instr.uPopulationCount 5 5 ev) ∈ [(0, Instr.uPassA 5 5 ev), (1, Instr.uAdd 5 5 ev), (2, Instr.uSubtract 5 5 ev), (3, Instr.uAnd 5 5 ev), (4, Instr.uOr 5 5 ev), (5, Instr.uXor 5 5 ev), (6, Instr.uShiftLeft 5 5 ev), (7, Instr.uShiftRight 5 5 ev), (8, Instr.uArithmeticShiftRight 5 5 ev), (9, Instr.uMinimum 5 5 ev), (10, Instr.uMaximum 5 5 ev), (11, Instr.uMultiply 5 5 ev), (12, Instr.uCrc32cStep 5 5 ev), (13, Instr.uPopulationCount 5 5 ev), (14, Instr.uCompare 5 5 ev), (15, Instr.uDeposit 5 5 ev)])) ∧
    (Operating es40 ∧ 5 < 64 ∧ (engState es40 5 = 1 ∨ engState es40 5 = 3) ∧ (engine es40 5).waiting = false ∧ fetchWord es40 5 = mw 6 3 123 13 3 2 2 0 0 0 0 ∧ (mwAlu mw39 = (13, Instr.uPopulationCount 5 5 ev).fst) ∧ ev.cs = 0 ∧ microFault (engine es40 5) mw39 ev = none ∧ ((13, Instr.uPopulationCount 5 5 ev).fst = 13)) :=
  ⟨by simp, by decide +kernel⟩
theorem witness_MicroAlu_14 :
    (((15, Instr.uDeposit 5 5 ev) ∈ [(0, Instr.uPassA 5 5 ev), (1, Instr.uAdd 5 5 ev), (2, Instr.uSubtract 5 5 ev), (3, Instr.uAnd 5 5 ev), (4, Instr.uOr 5 5 ev), (5, Instr.uXor 5 5 ev), (6, Instr.uShiftLeft 5 5 ev), (7, Instr.uShiftRight 5 5 ev), (8, Instr.uArithmeticShiftRight 5 5 ev), (9, Instr.uMinimum 5 5 ev), (10, Instr.uMaximum 5 5 ev), (11, Instr.uMultiply 5 5 ev), (12, Instr.uCrc32cStep 5 5 ev), (13, Instr.uPopulationCount 5 5 ev), (14, Instr.uCompare 5 5 ev), (15, Instr.uDeposit 5 5 ev)])) ∧
    (Operating es42 ∧ 5 < 64 ∧ (engState es42 5 = 1 ∨ engState es42 5 = 3) ∧ (engine es42 5).waiting = false ∧ fetchWord es42 5 = mw 6 3 123 15 3 2 2 0 0 0 0 ∧ (mwAlu mw41 = (15, Instr.uDeposit 5 5 ev).fst) ∧ ev.cs = 0 ∧ microFault (engine es42 5) mw41 ev = none) ∧
    (((15, Instr.uDeposit 5 5 ev).fst = 15) ∧ 0 < min (srcB (engine es42 5) mw41 % 256) 64 ∧ bits (mwImm mw41) 8 6 + 0 < 64) :=
  by refine ⟨by simp, ?_, ?_⟩ <;> decide +kernel
theorem witness_MicroAlu_15 :
    (((8, Instr.uArithmeticShiftRight 5 5 ev) ∈ [(0, Instr.uPassA 5 5 ev), (1, Instr.uAdd 5 5 ev), (2, Instr.uSubtract 5 5 ev), (3, Instr.uAnd 5 5 ev), (4, Instr.uOr 5 5 ev), (5, Instr.uXor 5 5 ev), (6, Instr.uShiftLeft 5 5 ev), (7, Instr.uShiftRight 5 5 ev), (8, Instr.uArithmeticShiftRight 5 5 ev), (9, Instr.uMinimum 5 5 ev), (10, Instr.uMaximum 5 5 ev), (11, Instr.uMultiply 5 5 ev), (12, Instr.uCrc32cStep 5 5 ev), (13, Instr.uPopulationCount 5 5 ev), (14, Instr.uCompare 5 5 ev), (15, Instr.uDeposit 5 5 ev)])) ∧
    (Operating es44 ∧ 5 < 64 ∧ (engState es44 5 = 1 ∨ engState es44 5 = 3) ∧ (engine es44 5).waiting = false ∧ fetchWord es44 5 = mw 6 3 123 8 3 2 2 0 0 0 0 ∧ (mwAlu mw43 = (8, Instr.uArithmeticShiftRight 5 5 ev).fst) ∧ ev.cs = 0 ∧ microFault (engine es44 5) mw43 ev = none ∧ ((8, Instr.uArithmeticShiftRight 5 5 ev).fst = 8) ∧ srcB (engine es44 5) mw43 < 64) :=
  ⟨by simp, by decide +kernel⟩
theorem witness_MicroMemory_1 :
    (Operating es46 ∧ 5 < 64 ∧ (engState es46 5 = 1 ∨ engState es46 5 = 3) ∧ (engine es46 5).waiting = false ∧ fetchWord es46 5 = mw 0 3 123 0 4 4 2 0 7 0 0 ∧ ev.cs = 0 ∧ microFault (engine es46 5) mw45 ev = none ∧ bit (engine es46 5).flags 11 = false) ∧
    (mwSeq mw45 ≠ 6 ∧ mwSeq mw45 ≠ 8 ∧ mwMem mw45 = 7 ∧ 57005 ≠ 5) :=
  by refine ⟨?_, ?_⟩ <;> decide +kernel
theorem witness_MicroMemory_2 :
    (Operating es48 ∧ 5 < 64 ∧ (engState es48 5 = 1 ∨ engState es48 5 = 3) ∧ (engine es48 5).waiting = false ∧ fetchWord es48 5 = mw 0 3 123 0 4 4 2 0 1 0 0 ∧ ev.cs = 0 ∧ microFault (engine es48 5) mw47 ev = none ∧ bit (engine es48 5).flags 11 = false) ∧
    (mwSeq mw47 ≠ 6 ∧ mwSeq mw47 ≠ 8 ∧ mwMem mw47 = 1 ∧ mwDst mw47 ≠ 0 ∧ 57005 ≠ 5) :=
  by refine ⟨?_, ?_⟩ <;> decide +kernel
theorem witness_MicroMemory_3 :
    (Operating es50 ∧ 5 < 64 ∧ (engState es50 5 = 1 ∨ engState es50 5 = 3) ∧ (engine es50 5).waiting = false ∧ fetchWord es50 5 = mw 0 3 123 0 4 4 2 0 5 0 0 ∧ ev.cs = 0 ∧ microFault (engine es50 5) mw49 ev = none ∧ bit (engine es50 5).flags 11 = false) ∧
    (mwSeq mw49 ≠ 6 ∧ mwSeq mw49 ≠ 8 ∧ mwMem mw49 = 5 ∧ ((engine es50 5).work = [57005, 48879]) ∧ mwDst mw49 ≠ 0 ∧ 57005 ≠ 5) :=
  by refine ⟨?_, ?_⟩ <;> decide +kernel
theorem witness_MicroMemory_4 :
    (Operating es52 ∧ 5 < 64 ∧ (engState es52 5 = 1 ∨ engState es52 5 = 3) ∧ (engine es52 5).waiting = false ∧ fetchWord es52 5 = mw 0 3 123 0 4 4 2 0 2 0 0 ∧ ev.cs = 0 ∧ microFault (engine es52 5) mw51 ev = none ∧ bit (engine es52 5).flags 11 = false) ∧
    (mwSeq mw51 ≠ 6 ∧ mwSeq mw51 ≠ 8 ∧ mwMem mw51 = 2 ∧ Scratch.wf (engine es52 5).scratch = true ∧ 0 < 8 ∧ (57005 < memAddr (engine es52 5) mw51 ∨ memAddr (engine es52 5) mw51 + 8 ≤ 57005) ∧ 57005 ≠ 5) :=
  by refine ⟨?_, ?_⟩ <;> decide +kernel
theorem witness_MicroMemory_5 :
    (Operating es54 ∧ 5 < 64 ∧ (engState es54 5 = 1 ∨ engState es54 5 = 3) ∧ (engine es54 5).waiting = false ∧ fetchWord es54 5 = mw 0 3 123 0 4 4 2 0 4 0 0 ∧ ev.cs = 0 ∧ microFault (engine es54 5) mw53 ev = none ∧ bit (engine es54 5).flags 11 = false) ∧
    (mwSeq mw53 ≠ 6 ∧ mwSeq mw53 ≠ 8 ∧ mwMem mw53 = 4 ∧ 57005 ≠ 5) :=
  by refine ⟨?_, ?_⟩ <;> decide +kernel
theorem witness_MicroMemory_6 :
    (Operating es56 ∧ 5 < 64 ∧ (engState es56 5 = 1 ∨ engState es56 5 = 3) ∧ (engine es56 5).waiting = false ∧ fetchWord es56 5 = mw 0 3 123 0 4 4 2 0 6 0 0 ∧ ev.cs = 0 ∧ microFault (engine es56 5) mw55 ev = none ∧ bit (engine es56 5).flags 11 = false) ∧
    (mwSeq mw55 ≠ 6 ∧ mwSeq mw55 ≠ 8 ∧ mwMem mw55 = 6 ∧ mwSeq mw55 ≠ 7 ∧ 57005 ≠ 5 ∧ 57005 ≠ mwOff mw55 ∧ (engine es56 (mwOff mw55)).waiting = false) :=
  by refine ⟨?_, ?_⟩ <;> decide +kernel
theorem witness_MicroMemory_7 :
    Operating es58 ∧ 5 < 64 ∧ (engState es58 5 = 1 ∨ engState es58 5 = 3) ∧ (engine es58 5).waiting = false ∧ fetchWord es58 5 = mw 0 3 123 0 4 1 2 0 6 65535 0 ∧ mwMem mw57 = 6 ∧ 64 ≤ mwOff mw57 :=
  by decide +kernel
theorem witness_MicroMemory_8 :
    Operating es60 ∧ 5 < 64 ∧ (engState es60 5 = 1 ∨ engState es60 5 = 3) ∧ (engine es60 5).waiting = false ∧ fetchWord es60 5 = mw 0 3 123 0 4 1 2 0 3 65535 0 ∧ (mwMem mw59 = 3 ∨ mwMem mw59 = 4) ∧ ((⟨0, true, true⟩ : MicroEnv).busRefused = true) :=
  by decide +kernel
theorem witness_MicroMemory_9 :
    Operating es62 ∧ 5 < 64 ∧ (engState es62 5 = 1 ∨ engState es62 5 = 3) ∧ (engine es62 5).waiting = false ∧ fetchWord es62 5 = mw 0 3 123 0 4 1 2 0 1 65535 0 ∧ mwMem mw61 = 1 ∧ memAddr (engine es62 5) mw61 + 8 ≤ 65536 ∧ ((⟨0, true, true⟩ : MicroEnv).scratchUe = true) :=
  by decide +kernel
theorem witness_MicroMemory_10 :
    (Operating es64 ∧ 5 < 64 ∧ (engState es64 5 = 1 ∨ engState es64 5 = 3) ∧ (engine es64 5).waiting = false ∧ fetchWord es64 5 = mw 0 3 123 0 4 4 2 0 3 0 0 ∧ ev.cs = 0 ∧ microFault (engine es64 5) mw63 ev = none ∧ bit (engine es64 5).flags 11 = false) ∧
    (mwSeq mw63 ≠ 6 ∧ mwSeq mw63 ≠ 8 ∧ mwMem mw63 = 3) :=
  by refine ⟨?_, ?_⟩ <;> decide +kernel
end Sys2Proof.Tests.T08
namespace Sys2Proof.Tests.T09
def mig (ms : Option Nat) (s : State) : State := setEngine 61 { engine s 61 with standFor := some 5, migrateAt := ms } s
def st (e r v : Nat) (s : State) : State := setF F.ENG_STAT_ROLE e 0 r (setF F.ENG_STAT_STATE e 0 v s)
def g0 (v : Nat) : Gesso := { version := v, minHitless := 3, formOk := true, digest := 1, sig := 2, owner := none, pipe := img, roles := (List.range 64).map (fun i => if i = 0 then 0 else if i < 60 then 1 + i % 5 else 6), store := [(1, 5, 77), (2, 6, 88), (0, 1, 99)] }
def base : State := (List.range 64).foldl (fun s e => st e ((g0 5).roles[e]!) (if e < 60 then 1 else 6) s) upB
def tst (x : Nat) (y : State) : State := setEngine 5 { engine y 5 with testing := some (h0, x), store := [(1, 2)], scratch := [(3, 4)] } y
def v09_1 : State := (tst 5 (st 5 2 4 { base with fw := { running := some (g0 5) } }))
def upd (u : FwUpdate) : State := { base with fw := { running := some (g0 5), staged := some (g0 6), update := some u } }
def u0 : FwUpdate := { halves := [[1, 2, 3], [4, 5], [6]], done := 1, cmd := h0, rollback := none }
def u1 : FwUpdate := { u0 with rollback := some 7 }
def v09_2 : State := (upd u1)
def u3 : FwUpdate := { u0 with done := 3 }
def v09_5 : State := (upd u3)
def sl (w s : Bool) (y : State) : State := setEngine 5 { engine y 5 with slice := s, waiting := w } y
def uR : FwUpdate := { u1 with rollback := some 7, stopped := true }
def v09_8 : State := upd uR
def oc (k : Nat) (e : Nat) (h i : Bool) : OutCmd := { serial := k, kind := 0, sub := 0, tag := 9, opcode := 0x0105, idem := i, ackReq := true, prog := true, priority := 0, objs := [], dispatched := true, engine := e, holds := h }
def busy : State := { base with cmd := { base.cmd with outstanding := [oc 1 5 true true, oc 2 5 true false, oc 3 5 false false, oc 4 6 true true, oc 6 4 true true] } }
def v09_4 : State := { upd u0 with cmd := busy.cmd }

theorem witness_EngineEvents_1 :
    (Operating (mig none base) ∧ 5 < 64 ∧ ((engine (mig none base) 5).waiting = true ∨ (tick 999999 (mig none base)).clk.mono < (engine (mig none base) 5).ackAt + 1000000 ∨ engState (mig none base) 5 ≠ 1 ∧ engState (mig none base) 5 ≠ 3) ∧ 1 ≤ 1 ∧ 1 ≤ 5 ∧ (working (mig none base) 5 = true ∨ engState (mig none base) 5 = 6) ∧ 0 ≠ 5 ∧ 61 < 64) ∧
    ((engine (mig none base) 61).standFor = some 5 ∧ (∀ (q : Nat), q < 61 → (engine (mig none base) q).standFor ≠ some 5) ∧ (engine (mig none base) 61).migrateAt = none ∧ working (mig none base) 5 = true ∧ 0 ≠ 61 ∧ (engine (mig none base) 5).slice = false ∧ (engine (mig none base) 5).waiting = false ∧ (working (mig none base) 5 = false ∨ (engine (mig none base) 5).slice = false) ∧ (engine (mig none base) 5).testing = none) :=
  by refine ⟨?_, ?_⟩ <;> decide +kernel
theorem witness_EngineEvents_2 :
    (Operating v09_1 ∧ 5 < 64 ∧ 1 ≤ 1 ∧ 1 ≤ 5 ∧ working v09_1 5 = false ∧ engState v09_1 5 ≠ 6 ∧ (∀ (p : Nat), p < 64 → (engine v09_1 p).standFor ≠ some 5) ∧ (working v09_1 5 = false ∨ (engine v09_1 5).slice = true)) ∧
    (((engine v09_1 5).testing = some (h0, 5)) ∧ 5 + 50000 ≤ (tick 50005 v09_1).clk.mono ∧ 0 ≠ 5 ∧ (Option.map (fun g => g.roles[5]?.getD 6) v09_1.fw.running).getD 6 ≠ 0) :=
  by refine ⟨?_, ?_⟩ <;> decide +kernel
theorem witness_EngineEvents_3 :
    (Operating v09_2 ∧ v09_2.fw.update = some u1 ∧ v09_2.fw.staged = some (g0 6) ∧ (u1.halves[u1.done]? = some [4, 5]) ∧ u1.stopped = false ∧ ((v09_2.cmd.outstanding.any fun o => o.dispatched && o.holds && [4, 5].contains o.engine) = false) ∧ u1.rollback.isSome = true ∧ (5 ∈ [4, 5])) ∧
    (engState v09_2 5 ≠ 5 ∧ (u1.rollback.isSome = true ∨ u1.halves[u1.done + 1]? = none) ∧ (¬0 ∈ [4, 5])) :=
  by refine ⟨?_, ?_⟩ <;> decide +kernel
theorem witness_EngineEvents_4 :
    Operating v09_5 ∧ v09_5.fw.update = some u3 ∧ v09_5.fw.staged = some (g0 6) ∧ u3.rollback = none ∧ u3.halves.length ≤ u3.done :=
  by decide +kernel
theorem witness_EngineEvents_5 :
    Operating (sl false true (st 5 2 3 base)) ∧ 5 < 64 ∧ working (sl false true (st 5 2 3 base)) 5 = true ∧ (engine (sl false true (st 5 2 3 base)) 5).slice = true ∧ (engine (sl false true (st 5 2 3 base)) 5).waiting = false ∧ 0 ≠ 5 :=
  by decide +kernel
theorem witness_EngineEvents_6 :
    Operating (mig (some 1000000) (st 5 2 5 base)) ∧ 5 < 64 ∧ 61 < 64 ∧ (engine (mig (some 1000000) (st 5 2 5 base)) 61).standFor = some 5 ∧ (∀ (q : Nat), q < 61 → (engine (mig (some 1000000) (st 5 2 5 base)) q).standFor ≠ some 5) ∧ (engine (mig (some 1000000) (st 5 2 5 base)) 61).migrateAt = some 1000000 ∧ 1000000 ≤ (tick 1000000 (mig (some 1000000) (st 5 2 5 base))).clk.mono ∧ 0 ≠ 61 :=
  by decide +kernel
theorem witness_EngineEvents_7 :
    Operating v09_8 ∧ 7 < 64 ∧ v09_8.fw.update = some uR ∧ v09_8.fw.running = some (g0 5) ∧ uR.rollback = some 7 ∧ uR.stopped = true ∧ ([1, 2, 3] ∈ List.take uR.done uR.halves) ∧ (1 ∈ [1, 2, 3]) ∧ engState v09_8 1 ≠ 5 :=
  by decide +kernel
theorem witness_EngineEvents_8 :
    Operating (upd u0) ∧ 5 < 64 ∧ (engState (upd u0) 5 = 1 ∨ engState (upd u0) 5 = 3) ∧ (engine (upd u0) 5).waiting = false ∧ (engine (upd u0) 5).ackAt + 1000000 ≤ (tick 1000000 (upd u0)).clk.mono ∧ 1 ≤ 1 ∧ 1 ≤ 5 ∧ (working (upd u0) 5 = true ∨ engState (upd u0) 5 = 6) ∧ (upd u0).fw.update = some u0 ∧ u0.rollback = none :=
  by decide +kernel
theorem witness_EngineEvents_9 :
    Operating base ∧ (base.fw.update = none ∨ base.fw.staged = none) :=
  by decide +kernel
theorem witness_EngineEvents_10 :
    Operating v09_2 ∧ 7 < 64 ∧ v09_2.fw.update = some u1 ∧ v09_2.fw.running = some (g0 5) ∧ (u1.rollback ≠ some 7 ∨ u1.stopped = false) :=
  by decide +kernel
theorem witness_EngineEvents_11 :
    Operating (upd u0) ∧ (upd u0).fw.update = some u0 ∧ (upd u0).fw.staged = some (g0 6) ∧ (u0.rollback.isSome = true ∨ u0.done < u0.halves.length) :=
  by decide +kernel
theorem witness_EngineEvents_12 :
    Operating base ∧ (base.fw.update = none ∨ base.fw.staged = none ∨ ∀ (u : FwUpdate), base.fw.update = some u → u.stopped = true ∨ u.halves[u.done]? = none) :=
  by decide +kernel
theorem witness_EngineEvents_13 :
    Operating v09_4 ∧ v09_4.fw.update = some u0 ∧ v09_4.fw.staged = some (g0 6) ∧ (u0.halves[u0.done]? = some [4, 5]) ∧ u0.stopped = false ∧ ((v09_4.cmd.outstanding.any fun o => o.dispatched && o.holds && [4, 5].contains o.engine) = true) :=
  by decide +kernel
theorem witness_EngineEvents_14 :
    Operating v09_1 ∧ 5 < 64 ∧ ((engine v09_1 5).testing = some (h0, 5)) ∧ (tick 50004 v09_1).clk.mono < 5 + 50000 :=
  by decide +kernel
theorem witness_EngineEvents_15 :
    Operating (mig none (st 5 2 5 base)) ∧ 5 < 64 ∧ 61 < 64 ∧ (engine (mig none (st 5 2 5 base)) 61).standFor = some 5 ∧ (∀ (q : Nat), q < 61 → (engine (mig none (st 5 2 5 base)) q).standFor ≠ some 5) ∧ (engine (mig none (st 5 2 5 base)) 61).migrateAt = none ∧ working (mig none (st 5 2 5 base)) 5 = false :=
  by decide +kernel
theorem witness_EngineEvents_16 :
    Operating (mig (some 1000000) (st 5 2 5 base)) ∧ 5 < 64 ∧ 61 < 64 ∧ (engine (mig (some 1000000) (st 5 2 5 base)) 61).standFor = some 5 ∧ (∀ (q : Nat), q < 61 → (engine (mig (some 1000000) (st 5 2 5 base)) q).standFor ≠ some 5) ∧ (engine (mig (some 1000000) (st 5 2 5 base)) 61).migrateAt = some 1000000 ∧ (tick 999999 (mig (some 1000000) (st 5 2 5 base))).clk.mono < 1000000 :=
  by decide +kernel
end Sys2Proof.Tests.T09
namespace Sys2Proof.Tests.T10
def b0 : State := setF F.PAL_STAT0_BANKS_IN_SERVICE 0 0 128 (setF F.PAL_STAT0_FREE_CELLS 0 0 1000000 (setF F.PAL_STAT1_QDESC_FREE 0 0 2000000 (setF F.PAL_POOL_SIZE_SIZE 0 0 100000 (setF F.PAL_POOL_EFF_EFF 0 0 100000 (portUp 0 (portUp 8 (on 0 (on 1 upB))))))))
def net : State := setF F.QUEUE_ADM0_RESERVED_MIN 5 0 500 (node 0 5 3 (node 1 3 0 (setReg .SCH_NODE0_P 0 0 0x80010000 (node 0 6 4 (node 1 4 8 (setReg .SCH_NODE0_P 8 0 0x80010000 b0))))))
def fe (n len : Nat) (m : Bool) : FifoEnt := { id := n, frame := zeros (len - 4), len := len, ended := true, tailBad := false, src := 8, admClass := 0, iclass := 0, ts := 0, tsMono := 0, marker := m }
def ff (l : List FifoEnt) : State := { net with pal := { net.pal with fifo := [(0, l), (1, [fe 50 100 false])] } }
def ip (l : List Pkt) (s : State) : State := { s with pal := { s.pal with inPipe := [(0, l)], nextId := 100 } }
def pk (n : Nat) (len : Nat) (d : Decision) : Pkt := { id := n, frame := zeros (len - 4), len := len, ended := true, src := 8, pipe := 0, admClass := 0, iclass := 0, ts := 0, tsMono := 0, tsLast := 0, epoch := 0, hdr := {}, dec := d }
def d1 : Decision := { destKind := 1, destQueue := 5 }
def p1 : Pkt := pk 7 64 d1
def p3 : Pkt := { p1 with tailBad := true }
def v10_2 : State := (ip [p3, pk 8 64 d1] net)
def px : Pkt := { p1 with cells := [(0, 0)], charged := 1, pool := some 0, refcnt := 1, openCopies := 1 }
def cq : Copy := { qcopy 100 ⟨0, 5⟩ 0 with pkt := 7, ct := true }
def cr : Copy := { cq with phase := .reading, nextCell := 1, passed := 1 }
def eg0 : State := { net with pal := { net.pal with pkts := [px], copies := [cr], bankUsed := [(0, [0])], selSeq := 1 } }
def w1 : State := { net with pal := { net.pal with pkts := [px], copies := [cq], bankUsed := [(0, [0])] }, sched := { net.sched with queues := [(⟨0, 5⟩, [100])], nodes := [(⟨2, 0⟩, { active := [[⟨1, 3⟩], [], [], []] }), (⟨1, 3⟩, { active := [[⟨0, 5⟩], [], [], []] })] } }
def pc (s : State) : Nat × Node × List Cand := (pickChild (syncPort 0 (tick 7 s)) ⟨2, 0⟩ (serviceLen (syncPort 0 (tick 7 s)))).getD (0, ⟨0, 0⟩, [])
def pd (s : State) : Nat × Node × List Cand := (pickChild (syncPort 0 (tick 7 s)) (pc s).2.1 (headLen (syncPort 0 (tick 7 s)))).getD (0, ⟨0, 0⟩, [])
def py : Pkt := { px with charged := 0, refcnt := 0 }
def cy : Copy := { cr with phase := .ready, img := { bytes := zeros 60 } }
def e1 : State := { net with pal := { net.pal with pkts := [py], copies := [cy], selSeq := 1 } }
def cs : Copy := { cy with phase := .sending, selSeq := 2 }
def eS : State := { e1 with pal := { e1.pal with copies := [cs] } }
def p4 : Pkt := { p1 with hdr := { ctrl := true } }
def v10_3 : State := (ip [p4, pk 8 64 d1] (setF F.EPOCH_INFLIGHT_COUNT 0 0 4 net))
def cr0 : Copy := { cr with passed := 0 }
def rd : Reader := { copies := [], slots := [⟨100, 0, 1⟩], accept := 0 }
def g1 : Grant := ⟨0, 3, 100, 0⟩
def m4 : State := { eg0 with pal := { eg0.pal with copies := [cr0], readers := [(3, rd)], flight := [[], [], [g1]] } }
def pt : Pkt := { py with tailBad := true }
def e1t : State := { e1 with pal := { e1.pal with pkts := [pt] } }
def e1d : State := setReg .MAC_MACRO_CFG 0 0 0 e1
def w1d : State := setReg .MAC_MACRO_CFG 0 0 (reg w1 .MAC_MACRO_CFG 0 0 &&& 0) w1
def pOver : Pkt := { px with frame := zeros 160, len := 164 }
def egO : State := setMacRt 0 { cfg := some { mcfg with maxFrame := [64, 0, 0, 0, 0, 0, 0, 0] }, powered := true } { eg0 with pal := { eg0.pal with pkts := [pOver] } }
def w1s : State := { setReg .SHP_RATE_P 0 0 0x80000001 (setReg .SHP_BURST_P 0 0 0x00010001 w1) with sched := { w1.sched with nodes := [(⟨2, 0⟩, { active := [[⟨1, 3⟩], [], [], []], tokens := -5 })] } }
def netF : State := { net with pal := { net.pal with flight := [[], [], []] } }
def pBig : Pkt := { pk 7 1600 d1 with writing := true }
def big : State := { net with pal := { net.pal with pkts := [pBig], writeQ := [(0, [7])] } }
def cy2 : Copy := { cy with selSeq := 3 }
def eB : State := { e1 with pal := { e1.pal with copies := [cy2, { cy with id := 99, phase := .sending, selSeq := 2 }] } }
def pw : Pkt := { py with writing := true }
def e1w : State := { e1 with pal := { e1.pal with pkts := [pw] } }
def eSw : State := { e1w with pal := { e1w.pal with copies := [cs] } }
def stl0 (s : State) : State := setF F.STL_PORT_STAT_UP 0 0 1 (setF F.STL_PORT_STAT_LANES 0 0 3 (setF F.STL_PORT_STAT_MODE 0 0 3 s))
def cst : Copy := { cy with port := 768 }
def eTw : State := stl0 { e1w with pal := { e1w.pal with copies := [cst] } }
def ctlW : State := setPortRt 0 { toSend := [⟨true, 5, [(1, 2)]⟩] } e1
def eT : State := stl0 { e1 with pal := { e1.pal with copies := [cst] } }
def pwb : Pkt := { pw with cells := List.replicate 1500 (0, 0) }
def eTb : State := { eT with pal := { eT.pal with pkts := [pwb] } }

theorem witness_PacketPath_1 :
    (Operating (ff []) ∧ 0 < 32 ∧ flag (ff []) F.PIPE_STAT_QUARANTINED 0 0 = false ∧ tget (ff []).pal.waking 0 = none ∧ writeLevel (ff []) 0 < 64 ∧ (((fifo (ff []) 0).all fun e => !e.marker) = true)) ∧
    (1 ≠ 0 ∧ List.filter (fun e => !e.marker) (fifo (ff []) 0) = [] ∧ fifo (ff []) 0 = []) :=
  by refine ⟨?_, ?_⟩ <;> decide +kernel
theorem witness_PacketPath_2 :
    (Operating v10_2 ∧ 0 < 32 ∧ v10_2.pal.resPtr < 32 ∧ (∀ (k : Nat), k < 32 → bit 1 k = decide (k = 0) ∧ bit 0 k = false) ∧ (tgetD v10_2.pal.inPipe 0 [] = [p3, pk 8 64 d1]) ∧ 1 ≠ 0) ∧
    (p3.hdr.ctrl = false ∧ 16 = (if p3.dec.drop ≠ 0 then p3.dec.drop else 16) ∧ (p3.dec.drop ≠ 0 ∨ p3.tailBad = true) ∧ 16 < 256) :=
  by refine ⟨?_, ?_⟩ <;> decide +kernel
theorem witness_PacketPath_3 :
    (Operating eg0 ∧ copyOf eg0 100 = some cr ∧ pktOf eg0 cr.pkt = some px ∧ cr.phase = CopyPhase.reading ∧ min 2 (cdiv px.len 256) ≤ cr.passed ∧ heldBehind eg0 cr = false) ∧
    (tget eg0.pal.waking (32 + egressPipe eg0 cr.port) = none ∧ betweenPipes eg0 1 cr.port = false ∧ (runEgress px cr (egressPipe eg0 cr.port) { tick 20 eg0 with pal := { (tick 20 eg0).pal with lastUse := tset (tick 20 eg0).pal.lastUse (32 + egressPipe eg0 cr.port) (tick 20 eg0).clk.mono } }).drop = 0 ∧ (cr.port = 772 ∨ cr.phase ≠ CopyPhase.sending ∧ cr.phase ≠ CopyPhase.ready)) :=
  by refine ⟨?_, ?_⟩ <;> decide +kernel
theorem witness_PacketPath_4 :
    ((pickChild (syncPort 0 (tick 7 w1)) { kind := 2, ix := 0 } (serviceLen (syncPort 0 (tick 7 w1))) = some (pc w1))) ∧
    (pickChild (syncPort 0 (tick 7 w1)) (pc w1).snd.fst (headLen (syncPort 0 (tick 7 w1))) = some (pd w1)) ∧
    (Operating w1 ∧ 0 < 773 ∧ turnOf (syncPort 0 (tick 7 w1)) 0 = true ∧ (∀ (n : Node × NodeRt), n ∈ (syncPort 0 (tick 7 w1)).sched.nodes → n.snd.moves = []) ∧ nodeDown (syncPort 0 (tick 7 w1)) 0 = false ∧ queueOf (syncPort 0 (tick 7 w1)) (pd w1).snd.fst = [100]) ∧
    (copyOf (syncPort 0 (tick 7 w1)) 100 = some cq ∧ pktOf (syncPort 0 (tick 7 w1)) cq.pkt = some px ∧ px.tailBad = false ∧ cq.node = (pd w1).snd.fst) :=
  by refine ⟨some_getD _ (by decide +kernel), some_getD _ (by decide +kernel), ?_, ?_⟩ <;> decide +kernel
theorem witness_PacketPath_5 :
    (Operating eS ∧ copyOf eS 100 = some cs ∧ pktOf eS cs.pkt = some py ∧ (cs.phase ≠ CopyPhase.reading ∨ cs.passed < min 2 (cdiv py.len 256) ∨ heldBehind eS cs = true ∨ (tget eS.pal.waking (32 + egressPipe eS cs.port)).isSome = true ∨ betweenPipes eS 1 cs.port = true) ∧ cs.phase = CopyPhase.sending ∧ nodeDown eS cs.port = false) ∧
    (cs.port < 772 ∧ (768 ≤ cs.port → stlUp eS (cs.port - 768) = true) ∧ cs.port < 768 ∧ py.writing = false ∧ allRead eS cs = true) :=
  by refine ⟨?_, ?_⟩ <;> decide +kernel
theorem witness_PacketPath_6 :
    Operating v10_3 ∧ 0 < 32 ∧ v10_3.pal.resPtr < 32 ∧ (∀ (k : Nat), k < 32 → bit 1 k = decide (k = 0) ∧ bit 0 k = false) ∧ (tgetD v10_3.pal.inPipe 0 [] = [p4, pk 8 64 d1]) ∧ p4.hdr.ctrl = true ∧ p4.src < 768 :=
  by decide +kernel
theorem witness_PacketPath_7 :
    (Operating m4 ∧ (m4.pal.readers = [(g1.reader, rd)]) ∧ (m4.pal.flight = [[], [], [g1]]) ∧ rd.copies = [] ∧ (rd.slots = [(⟨100, 0, 1⟩ : Slot)]) ∧ ((⟨100, 0, 1⟩ : Slot).st = 1)) ∧
    (((⟨100, 0, 1⟩ : Slot).copy = g1.copy) ∧ ((⟨100, 0, 1⟩ : Slot).cell = g1.cell) ∧ copyOf m4 g1.copy = some cr0) :=
  by refine ⟨?_, ?_⟩ <;> decide +kernel
theorem witness_PacketPath_8 :
    (Operating e1 ∧ copyOf e1 100 = some cy ∧ pktOf e1 cy.pkt = some py ∧ cy.port < 768 ∧ cy.phase = CopyPhase.ready ∧ behindOnPort e1 cy = false) ∧
    (py.tailBad = false ∧ portIsUp e1 cy.port = true ∧ macIdle (tick 20 e1) cy.port = true ∧ exportWaits (tick 20 e1) cy.port = false ∧ pauseHolds (tick 20 e1) cy = false ∧ mayBegin (tick 20 e1) cy py = true ∧ py.writing = false ∧ allRead e1 cy = true) :=
  by refine ⟨?_, ?_⟩ <;> decide +kernel
theorem witness_PacketPath_9 :
    Operating net ∧ (∀ (q : Nat), q < 32 → tgetD net.pal.writeQ q [] = []) :=
  by decide +kernel
theorem witness_PacketPath_10 :
    Operating e1t ∧ copyOf e1t 100 = some cy ∧ pktOf e1t cy.pkt = some pt ∧ cy.port ≠ 772 ∧ cy.phase = CopyPhase.ready ∧ behindOnPort e1t cy = false ∧ pt.tailBad = true :=
  by decide +kernel
theorem witness_PacketPath_11 :
    Operating e1d ∧ copyOf e1d 100 = some cy ∧ pktOf e1d cy.pkt = some py ∧ cy.port < 768 ∧ cy.phase = CopyPhase.ready ∧ behindOnPort e1d cy = false ∧ py.tailBad = false ∧ portIsUp e1d cy.port = false :=
  by decide +kernel
theorem witness_PacketPath_12 :
    ((pickChild (syncPort 0 (tick 7 w1d)) { kind := 2, ix := 0 } (serviceLen (syncPort 0 (tick 7 w1d))) = some (pc w1d))) ∧
    (Operating w1d ∧ 0 < 773 ∧ turnOf (syncPort 0 (tick 7 w1d)) 0 = true ∧ (∀ (n : Node × NodeRt), n ∈ (syncPort 0 (tick 7 w1d)).sched.nodes → n.snd.moves = []) ∧ nodeDown (syncPort 0 (tick 7 w1d)) 0 = true ∧ (queueFrom (syncPort 0 (tick 7 w1d)) (pc w1d).snd.fst = some { kind := 0, ix := 5 })) ∧
    ((queueOf (syncPort 0 (tick 7 w1d)) { kind := 0, ix := 5 } = [100]) ∧ copyOf (syncPort 0 (tick 7 w1d)) 100 = some cq ∧ pktOf (syncPort 0 (tick 7 w1d)) cq.pkt = some px) :=
  by refine ⟨some_getD _ (by decide +kernel), ?_, ?_⟩ <;> decide +kernel
theorem witness_PacketPath_13 :
    (Operating egO ∧ copyOf egO 100 = some cr ∧ pktOf egO cr.pkt = some pOver ∧ cr.phase = CopyPhase.reading ∧ min 2 (cdiv pOver.len 256) ≤ cr.passed ∧ heldBehind egO cr = false) ∧
    (tget egO.pal.waking (32 + egressPipe egO cr.port) = none ∧ betweenPipes egO 1 cr.port = false ∧ (runEgress pOver cr (egressPipe egO cr.port) { tick 20 egO with pal := { (tick 20 egO).pal with lastUse := tset (tick 20 egO).pal.lastUse (32 + egressPipe egO cr.port) (tick 20 egO).clk.mono } }).drop ≠ 0 ∧ (runEgress pOver cr (egressPipe egO cr.port) { tick 20 egO with pal := { (tick 20 egO).pal with lastUse := tset (tick 20 egO).pal.lastUse (32 + egressPipe egO cr.port) (tick 20 egO).clk.mono } }).drop < 256) :=
  by refine ⟨?_, ?_⟩ <;> decide +kernel
theorem witness_PacketPath_14 :
    Operating net ∧ copyOf net 5 = none :=
  by decide +kernel
theorem witness_PacketPath_15 :
    Operating w1s ∧ 0 < 773 ∧ turnOf (syncPort 0 (tick 7 w1s)) 0 = false :=
  by decide +kernel
theorem witness_PacketPath_16 :
    Operating netF ∧ netF.pal.readers = [] ∧ (netF.pal.flight = [[], [], []]) :=
  by decide +kernel
theorem witness_PacketPath_17 :
    Operating net ∧ (∀ (k : Nat), k < 32 → bit 0 k = true ∨ bit 0 k = true → tgetD net.pal.inPipe k [] = []) :=
  by decide +kernel
theorem witness_PacketPath_18 :
    Operating big ∧ 0 < 32 ∧ (∀ (r : Nat), r < 32 → r ≠ 0 → tgetD big.pal.writeQ r [] = []) ∧ tgetD big.pal.writeQ 0 [] = [7] ∧ pktOf big 7 = some pBig ∧ pBig.cells.length + 4 < writable pBig ∧ (nextBank big [] = some (0, 0)) :=
  by decide +kernel
theorem witness_PacketPath_19 :
    Operating (setF F.PIPE_STAT_QUARANTINED 0 0 1 (ff [fe 1 64 false])) ∧ 0 < 32 ∧ (flag (setF F.PIPE_STAT_QUARANTINED 0 0 1 (ff [fe 1 64 false])) F.PIPE_STAT_QUARANTINED 0 0 = true ∨ (tget (setF F.PIPE_STAT_QUARANTINED 0 0 1 (ff [fe 1 64 false])).pal.waking 0).isSome = true ∨ 64 ≤ writeLevel (setF F.PIPE_STAT_QUARANTINED 0 0 1 (ff [fe 1 64 false])) 0) :=
  by decide +kernel
theorem witness_PacketPath_20 :
    Operating eB ∧ copyOf eB 100 = some cy2 ∧ pktOf eB cy2.pkt = some py ∧ cy2.phase = CopyPhase.ready ∧ behindOnPort eB cy2 = true :=
  by decide +kernel
theorem witness_PacketPath_21 :
    Operating eSw ∧ copyOf eSw 100 = some cs ∧ pktOf eSw cs.pkt = some pw ∧ cs.phase = CopyPhase.sending ∧ nodeDown eSw cs.port = false ∧ cs.port < 772 ∧ (768 ≤ cs.port → stlUp eSw (cs.port - 768) = true) ∧ (pw.writing = true ∨ allRead eSw cs = false) :=
  by decide +kernel
theorem witness_PacketPath_22 :
    (Operating eTw ∧ copyOf eTw 100 = some cst ∧ pktOf eTw cst.pkt = some pw ∧ 768 ≤ cst.port ∧ cst.port < 772 ∧ cst.phase = CopyPhase.ready) ∧
    (behindOnPort eTw cst = false ∧ pw.tailBad = false ∧ stlIsDown eTw (cst.port - 768) = false ∧ (stlUp eTw (cst.port - 768) && !flag eTw F.STL_PORT_STAT_XOFF_RX (cst.port - 768) 0 && mayBegin (tick 20 eTw) cst pw) = false) :=
  by refine ⟨?_, ?_⟩ <;> decide +kernel
theorem witness_PacketPath_23 :
    (Operating ctlW ∧ copyOf ctlW 100 = some cy ∧ pktOf ctlW cy.pkt = some py ∧ cy.port < 768 ∧ cy.phase = CopyPhase.ready ∧ behindOnPort ctlW cy = false) ∧
    (py.tailBad = false ∧ portIsUp ctlW cy.port = true ∧ (macIdle (tick 20 ctlW) cy.port = false ∨ exportWaits (tick 20 ctlW) cy.port = true ∨ pauseHolds (tick 20 ctlW) cy = true ∨ mayBegin (tick 20 ctlW) cy py = false)) :=
  by refine ⟨?_, ?_⟩ <;> decide +kernel
theorem witness_PacketPath_24 :
    ((pw.writing = true ∨ allRead e1w cy = false)) ∧
    (Operating e1w ∧ copyOf e1w 100 = some cy ∧ pktOf e1w cy.pkt = some pw ∧ cy.port < 768 ∧ cy.phase = CopyPhase.ready ∧ behindOnPort e1w cy = false) ∧
    (pw.tailBad = false ∧ portIsUp e1w cy.port = true ∧ macIdle (tick 20 e1w) cy.port = true ∧ exportWaits (tick 20 e1w) cy.port = false ∧ pauseHolds (tick 20 e1w) cy = false ∧ mayBegin (tick 20 e1w) cy pw = true) :=
  by refine ⟨.inl (by decide +kernel), ?_, ?_⟩ <;> decide +kernel
theorem witness_PacketPath_25 :
    (Operating eTb ∧ copyOf eTb 100 = some cst ∧ pktOf eTb cst.pkt = some pwb ∧ 768 ≤ cst.port ∧ cst.port < 772 ∧ cst.phase = CopyPhase.ready) ∧
    (behindOnPort eTb cst = false ∧ pwb.tailBad = false ∧ stlIsDown eTb (cst.port - 768) = false ∧ (stlUp eTb (cst.port - 768) && !flag eTb F.STL_PORT_STAT_XOFF_RX (cst.port - 768) 0 && mayBegin (tick 20 eTb) cst pwb) = true ∧ (pwb.writing = true ∨ allRead eTb cst = false)) :=
  by refine ⟨?_, ?_⟩ <;> decide +kernel
end Sys2Proof.Tests.T10
namespace Sys2Proof.Tests.T11
def net : State := node 0 5 3 (node 1 3 0 (setReg .SCH_NODE0_P 0 0 0x80010000 (portUp 8 (portUp 0 (on 0 (on 1 upB))))))
def n5 : Node := ⟨0, 5⟩
def dt : State := setReg .SCH_NODE0_Q 5 0 0xC0010003 { net with sched := { net.sched with nodes := [(n5, { detachCmd := some h0 }), (⟨1, 3⟩, { active := [[n5], [], [], []] }), (⟨1, 9⟩, { active := [[], [n5], [], [⟨0, 6⟩, n5]] })] } }
def tx (l : List (List Byte)) : State := setF F.PKT_RING_CFG_EN 33 0 1 (setF F.PKT_RING_CFG_SIZE_LOG2 33 0 6 (setF F.RING_HEAD_HEAD 33 0 63 { net with host := { net.host with txRr := 0, pkt := [(33, { posted := l })] } }))
def sl (sof eof : Nat) (n : Nat) : List Byte := zeros 8 ++ leBytes 2 n ++ leBytes 1 (sof + 2 * eof) ++ zeros 21 ++ zeros n
def txSt : State := { tx [] with host := { (tx []).host with pkt := [(33, { posted := [sl 1 1 5], staged := some (zeros 60, 1) })] } }
def pk (n : Nat) : Pkt := { id := n, frame := zeros 3000, len := 3004, ended := true, src := 8, pipe := 0, admClass := 0, iclass := 0, ts := 0, tsMono := 0, tsLast := 0, epoch := 0, hdr := {}, dec := {}, cells := [(0, 0)], refcnt := 1, openCopies := 1 }
def cp (ph : CopyPhase) : Copy := { id := 50, pkt := 7, node := ⟨3, 2⟩, port := 772, phase := ph, nextCell := 1, img := { bytes := zeros 3000 } }
def rx (w : Nat) (ph : CopyPhase) : State := setF F.PKT_RING_CFG_BUF_KB 1 0 1 (setF F.PKT_RING_CFG_SIZE_LOG2 1 0 6 (setF F.RING_HEAD_HEAD 1 0 62 { net with pal := { net.pal with pkts := [pk 7], copies := [cp ph] }, host := { net.host with pkt := [(1, { posted := [zeros 32, zeros 32, zeros 32, zeros 32], reserved := [(50, 3)], written := w })] } }))
def wdS (r : PortRt) (en act : Nat) : State := setF F.PAL_WD_CFG_WD_MS 0 0 10 (setF F.PAL_WD_CFG_RESTORE_MS 0 0 20 (setF F.PORT_WD_WD_EN 8 0 en (setF F.PORT_WD_WD_ACTIVE 8 0 act (setPortRt 8 r net))))
def v11_3 : State := (wdS { lastPause := [(3, 5)] } 8 0x88)
def v11_1 : State := (wdS { pausedSince := [(3, 5)] } 8 0)
def neg (s : State) : State := setReg .SHP_RATE_Q 5 0 0x80000001 (setReg .SHP_BURST_Q 5 0 1 { s with sched := { s.sched with nodes := tset s.sched.nodes n5 { nodeRt s n5 with tokens := -100000000, last := 0 } } })
def wh (l : List WheelEnt) (s : State) : State := { s with sched := { s.sched with wheel := l } }
def we (n : Node) (d : Nat) (p : Bool) : WheelEnt := ⟨n, d, p⟩
def txF : State := setF F.FIFO_STAT_LEVEL 0 0 70000 (tx [sl 1 1 5])
def hq : Copy := { id := 50, pkt := 7, node := ⟨3, 2⟩, port := 772, phase := .queued }
def ho : State := setReg .SCH_NODE0_C 2 0 0x80010003 (setF F.PKT_RING_CFG_EN 0 0 1 (setF F.PKT_RING_CFG_SIZE_LOG2 0 0 6 (setF F.PKT_RING_CFG_BUF_KB 0 0 2 (setF F.PKT_RING_TIME_HOLD_US 0 0 5 { net with pal := { net.pal with pkts := [pk 7], copies := [hq] }, sched := { net.sched with queues := [(⟨3, 2⟩, [50])] }, host := { net.host with hold := [(2, (50, 100, some 1000))] } }))))
def rq : Nat := getF ho F.CPU_QMAP_RING 2 0
def ho2 : State := setF F.PKT_RING_TIME_HOLD_US rq 0 5 ho
def ho3 : State := setF F.PKT_RING_CFG_EN rq 0 1 (setF F.PKT_RING_CFG_SIZE_LOG2 rq 0 6 (setF F.PKT_RING_CFG_BUF_KB rq 0 2 (setF F.RING_TAIL_TAIL rq 0 9 { ho with host := { ho.host with hold := [(2, (50, 100, none))], pkt := [(rq, { posted := [[1], [2], [3], [4], [5]] })] } })))

theorem witness_WheelWatchdogAndCpuRings_1 :
    Operating dt ∧ 5 < nodeCount 0 ∧ (0 = 0 ∨ 0 = 3) ∧ (detachPend dt { kind := 0, ix := 5 } = true) ∧ (heldBy dt { kind := 0, ix := 5 } = 0) ∧ ((nodeRt dt { kind := 0, ix := 5 }).detachCmd = some h0) :=
  by decide +kernel
theorem witness_WheelWatchdogAndCpuRings_2 :
    Operating txSt ∧ 0 < 32 ∧ (∀ (j : Nat), j < 0 → serveTx (32 + (txSt.host.txRr + 1 + j) % 32) (tick 5 txSt) = none) ∧ flag txSt F.PKT_RING_CFG_EN (32 + (txSt.host.txRr + 1 + 0) % 32) 0 = true ∧ flag txSt F.PKT_RING_CFG_RESET (32 + (txSt.host.txRr + 1 + 0) % 32) 0 = false ∧ ((pktRing txSt (32 + (txSt.host.txRr + 1 + 0) % 32)).staged = some (zeros 60, 1)) ∧ txRoom txSt (zeros 60) = true :=
  by decide +kernel
theorem witness_WheelWatchdogAndCpuRings_3 :
    Operating (rx 1 CopyPhase.ready) ∧ 1 < 32 ∧ ((pktRing (rx 1 CopyPhase.ready) 1).reserved = [(50, 3)]) ∧ copyOf (rx 1 CopyPhase.ready) 50 = some (cp CopyPhase.ready) ∧ pktOf (rx 1 CopyPhase.ready) (cp CopyPhase.ready).pkt = some (pk 7) ∧ (cp CopyPhase.ready).phase = CopyPhase.ready ∧ allRead (rx 1 CopyPhase.ready) (cp CopyPhase.ready) = true ∧ flag (rx 1 CopyPhase.ready) F.PKT_RING_CFG_RESET 1 0 = false ∧ max 1 (cdiv (cp CopyPhase.ready).img.bytes.length (1024 * getF (rx 1 CopyPhase.ready) F.PKT_RING_CFG_BUF_KB 1 0)) ≤ (pktRing (rx 1 CopyPhase.ready) 1).written + 2 :=
  by decide +kernel
theorem witness_WheelWatchdogAndCpuRings_4 :
    (Operating (tx [sl 0 0 50, sl 0 1 50, sl 1 1 5])) ∧ 0 < 32 ∧ (∀ (j : Nat), j < 0 → serveTx (32 + ((tx [sl 0 0 50, sl 0 1 50, sl 1 1 5]).host.txRr + 1 + j) % 32) (tick 5 (tx [sl 0 0 50, sl 0 1 50, sl 1 1 5])) = none) ∧ (flag (tx [sl 0 0 50, sl 0 1 50, sl 1 1 5]) F.PKT_RING_CFG_EN (32 + ((tx [sl 0 0 50, sl 0 1 50, sl 1 1 5]).host.txRr + 1 + 0) % 32) 0 = true) ∧ (flag (tx [sl 0 0 50, sl 0 1 50, sl 1 1 5]) F.PKT_RING_CFG_RESET (32 + ((tx [sl 0 0 50, sl 0 1 50, sl 1 1 5]).host.txRr + 1 + 0) % 32) 0 = false) ∧ ((pktRing (tx [sl 0 0 50, sl 0 1 50, sl 1 1 5]) (32 + ((tx [sl 0 0 50, sl 0 1 50, sl 1 1 5]).host.txRr + 1 + 0) % 32)).staged = none) ∧ (nextFrame (pktRing (tx [sl 0 0 50, sl 0 1 50, sl 1 1 5]) (32 + ((tx [sl 0 0 50, sl 0 1 50, sl 1 1 5]).host.txRr + 1 + 0) % 32)).posted = some [sl 0 0 50, sl 0 1 50]) ∧ (txMalformed [sl 0 0 50, sl 0 1 50] = true) :=
  by decide +kernel
theorem witness_WheelWatchdogAndCpuRings_5 :
    Operating (rx 1 CopyPhase.ready) ∧ 1 < 32 ∧ ((pktRing (rx 1 CopyPhase.ready) 1).reserved = [(50, 3)]) ∧ copyOf (rx 1 CopyPhase.ready) 50 = some (cp CopyPhase.ready) ∧ pktOf (rx 1 CopyPhase.ready) (cp CopyPhase.ready).pkt = some (pk 7) ∧ (cp CopyPhase.ready).phase = CopyPhase.ready ∧ allRead (rx 1 CopyPhase.ready) (cp CopyPhase.ready) = true ∧ flag (rx 1 CopyPhase.ready) F.PKT_RING_CFG_RESET 1 0 = false ∧ (pktRing (rx 1 CopyPhase.ready) 1).written + 1 < max 1 (cdiv (cp CopyPhase.ready).img.bytes.length (1024 * getF (rx 1 CopyPhase.ready) F.PKT_RING_CFG_BUF_KB 1 0)) :=
  by decide +kernel
theorem witness_WheelWatchdogAndCpuRings_6 :
    Operating (tx [sl 1 1 5]) ∧ 0 < 32 ∧ (∀ (j : Nat), j < 0 → serveTx (32 + ((tx [sl 1 1 5]).host.txRr + 1 + j) % 32) (tick 5 (tx [sl 1 1 5])) = none) ∧ flag (tx [sl 1 1 5]) F.PKT_RING_CFG_EN (32 + ((tx [sl 1 1 5]).host.txRr + 1 + 0) % 32) 0 = true ∧ flag (tx [sl 1 1 5]) F.PKT_RING_CFG_RESET (32 + ((tx [sl 1 1 5]).host.txRr + 1 + 0) % 32) 0 = false ∧ (pktRing (tx [sl 1 1 5]) (32 + ((tx [sl 1 1 5]).host.txRr + 1 + 0) % 32)).staged = none ∧ nextFrame (pktRing (tx [sl 1 1 5]) (32 + ((tx [sl 1 1 5]).host.txRr + 1 + 0) % 32)).posted = some [sl 1 1 5] ∧ txMalformed [sl 1 1 5] = false ∧ txRoom (tx [sl 1 1 5]) (List.flatMap txBuffer [sl 1 1 5] ++ zeros (60 - (List.flatMap txBuffer [sl 1 1 5]).length)) = true :=
  by decide +kernel
theorem witness_WheelWatchdogAndCpuRings_7 :
    Operating v11_3 ∧ 8 < 768 ∧ 3 < 8 ∧ (tget (portRt v11_3 8).pausedSince 3 = none ∨ bit (getF v11_3 F.PORT_WD_WD_EN 8 0) 3 = false ∨ bit (getF v11_3 F.PORT_WD_WD_ACTIVE 8 0) 3 = true) ∧ bit (getF v11_3 F.PORT_WD_WD_ACTIVE 8 0) 3 = true ∧ tgetD (portRt v11_3 8).lastPause 3 0 + getF v11_3 F.PAL_WD_CFG_RESTORE_MS 0 0 * 1000000 ≤ (tick 20000005 v11_3).clk.mono :=
  by decide +kernel
theorem witness_WheelWatchdogAndCpuRings_8 :
    Operating v11_1 ∧ 8 < 768 ∧ 3 < 8 ∧ tget (portRt v11_1 8).pausedSince 3 = some 5 ∧ 5 + getF v11_1 F.PAL_WD_CFG_WD_MS 0 0 * 1000000 ≤ (tick 10000005 v11_1).clk.mono ∧ bit (getF v11_1 F.PORT_WD_WD_EN 8 0) 3 = true ∧ bit (getF v11_1 F.PORT_WD_WD_ACTIVE 8 0) 3 = false ∧ (bit (getF v11_1 F.PORT_WD_WD_ACTIVE 8 0) 3 = false ∨ (tick 10000005 v11_1).clk.mono < tgetD (portRt v11_1 8).lastPause 3 0 + getF v11_1 F.PAL_WD_CFG_RESTORE_MS 0 0 * 1000000) :=
  by decide +kernel
theorem witness_WheelWatchdogAndCpuRings_9 :
    (Operating (neg (wh [we n5 100 true, we { kind := 2, ix := 0 } 150 false] net))) ∧ 5 < nodeCount 0 ∧ (List.find? (fun w => w.node == { kind := 0, ix := 5 }) (neg (wh [we n5 100 true, we { kind := 2, ix := 0 } 150 false] net)).sched.wheel = some (we n5 100 true)) ∧ ((we n5 100 true).due ≤ (tick 200 (neg (wh [we n5 100 true, we { kind := 2, ix := 0 } 150 false] net))).clk.mono) ∧ (∀ (x : WheelEnt), x ∈ (neg (wh [we n5 100 true, we { kind := 2, ix := 0 } 150 false] net)).sched.wheel → (we n5 100 true).due ≤ x.due) ∧ (we n5 100 true).parked = true ∧ (tokensAbove (tick 200 (neg (wh [we n5 100 true, we { kind := 2, ix := 0 } 150 false] net))) { kind := 0, ix := 5 } = false) ∧ ((we { kind := 2, ix := 0 } 150 false).node ≠ { kind := 0, ix := 5 }) :=
  by decide +kernel
theorem witness_WheelWatchdogAndCpuRings_10 :
    Operating (List.foldl (fun s p => setF F.FIFO_STAT_LEVEL p 0 70000 s) txF (List.range 32)) ∧ 0 < 32 ∧ (∀ (j : Nat), j < 0 → serveTx (32 + ((List.foldl (fun s p => setF F.FIFO_STAT_LEVEL p 0 70000 s) txF (List.range 32)).host.txRr + 1 + j) % 32) (tick 5 (List.foldl (fun s p => setF F.FIFO_STAT_LEVEL p 0 70000 s) txF (List.range 32))) = none) ∧ flag (List.foldl (fun s p => setF F.FIFO_STAT_LEVEL p 0 70000 s) txF (List.range 32)) F.PKT_RING_CFG_EN (32 + ((List.foldl (fun s p => setF F.FIFO_STAT_LEVEL p 0 70000 s) txF (List.range 32)).host.txRr + 1 + 0) % 32) 0 = true ∧ flag (List.foldl (fun s p => setF F.FIFO_STAT_LEVEL p 0 70000 s) txF (List.range 32)) F.PKT_RING_CFG_RESET (32 + ((List.foldl (fun s p => setF F.FIFO_STAT_LEVEL p 0 70000 s) txF (List.range 32)).host.txRr + 1 + 0) % 32) 0 = false ∧ (pktRing (List.foldl (fun s p => setF F.FIFO_STAT_LEVEL p 0 70000 s) txF (List.range 32)) (32 + ((List.foldl (fun s p => setF F.FIFO_STAT_LEVEL p 0 70000 s) txF (List.range 32)).host.txRr + 1 + 0) % 32)).staged = none ∧ nextFrame (pktRing (List.foldl (fun s p => setF F.FIFO_STAT_LEVEL p 0 70000 s) txF (List.range 32)) (32 + ((List.foldl (fun s p => setF F.FIFO_STAT_LEVEL p 0 70000 s) txF (List.range 32)).host.txRr + 1 + 0) % 32)).posted = some [sl 1 1 5] ∧ txMalformed [sl 1 1 5] = false ∧ txRoom (List.foldl (fun s p => setF F.FIFO_STAT_LEVEL p 0 70000 s) txF (List.range 32)) (List.flatMap txBuffer [sl 1 1 5] ++ zeros (60 - (List.flatMap txBuffer [sl 1 1 5]).length)) = false :=
  by decide +kernel
theorem witness_WheelWatchdogAndCpuRings_11 :
    Operating ho2 ∧ 2 < 48 ∧ (tget (syncHold (tick 5900 ho2)).host.hold 2 = some (50, 100, some 1000)) ∧ getF ho2 F.PKT_RING_TIME_HOLD_US (getF ho2 F.CPU_QMAP_RING 2 0) 0 * 1000 ≤ 100 + ((syncHold (tick 5900 ho2)).clk.mono - 1000) ∧ copyOf ho2 50 = some hq ∧ pktOf ho2 hq.pkt = some (pk 7) :=
  by decide +kernel
theorem witness_WheelWatchdogAndCpuRings_12 :
    (Operating (wh [we n5 100 true, we { kind := 2, ix := 0 } 150 false] net)) ∧ 5 < nodeCount 0 ∧ (List.find? (fun w => w.node == { kind := 0, ix := 5 }) (wh [we n5 100 true, we { kind := 2, ix := 0 } 150 false] net).sched.wheel = some (we n5 100 true)) ∧ ((we n5 100 true).due ≤ (tick 200 (wh [we n5 100 true, we { kind := 2, ix := 0 } 150 false] net)).clk.mono) ∧ (∀ (x : WheelEnt), x ∈ (wh [we n5 100 true, we { kind := 2, ix := 0 } 150 false] net).sched.wheel → (we n5 100 true).due ≤ x.due) ∧ ((we n5 100 true).parked = true → tokensAbove (tick 200 (wh [we n5 100 true, we { kind := 2, ix := 0 } 150 false] net)) { kind := 0, ix := 5 } = true) :=
  by decide +kernel
theorem witness_WheelWatchdogAndCpuRings_13 :
    Operating net ∧ 1 < 32 ∧ (pktRing net 1).reserved = [] :=
  by decide +kernel
theorem witness_WheelWatchdogAndCpuRings_14 :
    Operating ho ∧ 3 < 48 ∧ tget (syncHold (tick 5899 ho)).host.hold 3 = none :=
  by decide +kernel
theorem witness_WheelWatchdogAndCpuRings_15 :
    Operating ho3 ∧ 2 < 48 ∧ (tget (syncHold (tick 5900 ho3)).host.hold 2 = some (50, 100, none)) :=
  by decide +kernel
theorem witness_WheelWatchdogAndCpuRings_16 :
    Operating (wh [] net) ∧ 5 < nodeCount 0 ∧ (List.find? (fun w => w.node == { kind := 0, ix := 5 }) (wh [] net).sched.wheel = none) :=
  by decide +kernel
theorem witness_WheelWatchdogAndCpuRings_17 :
    Operating net ∧ (∀ (r : Nat), r < 64 → 32 ≤ r → flag net F.PKT_RING_CFG_EN r 0 = false ∨ flag net F.PKT_RING_CFG_RESET r 0 = true) :=
  by decide +kernel
theorem witness_WheelWatchdogAndCpuRings_18 :
    Operating net ∧ 5 < nodeCount 0 ∧ (0 = 0 ∨ 0 = 3) ∧ (detachPend net { kind := 0, ix := 5 } = false ∨ heldBy net { kind := 0, ix := 5 } ≠ 0) :=
  by decide +kernel
theorem witness_WheelWatchdogAndCpuRings_19 :
    Operating ho ∧ 2 < 48 ∧ (tget (syncHold (tick 5900 ho)).host.hold 2 = some (50, 100, some 1000)) ∧ 100 + ((syncHold (tick 5900 ho)).clk.mono - 1000) < getF ho F.PKT_RING_TIME_HOLD_US (getF ho F.CPU_QMAP_RING 2 0) 0 * 1000 :=
  by decide +kernel
theorem witness_WheelWatchdogAndCpuRings_20 :
    Operating v11_1 ∧ 8 < 768 ∧ 3 < 8 ∧ tget (portRt v11_1 8).pausedSince 3 = some 5 ∧ (tick 10000004 v11_1).clk.mono < 5 + getF v11_1 F.PAL_WD_CFG_WD_MS 0 0 * 1000000 :=
  by decide +kernel
theorem witness_WheelWatchdogAndCpuRings_21 :
    Operating (rx 1 CopyPhase.egress) ∧ 1 < 32 ∧ ((pktRing (rx 1 CopyPhase.egress) 1).reserved = [(50, 3)]) ∧ copyOf (rx 1 CopyPhase.egress) 50 = some (cp CopyPhase.egress) ∧ pktOf (rx 1 CopyPhase.egress) (cp CopyPhase.egress).pkt = some (pk 7) ∧ ((cp CopyPhase.egress).phase ≠ CopyPhase.ready ∨ allRead (rx 1 CopyPhase.egress) (cp CopyPhase.egress) = false ∨ flag (rx 1 CopyPhase.egress) F.PKT_RING_CFG_RESET 1 0 = true) :=
  by decide +kernel
theorem witness_WheelWatchdogAndCpuRings_22 :
    (Operating (wh [we n5 100 false, we { kind := 2, ix := 0 } 50 false] net)) ∧ 5 < nodeCount 0 ∧ (List.find? (fun w => w.node == { kind := 0, ix := 5 }) (wh [we n5 100 false, we { kind := 2, ix := 0 } 50 false] net).sched.wheel = some (we n5 100 false)) ∧ ((tick 200 (wh [we n5 100 false, we { kind := 2, ix := 0 } 50 false] net)).clk.mono < (we n5 100 false).due ∨ ∃ x, x ∈ (wh [we n5 100 false, we { kind := 2, ix := 0 } 50 false] net).sched.wheel ∧ x.due < (we n5 100 false).due) :=
  by decide +kernel
end Sys2Proof.Tests.T11
namespace Sys2Proof.Tests.T12
def lf (l : List Learn) (s : State) : State := setF F.LEARN_STAT_FIFO_LEVEL 0 0 l.length { s with tbl := { s.tbl with learnFifo := l } }
def tl : State := lf [⟨3, 0x777, 0x8_0000_0000⟩] tiE
def d3 : ExactDef := (exDef ti 3).get (by decide +kernel)
def pl : Placed := (placeFree (exTab tl 3) (placeCands tl d3 (exTab tl 3) 0x777) (seedCur tl 3)).getD ⟨[],0,0,false,0⟩
def ag : State := { ti with tbl := { ti.tbl with ex := [(3, { seedA := 5, age := { en := true, nextAt := 100, slice := 0, sweepTicks := 5 } }), (4, { seedA := 6 })] } }
def bg (f : Bool) (c : Option Hdr) (p : Option TblFlush) : BgOp := { flush := f, visited := 3, total := 9, params := p, deleted := 2, cmd := c }
def bs (b : BgOp) (h : Nat) (ents : List ExEnt) : State := setF F.TBL_STAT0_BG_OP 3 0 1 (setF F.TBL_STAT0_HASH_STATE 3 0 h (setF F.TBL_STAT0_GEN 3 0 65535 { ti with tbl := { ti.tbl with ex := [(3, { seedA := 5, seedB := 9, ents := ents, bg := some b }), (4, { seedA := 6 })] } }))
def bl (b : BgOp) : State := setF F.TBL_STAT0_BG_OP 48 0 1 { ti with tbl := { ti.tbl with lpm := [(48, { bg := some b })] } }
def fp : TblFlush := { table := 3, kind := 0, inclStatic := true, keyFilter := false, value := 0, key := 0, keyMask := 0 }
def rt (a : Nat) (h : Nat) (e : List ExEnt) : State := setF F.TBL_STAT0_HASH_STATE 3 0 h { ti with tbl := { ti.tbl with ex := [(3, { seedA := 5, seedB := 9, ents := e, retryAt := a })] } }
def entC (k reg pos : Nat) : ExEnt := { ent k reg pos with openEnd := false }
def cand3 (h : Nat) : Nat := candidate d3 5 h 0x777
def full3 : ExTab := { seedA := 5, ents := (List.range 4).map (fun k => entC 0x1234 0 (4 * cand3 0 + k)) ++ (List.range 4).map (fun k => entC 0x1234 1 (4 * cand3 1 + k)) ++ List.replicate 8192 (ent 0x77 2 0) }
def full3s : State := lf [⟨3, 0x777, 0x8_0000_0000⟩] { ti with tbl := { ti.tbl with ex := [(3, full3)] } }
theorem full3_absent : ∀ (e : ExEnt), e ∈ (exTab full3s d3.id).ents → e.key ≠ (⟨3, 1911, 34359738368⟩ : Learn).key := by
  intro e h
  have h : e ∈ full3.ents := h
  simp only [full3, List.mem_append, List.mem_map, List.mem_replicate] at h
  obtain (⟨_, _, rfl⟩ | ⟨_, _, rfl⟩) | ⟨_, rfl⟩ := h <;> simp [entC, ent]
def w0 : State := { ti with tbl := { ti.tbl with winAt := some 0 } }
def te (h vf vu : Nat) (oe : Bool) (bad : List Nat) : TcamEnt := { handle := h, table := 0, serial := 1, prio := 1, scope := 0, actionId := 0, data := 0, rangeEn := 0, ranges := [], key := 0, mask := 0, openEnd := oe, vfrom := vf, vuntil := vu, pipes := [0, 1], badIn := bad }
def stg (done : Bool) (s : State) : State := setF F.EPOCH_STAT_STAGED 0 0 1 { s with tbl := { s.tbl with rewriteDone := done, stageCmd := some h0, commitCmd := some h0, tcam := [te 1 1 0 true [], te 2 0 1 false [3]] } }
def dr (n : Nat) (s : State) : State := setF F.EPOCH_CFG_HOLD_MAX_MS 0 0 10 (setF F.EPOCH_STAT_CURRENT 0 0 1 (setF F.EPOCH_STAT_PENDING 0 0 2 (setEpState 0 n { s with tbl := { s.tbl with drainSince := [(0, 0)], tcam := [te 1 1 0 true [], te 2 0 1 false [3], te 3 0 2 false []] } })))
def cpy : State := { ti with flt := { ti.flt with copying := [5, 40], returns := [⟨0, 40, h0, 0, true⟩, ⟨0, 7, h0, 0, false⟩] } }
def lit12_1 : Returning := { kind := 0, index := 40, cmd := h0, since := 0, tested := true }
def ret6 : State := { ti with flt := { ti.flt with returns := [⟨0, 6, h0, 0, true⟩] } }
def lit12_2 : Returning := { kind := 0, index := 6, cmd := h0, since := 0, tested := true }
def pkE (n e : Nat) : Pkt := { id := n, frame := zeros 60, len := 64, ended := true, src := 8, pipe := 0, admClass := 0, iclass := 0, ts := 0, tsMono := 0, tsLast := 0, epoch := e, hdr := {}, dec := {}, refcnt := 1, openCopies := 1 }
def cpq (i : Nat) (ph : CopyPhase) : Copy := { id := i, pkt := i, node := ⟨0, 5⟩, port := 0, phase := ph }
def drP (n : Nat) : State := setF F.EPOCH_INFLIGHT_COUNT 0 0 2 { dr n ti with pal := { ti.pal with pkts := [pkE 1 0, pkE 2 0, pkE 3 1], copies := [cpq 1 .queued, cpq 2 .reading, cpq 3 .queued] }, sched := { ti.sched with queues := [(⟨0, 5⟩, [1, 3])] } }
def mvs : State := { ti with port := { ti.port with srcOld := [(0, 3)], srcTo := [(0, 7)] } }
def row (k : Nat) (p : Nat) : TcamEnt := { te k 0 0 true [] with pipes := [p], scope := 0xFFFF }
def mvF : State := { mvs with tbl := { mvs.tbl with tcam := { te 5000 0 0 true [] with pipes := [3], scope := 768 } :: (List.range 1024).map fun k => row k 7 } }
def ret6p : State := { ret6 with pal := { ret6.pal with inPipe := [(servingPipe ret6 0 6, [{ pkE 1 0 with src := 145, pipe := 4 }])] } }
def lit12_3 : Returning := { kind := 0, index := 6, cmd := h0, since := 0, tested := true }

theorem witness_TableBackground_1 :
    Operating tl ∧ tl.tbl.winAt ≠ some ((tick 5 tl).clk.tod / 40) ∧ (tl.tbl.learnFifo = [(⟨3, 1911, 34359738368⟩ : Learn)]) ∧ (tl.tbl.learnEng = [] ∧ tl.tbl.ageDel = [] ∧ tl.tbl.stageCmd = none ∧ tl.tbl.commitCmd = none ∧ ∀ (id : Nat), id < 64 → bgOf tl id = none) ∧ (exDef tl (⟨3, 1911, 34359738368⟩ : Learn).table = some d3) ∧ (∀ (e : ExEnt), e ∈ (exTab tl d3.id).ents → e.key ≠ (⟨3, 1911, 34359738368⟩ : Learn).key) ∧ (placeFree (exTab tl d3.id) (placeCands tl d3 (exTab tl d3.id) (⟨3, 1911, 34359738368⟩ : Learn).key) (seedCur tl d3.id) = some pl) :=
  by decide +kernel
theorem witness_TableBackground_2 :
    Operating ag ∧ 3 < 64 ∧ exDef ag 3 = some d3 ∧ d3.ageable = true ∧ (exTab ag 3).age.nextAt ≤ (tick 100 ag).clk.mono :=
  by decide +kernel
theorem witness_TableBackground_3 :
    Operating (bs (bg false none none) 1 []) ∧ 3 < 64 ∧ bgOf (bs (bg false none none) 1 []) 3 = some (bg false none none) ∧ (bg false none none).flush = false ∧ exDef (bs (bg false none none) 1 []) 3 = some d3 ∧ hashState (bs (bg false none none) 1 []) 3 = 1 ∧ (exTab (bs (bg false none none) 1 []) 3).ents = [] :=
  by decide +kernel
theorem witness_TableBackground_4 :
    Operating (bl (bg false none none)) ∧ 48 < 64 ∧ bgOf (bl (bg false none none)) 48 = some (bg false none none) ∧ (bg false none none).flush = false ∧ exDef (bl (bg false none none)) 48 = none :=
  by decide +kernel
theorem witness_TableBackground_5 :
    (Operating (bs (bg true none (some fp)) 0 [ent 4660 2 0, ent 85 0 7])) ∧ 3 < 64 ∧ (exDef (bs (bg true none (some fp)) 0 [ent 4660 2 0, ent 85 0 7]) 3 = some d3) ∧ (bgOf (bs (bg true none (some fp)) 0 [ent 4660 2 0, ent 85 0 7]) 3 = some (bg true none (some fp))) ∧ (bg true none (some fp)).params = some fp ∧ (bg true none (some fp)).flush = true ∧ (hashState (bs (bg true none (some fp)) 0 [ent 4660 2 0, ent 85 0 7]) 3 ≠ 2) ∧ ((List.map ExEnt.key (exTab (bs (bg true none (some fp)) 0 [ent 4660 2 0, ent 85 0 7]) 3).ents).Nodup) ∧ ((bs (bg true none (some fp)) 0 [ent 4660 2 0, ent 85 0 7]).twin.flushTables.contains 3 = false) :=
  by decide +kernel
theorem witness_TableBackground_6 :
    Operating ti ∧ 3 < 64 ∧ bgOf ti 3 = none :=
  by decide +kernel
theorem witness_TableBackground_7 :
    Operating ti ∧ ti.tbl.winAt ≠ some ((tick 5 ti).clk.tod / 40) ∧ ti.tbl.learnFifo = [] ∧ (ti.tbl.learnEng = [] ∧ ti.tbl.ageDel = [] ∧ ti.tbl.stageCmd = none ∧ ti.tbl.commitCmd = none ∧ ∀ (id : Nat), id < 64 → bgOf ti id = none) :=
  by decide +kernel
theorem witness_TableBackground_8 :
    (Operating (rt 50 2 [ent 4660 2 0, ent 85 0 7])) ∧ 3 < 64 ∧ (exDef (rt 50 2 [ent 4660 2 0, ent 85 0 7]) 3 = some d3) ∧ (hashState (rt 50 2 [ent 4660 2 0, ent 85 0 7]) 3 = 2) ∧ ((exTab (rt 50 2 [ent 4660 2 0, ent 85 0 7]) 3).retryAt ≤ (tick 50 (rt 50 2 [ent 4660 2 0, ent 85 0 7])).clk.mono) :=
  by decide +kernel
theorem witness_TableBackground_9 :
    ((∀ (e : ExEnt), e ∈ (exTab full3s d3.id).ents → e.key ≠ (⟨3, 1911, 34359738368⟩ : Learn).key)) ∧
    (Operating full3s ∧ full3s.tbl.winAt ≠ some ((tick 5 full3s).clk.tod / 40) ∧ (full3s.tbl.learnFifo = [(⟨3, 1911, 34359738368⟩ : Learn)]) ∧ (full3s.tbl.learnEng = [] ∧ full3s.tbl.ageDel = [] ∧ full3s.tbl.stageCmd = none ∧ full3s.tbl.commitCmd = none ∧ ∀ (id : Nat), id < 64 → bgOf full3s id = none) ∧ (exDef full3s (⟨3, 1911, 34359738368⟩ : Learn).table = some d3) ∧ (placeFree (exTab full3s d3.id) (placeCands full3s d3 (exTab full3s d3.id) (⟨3, 1911, 34359738368⟩ : Learn).key) (seedCur full3s d3.id) = none)) :=
  ⟨full3_absent, by decide +kernel⟩
theorem witness_TableBackground_10 :
    Operating ti ∧ 9 < 64 ∧ exDef ti 9 = none :=
  by decide +kernel
theorem witness_TableBackground_11 :
    Operating w0 ∧ w0.tbl.winAt = some ((tick 5 w0).clk.tod / 40) :=
  by decide +kernel
theorem witness_TableBackground_12 :
    Operating ag ∧ 3 < 64 ∧ exDef ag 3 = some d3 ∧ (d3.ageable = false ∨ (tick 99 ag).clk.mono < (exTab ag 3).age.nextAt) :=
  by decide +kernel
theorem witness_TableBackground_13 :
    Operating (bs (bg true none none) 0 []) ∧ 3 < 64 ∧ bgOf (bs (bg true none none) 0 []) 3 = some (bg true none none) ∧ (bg true none none).flush = true :=
  by decide +kernel
theorem witness_TableBackground_14 :
    Operating (rt 50 2 []) ∧ 3 < 64 ∧ (exDef (rt 50 2 []) 3 = none ∨ hashState (rt 50 2 []) 3 ≠ 2 ∨ (tick 49 (rt 50 2 [])).clk.mono < (exTab (rt 50 2 []) 3).retryAt) :=
  by decide +kernel
theorem witness_EpochsAndScopes_1 :
    Operating (stg true ti) ∧ (isStaged (stg true ti) = false ∨ (stg true ti).tbl.rewriteDone = true) ∧ (stg true ti).tbl.commitCmd = some h0 ∧ isStaged (stg true ti) = true ∧ (stg true ti).tbl.rewriteDone = true ∧ curEpoch (stg true ti) ≠ pendEpoch (stg true ti) ∧ 0 < 16 ∧ holdPassed (tick 5 (stg true ti)) 0 = false ∧ (epState (stg true ti) (oldEpoch (stg true ti)) ≠ 3 ∧ epState (stg true ti) (oldEpoch (stg true ti)) ≠ 4 ∨ getF (stg true ti) F.EPOCH_INFLIGHT_COUNT (oldEpoch (stg true ti)) 0 ≠ 0) ∧ epState (stg true ti) (oldEpoch (stg true ti)) ≠ 5 :=
  by decide +kernel
theorem witness_EpochsAndScopes_2 :
    Operating (dr 3 ti) ∧ 3 < 32 ∧ 2 ≠ 0 ∧ tcamEnt (dr 3 ti) 2 = some (te 2 0 1 false [3]) ∧ (te 2 0 1 false [3]).badIn.contains 3 = true :=
  by decide +kernel
theorem witness_EpochsAndScopes_3 :
    Operating (dr 5 ti) ∧ ((dr 5 ti).tbl.commitCmd = none ∨ isStaged (dr 5 ti) = false ∨ (dr 5 ti).tbl.rewriteDone = false) ∧ epState (dr 5 ti) (oldEpoch (dr 5 ti)) = 5 ∧ (dr 5 ti).tbl.image.isSome = true :=
  by decide +kernel
theorem witness_EpochsAndScopes_4 :
    Operating (stg false ti) ∧ isStaged (stg false ti) = true ∧ (stg false ti).tbl.rewriteDone = false ∧ (stg false ti).tbl.image.isSome = true :=
  by decide +kernel
theorem witness_EpochsAndScopes_5 :
    Operating cpy ∧ 40 < 64 ∧ cpy.flt.copying.contains 40 = true ∧ returning cpy 0 40 = some lit12_1 ∧ lit12_1.tested = true ∧ 40 / 32 = 1 :=
  by decide +kernel
theorem witness_EpochsAndScopes_6 :
    Operating ret6 ∧ 6 < 64 ∧ ret6.flt.copying.contains 6 = false ∧ returning ret6 0 6 = some lit12_2 ∧ lit12_2.tested = true ∧ 6 < 32 ∧ (((tgetD ret6.pal.inPipe (servingPipe ret6 0 6) []).any fun p => decide (p.pipe ≠ 6) && (pipePorts (tick 5 ret6) 6).contains p.src) = false) :=
  by decide +kernel
theorem witness_EpochsAndScopes_7 :
    Operating (drP 3) ∧ 0 < 16 ∧ holdPassed (tick 10000000 (drP 3)) 0 = true :=
  by decide +kernel
theorem witness_EpochsAndScopes_8 :
    Operating (dr 3 ti) ∧ (epState (dr 3 ti) (oldEpoch (dr 3 ti)) = 3 ∨ epState (dr 3 ti) (oldEpoch (dr 3 ti)) = 4) ∧ getF (dr 3 ti) F.EPOCH_INFLIGHT_COUNT (oldEpoch (dr 3 ti)) 0 = 0 :=
  by decide +kernel
theorem witness_EpochsAndScopes_9 :
    Operating ti ∧ 0 < 64 ∧ returning ti 0 0 = none ∧ 0 < 5 ∧ tget ti.port.srcTo 0 = none :=
  by decide +kernel
theorem witness_EpochsAndScopes_10 :
    Operating ti ∧ 8 < 773 ∧ ti.tbl.scopeMoves = [] :=
  by decide +kernel
theorem witness_EpochsAndScopes_11 :
    Operating (dr 3 ti) ∧ 4 < 32 ∧ 9 ≠ 0 ∧ tcamEnt (dr 3 ti) 9 = none :=
  by decide +kernel
theorem witness_EpochsAndScopes_12 :
    Operating (dr 3 ti) ∧ 4 < 32 ∧ 2 ≠ 0 ∧ tcamEnt (dr 3 ti) 2 = some (te 2 0 1 false [3]) ∧ (te 2 0 1 false [3]).badIn.contains 4 = false :=
  by decide +kernel
theorem witness_EpochsAndScopes_13 :
    Operating cpy ∧ 7 < 64 ∧ (returning cpy 0 7 = some (⟨0, 7, h0, 0, false⟩ : Returning)) ∧ ((⟨0, 7, h0, 0, false⟩ : Returning).tested = false) :=
  by decide +kernel
theorem witness_EpochsAndScopes_14 :
    Operating mvF ∧ 0 < 64 ∧ 0 < 5 ∧ tget mvF.port.srcTo 0 = some 7 ∧ (rowsFit mvF 0 (768 + 0) (servingPipe mvF 0 7) = false ∨ rowsFit mvF 1 (768 + 0) (servingPipe mvF 1 7) = false) :=
  by decide +kernel
theorem witness_EpochsAndScopes_15 :
    Operating ret6p ∧ 6 < 64 ∧ returning ret6p 0 6 = some lit12_3 ∧ lit12_3.tested = true ∧ 6 < 32 ∧ (((tgetD ret6p.pal.inPipe (servingPipe ret6p 0 6) []).any fun p => decide (p.pipe ≠ 6) && (pipePorts (tick 5 ret6p) 6).contains p.src) = true) :=
  by decide +kernel
end Sys2Proof.Tests.T12
namespace Sys2Proof.Tests.T13
def es : State := (List.range 64).foldl (fun s e => setF F.ENG_STAT_ROLE e 0 (e % 5) (setF F.ENG_STAT_STATE e 0 1 s)) upB
def es2 : State := (List.range 64).foldl (fun s p => setF F.PIPE_STAT_SERVED_BY (p % 32) (p / 32) (p % 32) s) (setF F.PAL_STAT0_BANKS_IN_SERVICE 0 0 128 (setF F.PAL_STAT0_FREE_CELLS 0 0 1310720 es))
def fe (n : Nat) (c : Nat) : FifoEnt := { id := n, frame := zeros 60, len := 64, ended := true, tailBad := false, src := 8, admClass := c, iclass := 0, ts := 0, tsMono := 0, marker := false }
def fl (set : Nat) (k : Nat) : FlowEnt := { (⟨0, 0, 0, 0, false, 0, 0, 0, 0, 0, 0, 0, 0, none, 0, none, 0, 0, 0⟩ : FlowEnt) with set := set, pkts := k }
def f0 : State := { on 3 es2 with pal := { es2.pal with fifo := [(0, [fe 1 0, fe 2 1]), (5, [fe 3 2])] }, tele := { es2.tele with flows := [(5, [fl 1 0, fl 0 0, fl 0 5])] } }
def f1 : State := { f0 with pal := { f0.pal with bankDrain := [5, 3], bankUsed := [(3, [1])] }, flt := { f0.flt with quarantining := [5, 35, 0], copying := [] } }
def rts (l : List Returning) : State := setF F.TILE_LINK_STAT_DOWN 0 0 1 (setMapBit .BANK_RETIRED 5 true (setMapBit .MACRO_FAILED 5 true { f0 with flt := { f0.flt with returns := l }, pal := { f0.pal with bankOut := [5] } }))
def r0 : Returning := ⟨0, 5, h0, 5, false⟩
def r1 : Returning := ⟨1, 5, h0, 5, false⟩
def r2 : Returning := ⟨2, 5, h0, 5, false⟩
def r3 : Returning := ⟨0, 3, h0, 5, true⟩

theorem witness_FaultActions_1 :
    (((∀ (ev : Nat), armedFor f1 ev = false) ∧ ∀ (c : Nat), classTrips f1 c = false)) ∧
    (Operating f1 ∧ 3 < 32 ∧ flag f1 F.PIPE_STAT_QUARANTINED 3 0 = false ∧ f1.flt.quarantining.contains 3 = false ∧ 0 < 32 ∧ flag f1 F.PIPE_STAT_QUARANTINED 0 1 = false ∧ f1.flt.quarantining.contains (32 + 0) = false ∧ 0 < 128) ∧
    (mapBit f1 RegName.BANK_RETIRED 0 = false ∧ 0 < 64 ∧ engState f1 0 ≠ 5 ∧ 0 < 96 ∧ macFailed f1 0 = false ∧ 0 < 8 ∧ 0 < 6 ∧ memInst 0 0 = true) ∧
    ((0 = 0 ∨ 10 < 0) ∧ memInst 5 0 = true ∧ 1 ≤ 5 ∧ 5 ≤ 9 ∧ 3 < 64 ∧ flag f1 F.PIPE_STAT_QUARANTINED (3 % 32) (3 / 32) = false ∧ List.find? (fun x => !x.marker) (fifo f1 0) = some (fe 1 0) ∧ 5 < 8) ∧
    (0 < 2 ^ 23 ∧ (List.filter (fun e => e.set == 0 / 8) (tgetD f1.tele.flows 5 []))[0 % 8]? = some (fl 0 0) ∧ f1.tbl.tcam = [] ∧ 0 < 2 ∧ f1.flt.quarantining.contains (32 * 0 + 3) = false ∧ f1.flt.quarantining.contains (32 * 0 + 0) = true ∧ (∀ (k : Nat), k < 32 → flag f1 F.PIPE_STAT_QUARANTINED k 0 = false) ∧ getF f1 F.PIPE_STAT_SERVED_BY 0 0 = 0) ∧
    ((f1.pal.bankDrain.contains 0 = false ∨ bankUsed f1 0 ≠ [] ∨ getF f1 F.PAL_STAT0_FREE_CELLS 0 0 < 10240) ∧ 5 < 128 ∧ f1.pal.bankDrain.contains 5 = true ∧ bankUsed f1 5 = [] ∧ 10240 ≤ getF f1 F.PAL_STAT0_FREE_CELLS 0 0 ∧ (macRt f1 0).powered = false ∧ 3 < 96 ∧ macFailed f1 3 = false) ∧
    ((macRt f1 3).powered = true ∧ bit (getF f1 F.TILE_LINK_STAT_DOWN 0 0) 0 = false ∧ f1.flt.returns = [] ∧ 0 < 12 ∧ 0 < 3 ∧ 0 < (if 0 = 0 then 64 else if 0 = 1 then 128 else 96) ∧ returning f1 0 0 = none) :=
  by refine ⟨quiet_of (by decide +kernel) (by decide +kernel), ?_, ?_, ?_, ?_, ?_, ?_⟩ <;> decide +kernel
theorem witness_FaultActions_2 :
    (((∀ (ev : Nat), armedFor (rts [r0, r1, r2, r3]) ev = false) ∧ ∀ (c : Nat), classTrips (rts [r0, r1, r2, r3]) c = false)) ∧
    ((Operating (rts [r0, r1, r2, r3])) ∧ 0 < 8 ∧ (bit (getF (rts [r0, r1, r2, r3]) F.TILE_LINK_STAT_DOWN 0 0) 0 = true) ∧ 0 < 3 ∧ 5 < (if 0 = 0 then 64 else if 0 = 1 then 128 else 96) ∧ (returning (rts [r0, r1, r2, r3]) 0 5 = some r0) ∧ r0.tested = false ∧ (0 = 1 ∨ r0.since + 500000 ≤ (tick 500005 (rts [r0, r1, r2, r3])).clk.mono)) ∧
    (3 < (if 0 = 0 then 64 else if 0 = 1 then 128 else 96) ∧ (returning (rts [r0, r1, r2, r3]) 0 3 = some r3) ∧ (r3.tested = true ∨ 0 ≠ 1 ∧ (tick 500005 (rts [r0, r1, r2, r3])).clk.mono < r3.since + 500000) ∧ 1 < 3 ∧ 5 < (if 1 = 0 then 64 else if 1 = 1 then 128 else 96) ∧ (returning (rts [r0, r1, r2, r3]) 1 5 = some r1) ∧ r1.tested = false ∧ (1 = 1 ∨ r1.since + 500000 ≤ (tick 500005 (rts [r0, r1, r2, r3])).clk.mono)) ∧
    (2 < 3 ∧ 5 < (if 2 = 0 then 64 else if 2 = 1 then 128 else 96) ∧ (returning (rts [r0, r1, r2, r3]) 2 5 = some r2) ∧ r2.tested = false ∧ (2 = 1 ∨ r2.since + 500000 ≤ (tick 500005 (rts [r0, r1, r2, r3])).clk.mono)) :=
  by refine ⟨quiet_of (by decide +kernel) (by decide +kernel), ?_, ?_, ?_⟩ <;> decide +kernel
theorem witness_FaultActions_3 :
    (((∀ (ev : Nat), armedFor f0 ev = false) ∧ ∀ (c : Nat), classTrips f0 c = false)) ∧
    (Operating f0 ∧ 6 ≤ 8 ∧ 8 ≤ 8) :=
  ⟨quiet_of (by decide +kernel) (by decide +kernel), by decide +kernel⟩
theorem witness_FaultActions_4 :
    Operating (setMapBit RegName.MACRO_FAILED 5 true f0) ∧ 5 < 96 ∧ macFailed (setMapBit RegName.MACRO_FAILED 5 true f0) 5 = true ∧ returning (setMapBit RegName.MACRO_FAILED 5 true f0) 2 5 = none :=
  by decide +kernel
end Sys2Proof.Tests.T13
namespace Sys2Proof.Tests.T14
def pw (st cap mode : Nat) (l : List Nat) (since : Nat) : State := setF F.PWR_STAT0_CAP_STEP 0 0 st (setF F.PWR_CTL_CAP_W 0 0 cap (setF F.PWR_CTL_MODE 0 0 mode { upB with pwr := { upB.pwr with last := l, sinceTight := since } }))
def vo (m : Option Nat) (st : Bool) : State := setF F.PWR_STAT1_CORE_MHZ 0 0 1950 { upB with pwr := { upB.pwr with wantMhz := m, stalled := st, passAt := 1000 } }
def thr (s : State) : State := setF F.PWR_THRESH_T1 0 0 85 (setF F.PWR_THRESH_T2 0 0 95 (setF F.PWR_THRESH_T3 0 0 105 (setF F.PWR_THRESH_HYST 0 0 3 s)))
def val (s : State) : State := (List.range 64).foldl (fun s k => setF F.TEMP_VALID k 0 1 s) s
def ck : State := thr (val { upB with pwr := { upB.pwr with checked := true, tooHot := [3] } })
def tmp (b : Int) (k : Nat) (x : Int) : List Int := (List.range 64).map (fun i => if i = k then x else b)
def hp (l : List Int) : Nat × Int := (hottest l ck).getD (0, 0)
def unck : State := thr upB
def v14_3 : State := { upB with pwr := { upB.pwr with droops := List.replicate 1000 4 } }
def v14_1 : State := { ck with flt := { ck.flt with tripped := true } }
def v14_4 : State := ({ pw 3 400 1 [100] 16 with pwr := { (pw 3 400 1 [100] 16).pwr with lowSince := some 5 } })
def sp (l : List Nat) : State := { upB with pal := { upB.pal with waking := l.map (fun k => (k, 5)), lastUse := [(37, 100)] }, host := { upB.host with asleep := [3, 1] } }
def all8 : List Nat := [0, 1, 2, 3, 32, 33, 34, 35]
def v14_8 : State := { sp all8 with host := { upB.host with asleep := [0] } }

theorem witness_PowerAndTemperature_1 :
    ((Operating (pw 3 400 1 [500, 600] 16)) ∧ (bootStage (pw 3 400 1 [500, 600] 16) = 6) ∧ ((pw 3 400 1 [500, 600] 16).pwr.cap = none) ∧ ((pw 3 400 1 [500, 600] 16).pwr.mode = none) ∧ ((pw 3 400 1 [500, 600] 16).pwr.stalled = false) ∧ (flag (pw 3 400 1 [500, 600] 16) F.PWR_CTL_MODE 0 0 = true) ∧ (flag (pw 3 400 1 [500, 600] 16) F.PWR_STAT0_BOOST_OK 0 0 = false) ∧ ((List.take 16 (min 2047 500 :: (pw 3 400 1 [500, 600] 16).pwr.last)).sum / max 1 (List.take 16 (min 2047 500 :: (pw 3 400 1 [500, 600] 16).pwr.last)).length ≤ 2047)) ∧
    ((getF (pw 3 400 1 [500, 600] 16) F.PWR_CTL_CAP_W 0 0 < (List.take 16 (min 2047 500 :: (pw 3 400 1 [500, 600] 16).pwr.last)).sum / max 1 (List.take 16 (min 2047 500 :: (pw 3 400 1 [500, 600] 16).pwr.last)).length) ∧ (15 ≤ (pw 3 400 1 [500, 600] 16).pwr.sinceTight) ∧ (getF (pw 3 400 1 [500, 600] 16) F.PWR_STAT0_CAP_STEP 0 0 < 22)) :=
  by refine ⟨?_, ?_⟩ <;> decide +kernel
theorem witness_PowerAndTemperature_2 :
    Operating (vo (some 1900) false) ∧ (vo (some 1900) false).pwr.wantMhz = some 1900 ∧ (vo (some 1900) false).pwr.stalled = false ∧ (vo (some 1900) false).pwr.passAt + 64000 ≤ (tick 65000 (vo (some 1900) false)).clk.mono :=
  by decide +kernel
theorem witness_PowerAndTemperature_3 :
    Powered ck ∧ ck.flt.tripped = false ∧ ck.pwr.checked = true ∧ (hottest (tmp 800 3 1700) ck = some ((hp (tmp 800 3 1700)).fst, (hp (tmp 800 3 1700)).snd)) ∧ 0 < 64 ∧ ((16 * getF ck F.PWR_THRESH_T3 0 0) : Int) ≤ (hp (tmp 800 3 1700)).snd ∧ 1696 ≤ (hp (tmp 800 3 1700)).snd ∧ (∀ (k : Nat), k < 64 → (tmp 800 3 1700)[k]?.getD 0 < 1840) :=
  by decide +kernel
theorem witness_PowerAndTemperature_4 :
    Operating upB ∧ upB.pwr.ageWarned = false ∧ (∃ m, m < 96 ∧ 800 ≤ min 1000 ([5, 800, 1500, 1000][m]?.getD 0)) ∧ 0 < 96 :=
  by decide +kernel
theorem witness_PowerAndTemperature_5 :
    Powered unck ∧ unck.flt.tripped = false ∧ 0 < 64 ∧ (∃ k, k < 64 ∧ ∀ (j : Nat), j ∈ regionOf k → sensorOk (tmp 3000 3 2000) j = false) :=
  by decide +kernel
theorem witness_PowerAndTemperature_6 :
    Operating upB ∧ (2 ≤ 2 ∧ 2 ≤ 10 ∨ 2 = 20) ∧ (List.filter (fun a => decide ((tick 5 upB).clk.mono < a + 1000000)) upB.pwr.droops).length + 1 ≤ 1000 :=
  by decide +kernel
theorem witness_PowerAndTemperature_7 :
    Operating v14_3 ∧ (2 ≤ 10 ∧ 10 ≤ 10 ∨ 10 = 20) ∧ 1000 < (List.filter (fun a => decide ((tick 5 v14_3).clk.mono < a + 1000000)) v14_3.pwr.droops).length + 1 :=
  by decide +kernel
theorem witness_PowerAndTemperature_8 :
    Powered v14_1 ∧ v14_1.flt.tripped = true :=
  by decide +kernel
theorem witness_PowerAndTemperature_9 :
    Operating (vo none true) ∧ (vo none true).pwr.wantMhz = none ∧ ((vo none true).pwr.stalled = true ∨ (tick 64999 (vo none true)).clk.mono < (vo none true).pwr.passAt + 64000) :=
  by decide +kernel
theorem witness_PowerAndTemperature_10 :
    Powered ck ∧ ck.flt.tripped = false ∧ ck.pwr.checked = true ∧ (hottest (tmp 800 3 1840) ck = some ((hp (tmp 800 3 1840)).fst, (hp (tmp 800 3 1840)).snd)) ∧ (∃ k, k < 64 ∧ flag ck F.TEMP_VALID k 0 = true ∧ 1840 ≤ (tmp 800 3 1840)[k]?.getD 0 ∧ k ∈ ck.pwr.tooHot) :=
  by decide +kernel
theorem witness_PowerAndTemperature_11 :
    (Operating v14_4 ∧ bootStage v14_4 = 6 ∧ v14_4.pwr.cap = none ∧ v14_4.pwr.mode = none ∧ v14_4.pwr.stalled = false ∧ flag v14_4 F.PWR_CTL_MODE 0 0 = true ∧ flag v14_4 F.PWR_STAT0_BOOST_OK 0 0 = false ∧ (List.take 16 (min 2047 100 :: v14_4.pwr.last)).sum / max 1 (List.take 16 (min 2047 100 :: v14_4.pwr.last)).length ≤ 2047) ∧
    ((List.take 16 (min 2047 100 :: v14_4.pwr.last)).sum / max 1 (List.take 16 (min 2047 100 :: v14_4.pwr.last)).length + 40 ≤ getF v14_4 F.PWR_CTL_CAP_W 0 0 ∧ v14_4.pwr.lowSince = some 5 ∧ 5 + 1000000 ≤ (tick 2000000 v14_4).clk.mono ∧ v14_4.pwr.changedAt + 1000000 ≤ (tick 2000000 v14_4).clk.mono ∧ 0 < getF v14_4 F.PWR_STAT0_CAP_STEP 0 0 ∧ flag v14_4 F.PWR_STAT2_T_OVER 0 0 = false ∧ v14_4.pwr.droopTight = false ∧ signed 16 (getF v14_4 F.PWR_STAT2_HOT_T 0 0) < 1696 ∧ 0 + 40 ≤ getF v14_4 F.PWR_CTL_CAP_W 0 0) :=
  by refine ⟨?_, ?_⟩ <;> decide +kernel
theorem witness_PowerAndTemperature_12 :
    Operating (setF F.RST_STAT_BOOT_STAGE 0 0 5 upB) ∧ bootStage (setF F.RST_STAT_BOOT_STAGE 0 0 5 upB) ≠ 6 :=
  by decide +kernel
theorem witness_PowerAndTemperature_13 :
    Operating upB ∧ (∀ (m : Nat), m < 96 → min 1000 ([][m]?.getD 0) < 800) :=
  by decide +kernel
theorem witness_PowerAndTemperature_14 :
    Powered ck ∧ ck.flt.tripped = false ∧ ck.pwr.checked = true ∧ (hottest (tmp 800 3 900) ck = some ((hp (tmp 800 3 900)).fst, (hp (tmp 800 3 900)).snd)) ∧ (hp (tmp 800 3 900)).snd < 1664 :=
  by decide +kernel
theorem witness_PowerAndTemperature_15 :
    Powered (setF F.PWR_STAT2_T_OVER 0 0 1 ck) ∧ (setF F.PWR_STAT2_T_OVER 0 0 1 ck).flt.tripped = false ∧ (setF F.PWR_STAT2_T_OVER 0 0 1 ck).pwr.checked = true ∧ (hottest [1670] (setF F.PWR_STAT2_T_OVER 0 0 1 ck) = some ((hp [1670]).fst, (hp [1670]).snd)) ∧ 1664 ≤ (hp [1670]).snd ∧ (hp [1670]).snd < 1696 :=
  by decide +kernel
theorem witness_SleepAndWake_1 :
    Operating (sp [5]) ∧ 0 < 2 ∧ 5 < 32 ∧ (pipeEmpty (sp [5]) (32 * 0 + 5) = false ∨ (tget (sp [5]).pal.waking (32 * 0 + 5)).isSome = true ∨ (tick 1100 (sp [5])).clk.mono < tgetD (sp [5]).pal.lastUse (32 * 0 + 5) 0 + 1000) ∧ (tget (sp [5]).pal.waking (32 * 0 + 5)).isSome = true :=
  by decide +kernel
theorem witness_SleepAndWake_2 :
    Operating (sp []) ∧ 1 < 2 ∧ 5 < 32 ∧ pipeEmpty (sp []) (32 * 1 + 5) = true ∧ tget (sp []).pal.waking (32 * 1 + 5) = none ∧ tgetD (sp []).pal.lastUse (32 * 1 + 5) 0 + 1000 ≤ (tick 1100 (sp [])).clk.mono :=
  by decide +kernel
theorem witness_SleepAndWake_3 :
    Operating upB ∧ 3 ≤ 7 ∧ 5 < 96 :=
  by decide +kernel
theorem witness_SleepAndWake_4 :
    Operating v14_8 ∧ 0 < 8 ∧ ((¬∀ (k : Nat), k < 4 → (tget v14_8.pal.waking (4 * 0 + k)).isSome = true ∧ (tget v14_8.pal.waking (32 + 4 * 0 + k)).isSome = true) ∨ (tick 200000 v14_8).clk.mono < tgetD v14_8.host.awake 0 0 + 100000 ∨ 0 ∈ v14_8.host.asleep) :=
  by decide +kernel
theorem witness_SleepAndWake_5 :
    Operating (sp all8) ∧ 0 < 8 ∧ (∀ (k : Nat), k < 4 → (tget (sp all8).pal.waking (4 * 0 + k)).isSome = true ∧ (tget (sp all8).pal.waking (32 + 4 * 0 + k)).isSome = true) ∧ tgetD (sp all8).host.awake 0 0 + 100000 ≤ (tick 100000 (sp all8)).clk.mono ∧ (¬0 ∈ (sp all8).host.asleep) :=
  by decide +kernel
end Sys2Proof.Tests.T14
namespace Sys2Proof.Tests.T15
def tg (l : List (Nat × Target)) (s : State) : State := { s with tele := { s.tele with targets := l, periodUs := 1000 } }
def cfg (k : Nat) : TargetSet := { (⟨0, false, 0, false, false, false, 0, 0, 0, 0, 0, 0, 0, 0, 0, 0, 0, 0, 0, 0, 0, 0, 0, 0, 0, 0, 0, 0⟩ : TargetSet) with kind := k, port := 0, en := true, expRate := 100, expClass := 1, msgMax := 9000, pmtu := 4096 }
def fr : ExpFrame := { body := zeros 100, off := 0, recs := 3 }
def t1 (k : Nat) : Target := { cfg := some (cfg k), sendRecs := [⟨0, [], none⟩, ⟨0, [], none⟩], frames := [fr, { fr with recs := 4 }], sending := true, nextOff := 5000, nextWraps := 1 }
def t2 (k : Nat) : Target := { cfg := some (cfg k), sendRecs := [⟨0, [], none⟩, ⟨0, [], none⟩], frames := [], sending := true, nextOff := 5000, nextWraps := 1 }
def t3 : Target := { cfg := some (cfg 0), filling := [⟨0, [], none⟩], frames := [fr], sending := false, tokensAt := 10000 }
def dm (b : Bool) (s : State) : State := { s with host := { s.host with dma := b } }
def base : State := dm true (portUp 0 (on 0 upB))
def E0 : State := setF F.TEL_CFG_EXP_PERIOD_US 0 0 2000 (tg [(0, t1 0), (1, t1 1), (2, t2 0), (3, t2 1), (15, t3), (5, { cfg := some (cfg 1), ending := true })] base)
def lit15_1 : ExpFrame := { body := fr.body, off := fr.off, recs := 4, tmpl := fr.tmpl }
def S0 (c : Option Capture) (w : Option Capture) : State := { base with tele := { base.tele with asked := c.toList, writing := w, ctr := [((1, 3, 15), 7), ((1, 3, 16), 8), ((1, 3, 14), 9), ((2, 3, 15), 7)] } }
def cap (k tm : Nat) : Capture := { seq := k, time := tm }
def v15_1 : State := (setF F.SWATCH_CFG_PERIOD_MS 0 0 5 { S0 none none with tele := { (S0 none none).tele with swatchNext := 5000000 } })
def D0 (n : Nat) : State := setF F.SMP_RING_CFG_EN 2 0 1 (setF F.SMP_RING_CFG_SIZE_LOG2 2 0 n { base with tele := { base.tele with devRing := [(2, [⟨[1]⟩, ⟨[2]⟩, ⟨[3]⟩])] } })
def sk : State := setF F.SWATCH_STAT_HELD_A 0 0 1 (setF F.SWATCH_STAT_HELD_B 0 0 1 v15_1)
def R0 : State := setF F.PORT_RATE_CFG_WINDOW_US 3 0 100 { base with tele := { base.tele with winStart := [(3, (0, 100, 200))], ctr := [((1, 3, 1), 700), ((1, 3, 7), 500), ((1, 3, 11), 50), ((1, 3, 15), 7), ((1, 3, 16), 900)] } }
def fl (k : Nat) (fm : Option Nat) (lm : Nat) : FlowEnt := { (⟨0, 0, 0, 0, false, 0, 0, 0, 0, 0, 0, 0, 0, none, 0, none, 0, 0, 0⟩ : FlowEnt) with set := k, firstMono := fm, lastMono := lm }
def F0 : State := setF F.FLOW_CFG_IDLE_S 0 0 10 (setF F.FLOW_CFG_ACTIVE_S 0 0 60 { base with tele := { base.tele with flows := [(0, [fl 1 (some 0) 0, fl 2 (some 0) 99000000000, fl 3 (some 98000000000) 99000000000]), (7, [fl 1 none 0])], scanAt := 5 } })
def cpd : Capture := { cap 4 1000 with doneAt := 7000 }
def Sd : State := S0 none (some cpd)
def E0d : State := setReg .MAC_MACRO_CFG 0 0 0 E0
def lit15_2 : ExpFrame := { body := fr.body, off := fr.off, recs := 4, tmpl := fr.tmpl }

theorem witness_ExportAndSnapshots_1 :
    (Operating E0 ∧ 0 < 16 ∧ periodEnds (tick 1000000 E0) (target E0 0) (decide ((tick 1000000 E0).clk.tod % (E0.tele.periodUs * 1000) = 0)) = true ∧ (target E0 0).sending = true ∧ (target E0 0).ending = false ∧ (target E0 0).cfg = some (cfg 0) ∧ (target E0 0).filling = [] ∧ 5 < 16) ∧
    (periodEnds (tick 1000000 E0) (target E0 5) (decide ((tick 1000000 E0).clk.tod % (E0.tele.periodUs * 1000) = 0)) = true ∧ (target E0 5).ending = true ∧ 15 < 16 ∧ periodEnds (tick 1000000 E0) (target E0 15) (decide ((tick 1000000 E0).clk.tod % (E0.tele.periodUs * 1000) = 0)) = true ∧ (target E0 15).ending = false ∧ (target E0 15).cfg = some (cfg 0) ∧ (target E0 15).filling ≠ [] ∧ ((target E0 0).sending = false ∨ (target E0 0).frames ≠ [])) ∧
    (2 < 16 ∧ (target E0 2).sending = true ∧ (target E0 2).frames = [] ∧ 3 < 16 ∧ (target E0 3).sending = true ∧ (target E0 3).frames = [] ∧ (target E0 3).cfg = some (cfg 1) ∧ (cfg 1).kind = 1) ∧
    (((target E0 2).cfg = none ∨ (target E0 2).frames = [] ∨ (target E0 2).sending = false) ∧ ((target E0 0).frames = [fr, lit15_1]) ∧ portIsUp E0 (cfg 0).port = true ∧ classPaused E0 (cfg 0).port (cfg 0).expClass = false ∧ macIdle E0 (cfg 0).port = true ∧ (target E0 0).tokensAt ≤ (tick 1000000 E0).clk.mono * 1000 ∧ (tick 1000000 E0).clk.mono < E0.tele.scanAt + 100000000 ∧ (minuteAt (tick 1000000 E0) (tick 1000000 E0).clk.tod ≠ (tick 1000000 E0).clk.tod ∨ (tick 1000000 E0).clk.tod ≤ wide E0 RegName.METER_LAST_END 0 2)) ∧
    (getF E0 F.SWATCH_CFG_PERIOD_MS 0 0 * 1000000 = 0 ∧ (∀ (c : Capture), c ∈ E0.tele.asked → (tick 1000000 E0).clk.tod < c.time) ∧ getF E0 F.SWATCH_CFG_PERIOD_MS 0 0 = 0 ∧ (E0.tele.writing = none ∨ dmaOn E0 = false) ∧ 0 < 773 ∧ (tick 1000000 E0).clk.tod % (getF E0 F.PORT_RATE_CFG_WINDOW_US 0 0 * 1000) ≠ 0 ∧ 0 < 8 ∧ (dmaOn E0 = false ∨ flag E0 F.SMP_RING_CFG_EN 0 0 = false ∨ tgetD E0.tele.devRing 0 [] = [] ∨ sampleRoom E0 0 = 0)) :=
  by refine ⟨?_, ?_, ?_, ?_, ?_⟩ <;> decide +kernel
theorem witness_ExportAndSnapshots_2 :
    Operating (S0 (some (cap 3 5000)) none) ∧ ((decide ((tick 5000 (S0 (some (cap 3 5000)) none)).clk.tod % ((S0 (some (cap 3 5000)) none).tele.periodUs * 1000) = 0) || (List.range 16).any fun n => (target (S0 (some (cap 3 5000)) none) n).dueMono.isSome && periodEnds (tick 5000 (S0 (some (cap 3 5000)) none)) (target (S0 (some (cap 3 5000)) none) n) false) = false) ∧ (S0 (some (cap 3 5000)) none).tele.offers = [] ∧ getF (S0 (some (cap 3 5000)) none) F.SWATCH_CFG_PERIOD_MS 0 0 * 1000000 = 0 ∧ (S0 (some (cap 3 5000)) none).tele.asked = [cap 3 5000] ∧ (cap 3 5000).time ≤ (tick 5000 (S0 (some (cap 3 5000)) none)).clk.tod ∧ swatchBlocked (S0 (some (cap 3 5000)) none) (cap 3 5000).seq = false ∧ (0 ≠ 1 ∨ 0 ≠ 15 ∧ 0 ≠ 16) :=
  by decide +kernel
theorem witness_ExportAndSnapshots_3 :
    Operating base ∧ base.tele.scanAt + 100000000 ≤ (tick 37000000000 base).clk.mono ∧ 0 < 8 ∧ base.tele.flushes = [] ∧ minuteAt (tick 37000000000 base) (tick 37000000000 base).clk.tod = (tick 37000000000 base).clk.tod ∧ wide base RegName.METER_LAST_END 0 2 < (tick 37000000000 base).clk.tod ∧ 0 < 773 ∧ (tick 37000000000 base).clk.tod % (getF base F.PORT_RATE_CFG_WINDOW_US 0 0 * 1000) = 0 :=
  by decide +kernel
theorem witness_ExportAndSnapshots_4 :
    Operating (S0 (some (cap 3 5000)) (some (cap 2 1000))) ∧ getF (S0 (some (cap 3 5000)) (some (cap 2 1000))) F.SWATCH_CFG_PERIOD_MS 0 0 * 1000000 = 0 ∧ (S0 (some (cap 3 5000)) (some (cap 2 1000))).tele.asked = [cap 3 5000] ∧ (cap 3 5000).time ≤ (tick 5000 (S0 (some (cap 3 5000)) (some (cap 2 1000)))).clk.tod ∧ swatchBlocked (S0 (some (cap 3 5000)) (some (cap 2 1000))) (cap 3 5000).seq = true ∧ getF (S0 (some (cap 3 5000)) (some (cap 2 1000))) F.SWATCH_CFG_PERIOD_MS 0 0 = 0 ∧ (S0 (some (cap 3 5000)) (some (cap 2 1000))).tele.writing = some (cap 2 1000) ∧ (cap 2 1000).doneAt ≤ (tick 5000 (S0 (some (cap 3 5000)) (some (cap 2 1000)))).clk.mono ∧ dmaOn (S0 (some (cap 3 5000)) (some (cap 2 1000))) = true ∧ (cap 2 1000).seq % 2 = 0 :=
  by decide +kernel
theorem witness_ExportAndSnapshots_5 :
    Operating v15_1 ∧ getF v15_1 F.SWATCH_CFG_PERIOD_MS 0 0 * 1000000 ≠ 0 ∧ v15_1.tele.asked = [] ∧ (tick 5000000 v15_1).clk.tod % (getF v15_1 F.SWATCH_CFG_PERIOD_MS 0 0 * 1000000) = 0 ∧ v15_1.tele.swatchNext = (tick 5000000 v15_1).clk.tod ∧ swatchBlocked v15_1 (v15_1.tele.swatchK + 1) = false :=
  by decide +kernel
theorem witness_ExportAndSnapshots_6 :
    Operating (D0 8) ∧ 2 < 8 ∧ dmaOn (D0 8) = true ∧ flag (D0 8) F.SMP_RING_CFG_EN 2 0 = true ∧ tgetD (D0 8).tele.devRing 2 [] ≠ [] ∧ sampleRoom (D0 8) 2 ≠ 0 ∧ 0 < min (tgetD (D0 8).tele.devRing 2 []).length (sampleRoom (D0 8) 2) ∧ (tgetD (D0 8).tele.devRing 2 [])[0]? = some { bytes := [1] } :=
  by decide +kernel
theorem witness_ExportAndSnapshots_7 :
    Operating sk ∧ getF sk F.SWATCH_CFG_PERIOD_MS 0 0 * 1000000 ≠ 0 ∧ sk.tele.asked = [] ∧ (tick 5000000 sk).clk.tod % (getF sk F.SWATCH_CFG_PERIOD_MS 0 0 * 1000000) = 0 ∧ sk.tele.swatchNext = (tick 5000000 sk).clk.tod ∧ swatchBlocked sk (sk.tele.swatchK + 1) = true :=
  by decide +kernel
theorem witness_ExportAndSnapshots_8 :
    Operating R0 ∧ 3 < 773 ∧ (tick 100000 R0).clk.tod % (getF R0 F.PORT_RATE_CFG_WINDOW_US 3 0 * 1000) = 0 ∧ (tget R0.tele.winStart 3 = some (0, 100, 200)) :=
  by decide +kernel
theorem witness_ExportAndSnapshots_9 :
    Operating F0 ∧ F0.tele.scanAt + 100000000 ≤ (tick 100000000000 F0).clk.mono ∧ 0 < 8 ∧ F0.tele.flushes = [] ∧ fl 3 (some 98000000000) 99000000000 ∈ tgetD F0.tele.flows 0 [] ∧ decide ((fl 3 (some 98000000000) 99000000000).lastMono + getF F0 F.FLOW_CFG_IDLE_S 0 0 * 1000000000 < (tick 100000000000 F0).clk.mono) = false ∧ decide ((fl 3 (some 98000000000) 99000000000).firstMono.getD (tick 100000000000 F0).clk.mono + getF F0 F.FLOW_CFG_ACTIVE_S 0 0 * 1000000000 < (tick 100000000000 F0).clk.mono) = false :=
  by decide +kernel
theorem witness_ExportAndSnapshots_10 :
    Operating (S0 none (some (cap 3 1000))) ∧ getF (S0 none (some (cap 3 1000))) F.SWATCH_CFG_PERIOD_MS 0 0 = 0 ∧ (S0 none (some (cap 3 1000))).tele.writing = some (cap 3 1000) ∧ (cap 3 1000).doneAt ≤ (tick 5000 (S0 none (some (cap 3 1000)))).clk.mono ∧ dmaOn (S0 none (some (cap 3 1000))) = true ∧ (cap 3 1000).seq % 2 = 1 :=
  by decide +kernel
theorem witness_ExportAndSnapshots_11 :
    Operating Sd ∧ getF Sd F.SWATCH_CFG_PERIOD_MS 0 0 = 0 ∧ Sd.tele.writing = some cpd ∧ (tick 5000 Sd).clk.mono < cpd.doneAt :=
  by decide +kernel
theorem witness_ExportAndSnapshots_12 :
    Operating E0d ∧ 0 < 16 ∧ (target E0d 0).cfg = some (cfg 0) ∧ ((target E0d 0).frames = [fr, lit15_2]) ∧ (portIsUp E0d (cfg 0).port = false ∨ classPaused E0d (cfg 0).port (cfg 0).expClass = true ∨ macIdle E0d (cfg 0).port = false ∨ (tick 1000000 E0d).clk.mono * 1000 < (target E0d 0).tokensAt) :=
  by decide +kernel
end Sys2Proof.Tests.T15
namespace Sys2Proof.Tests.T16
def ref (s : State) : State := setF F.STL_REF_REF_LOCK 0 0 1 s
def pt (n : Nat) (p : StlPort) (s : State) : State := { s with stl := { s.stl with ports := [(n, p)] } }
def lnAll (n st : Nat) (s : State) : State := (List.range 8).foldl (fun s l => setF F.STL_LANE_STAT_RX_LOGICAL n l l (setF F.STL_LANE_STAT_ALIGNED n l st (setF F.STL_LANE_STAT_DESKEWED n l st (setF F.STL_LANE_STAT_ADAPTED n l st (setF F.STL_LANE_STAT_CDR_LOCK n l st (setF F.STL_LANE_STAT_RX_SIGNAL n l 1 s)))))) s
def pUp (n : Nat) (m : Nat) (s : State) : State := setF F.STL_PORT_STAT_UP n 0 1 (setF F.STL_PORT_STAT_LANES n 0 3 (setF F.STL_PORT_STAT_MODE n 0 m s))
def U (n m : Nat) (p : StlPort) : State := ref (pt n p (lnAll n 1 (pUp n m upB)))
def full : StlPort := { enabled := true, awake := true, active := [0, 1, 2, 3, 4, 5, 6, 7], rx := some (64, 3, [1, 2]), goodSince := (List.range 8).map (fun i => (i, 5)) }
def v16_1 : State := (U 0 1 { full with rx := none })
def body (len cls : Nat) : List Byte := leBytes 2 len ++ leBytes 1 cls ++ zeros 28
def ln (n l : Nat) (x : StlLane) (s : State) : State := { s with stl := { s.stl with lanes := [((n, l), x)] } }
def v16_4 : State := (ln 1 0 { adaptedAt := some 5 } (setF F.STL_PORT_STAT_XOFF_RX 1 0 1 (pt 1 { full with flowRxAt := some 5 } (lnAll 1 0 (ref upB)))))
def v16_7 : State := { upB with stl := { upB.stl with refPresent := false } }
def v16_5 : State := (ln 1 0 { adaptedAt := some 5 } (setF F.STL_LANE_STAT_ADAPTED 1 0 1 (setF F.STL_PORT_STAT_XOFF_RX 1 0 1 (pt 1 { full with flowRxAt := some 5 } (lnAll 1 0 (ref upB))))))
def xoffNow : State := setF F.STL_PORT_STAT_XOFF_TX 0 0 1 (U 0 1 full)
def v16_3 : State := (setF F.STL_PORT_STAT_RESIZE 3 0 1 (pt 3 { full with resizeAt := some 0, flowRxAt := some 5 } (lnAll 3 1 (ref upB))))
def rst : State := setF F.STL_PORT_CTL_RESTORE_EN 2 0 1 (setF F.STL_PORT_CTL_RESTORE_S 2 0 1 (U 2 2 { full with active := [0, 1, 2, 3] }))
def v16_2 : State := (ln 0 4 { cws := [true, true, false, true, false] } (U 0 1 { full with active := [0, 1, 2, 3, 5, 6, 7], rx := some (64, 1, []) }))

theorem witness_StretcherLanesAndBlocks_1 :
    (Operating v16_1 ∧ 0 < 4 ∧ 4 < 8 ∧ flag v16_1 F.STL_LANE_STAT_ALIGNED 0 4 = true ∧ (List.filter id (List.take 16 (true :: (stlLane v16_1 0 4).cws))).length < 4 ∧ (stlPort v16_1 0).enabled = true ∧ (beAt [2, 30, 3] 0 1 ≠ 1 ∧ beAt [2, 30, 3] 0 1 ≠ 2 ∨ beAt [2, 30, 3] 0 1 = 2 ∧ (stlUp v16_1 0 = false ∨ (stlPort v16_1 0).rx = none)) ∧ stlUp v16_1 0 = true) ∧
    ((stlPort v16_1 0).rx = none ∧ (body 64 3).length = 31 ∧ 64 ≤ leAt (body 64 3) 0 2 ∧ leAt (body 64 3) 0 2 ≤ 16368 ∧ bit 1 0 = true ∧ bit 0 0 = false ∧ 0 < 2 ∧ (stlUp v16_1 0 = false ∨ stlXoff v16_1 0 = flag v16_1 F.STL_PORT_STAT_XOFF_TX 0 0 ∧ (stlXoff v16_1 0 = false ∨ ∃ a, (stlPort v16_1 0).flowTxAt = some a ∧ (tick 5 v16_1).clk.mono < a + 1000))) ∧
    (((stlPort v16_1 0).flowRxAt = none ∨ flag v16_1 F.STL_PORT_STAT_XOFF_RX 0 0 = false) ∧ flag v16_1 F.STL_REF_REF_LOCK 0 0 = true ∧ flag v16_1 F.STL_LANE_STAT_RX_SIGNAL 0 4 = true ∧ ((stlLane v16_1 0 4).adaptedAt = none ∨ flag v16_1 F.STL_LANE_STAT_ALIGNED 0 4 = true) ∧ Int.natAbs 5 ≤ 200 ∧ 200 < (-300).natAbs ∧ ((stlPort v16_1 0).resizeAt = none ∨ flag v16_1 F.STL_PORT_STAT_RESIZE 0 0 = false) ∧ stlIsDown v16_1 0 = false ∧ v16_1.stl.refPresent = true) :=
  by refine ⟨?_, ?_, ?_⟩ <;> decide +kernel
theorem witness_StretcherLanesAndBlocks_2 :
    (Operating v16_4 ∧ 1 < 4 ∧ 0 < 8 ∧ flag v16_4 F.STL_LANE_STAT_ALIGNED 1 0 = false ∧ stlUp v16_4 1 = false ∧ (stlPort v16_4 1).flowRxAt = some 5 ∧ flag v16_4 F.STL_PORT_STAT_XOFF_RX 1 0 = true ∧ 5 + 4000 ≤ (tick 1000005 v16_4).clk.mono) ∧
    (1 < 2 ∧ (∀ (h : Nat × Nat × List Byte), h ∈ v16_4.chain.held → h.fst ≠ 1) ∧ (stlLane v16_4 1 0).adaptedAt = some 5 ∧ 5 + 1000000 ≤ (tick 1000005 v16_4).clk.mono ∧ flag v16_4 F.STL_LANE_STAT_ADAPTED 1 0 = false ∧ (flag v16_4 F.STL_PORT_CTL_RESTORE_EN 1 0 = false ∨ stlUp v16_4 1 = false) ∧ stlIsDown v16_4 1 = true) :=
  by refine ⟨?_, ?_⟩ <;> decide +kernel
theorem witness_StretcherLanesAndBlocks_3 :
    Operating v16_7 ∧ 2 < 4 ∧ 0 < 8 ∧ (stlPort v16_7 2).enabled = false ∧ ((stlPort v16_7 2).enabled = false ∨ flag v16_7 F.STL_REF_REF_LOCK 0 0 = false ∨ flag v16_7 F.STL_LANE_STAT_RX_SIGNAL 2 0 = false) ∧ v16_7.stl.refPresent = false ∧ flag v16_7 F.STL_REF_REF_LOCK 0 0 = false :=
  by decide +kernel
theorem witness_StretcherLanesAndBlocks_4 :
    Operating v16_5 ∧ 1 < 4 ∧ 0 < 8 ∧ (stlPort v16_5 1).flowRxAt = some 5 ∧ flag v16_5 F.STL_PORT_STAT_XOFF_RX 1 0 = true ∧ (tick 4004 v16_5).clk.mono < 5 + 4000 ∧ flag v16_5 F.STL_LANE_STAT_ADAPTED 1 0 = true ∧ flag v16_5 F.STL_LANE_STAT_ALIGNED 1 0 = false :=
  by decide +kernel
theorem witness_StretcherLanesAndBlocks_5 :
    Operating xoffNow ∧ 0 < 4 ∧ 0 < 8 ∧ flag xoffNow F.STL_LANE_STAT_ALIGNED 0 0 = true ∧ (stlPort xoffNow 0).rx.isSome = true ∧ stlUp xoffNow 0 = true ∧ (stlXoff xoffNow 0 ≠ flag xoffNow F.STL_PORT_STAT_XOFF_TX 0 0 ∨ stlXoff xoffNow 0 = true ∧ ∀ (a : Nat), (stlPort xoffNow 0).flowTxAt = some a → a + 1000 ≤ (tick 5 xoffNow).clk.mono) :=
  by decide +kernel
theorem witness_StretcherLanesAndBlocks_6 :
    Operating v16_3 ∧ 3 < 4 ∧ 0 < 8 ∧ (stlPort v16_3 3).resizeAt = some 0 ∧ flag v16_3 F.STL_PORT_STAT_RESIZE 3 0 = true ∧ 0 + 1000000 ≤ (tick 1000000 v16_3).clk.mono :=
  by decide +kernel
theorem witness_StretcherLanesAndBlocks_7 :
    Operating rst ∧ 2 < 4 ∧ 0 < 8 ∧ flag rst F.STL_PORT_CTL_RESTORE_EN 2 0 = true ∧ stlUp rst 2 = true ∧ getF rst F.STL_PORT_STAT_LANES 2 0 = 3 ∧ (stlPort rst 2).active.length < 8 ∧ (∀ (i : Nat), i < 8 → ∃ g, tget (stlPort rst 2).goodSince i = some g ∧ g + getF rst F.STL_PORT_CTL_RESTORE_S 2 0 * 1000000000 ≤ (tick 1000000005 rst).clk.mono) :=
  by decide +kernel
theorem witness_StretcherLanesAndBlocks_8 :
    Operating v16_2 ∧ 0 < 4 ∧ 4 < 8 ∧ flag v16_2 F.STL_LANE_STAT_ALIGNED 0 4 = true ∧ 4 ≤ (List.filter id (List.take 16 (true :: (stlLane v16_2 0 4).cws))).length :=
  by decide +kernel
theorem witness_StretcherLanesAndBlocks_9 :
    Operating v16_3 ∧ 3 < 4 ∧ 0 < 8 ∧ (stlPort v16_3 3).resizeAt = some 0 ∧ flag v16_3 F.STL_PORT_STAT_RESIZE 3 0 = true ∧ (tick 999999 v16_3).clk.mono < 0 + 1000000 :=
  by decide +kernel
end Sys2Proof.Tests.T16
namespace Sys2Proof.Tests.T17
def role (r : Nat) (s : State) : State := setF F.TWIN_CFG_STAT_ROLE 0 0 r s
def BK (s : State) : State := setF F.TWIN_BKP_BKP0_EN 0 0 1 (setF F.TWIN_BKP_BKP0_PORT 0 0 8 (portUp 8 (on 1 s)))
def tw (st eff : Nat) (link : Bool) (s : State) : State := setF F.TWIN_STAT_STATE 0 0 st (setF F.TWIN_STAT_EFF_ROLE 0 0 eff (setF F.TWIN_STAT_LINK_UP 0 0 (b2n link) s))
def pUp (n : Nat) (m : Nat) (s : State) : State := setF F.STL_PORT_STAT_UP n 0 1 (setF F.STL_PORT_STAT_LANES n 0 3 (setF F.STL_PORT_STAT_MODE n 0 m s))
def twS (st eff : Nat) (link up : Bool) (t : TwinState) : State := tw st eff link { (if up then pUp 0 1 upB else upB) with twin := t }
def q13 : State := role 2 (setF F.TWIN_STAT_BKP_ALIVE 0 0 (b2n true) (BK (twS 2 1 true true { tHold := 1000, tWarm := 2000, miss := 7, heard := false, bkpAt := some 2200000, downSince := some 2900000, lostAt := some 2000000, bkpTxAt := [(0, 5)] })))
def hb (dev role : Nat) : List Byte := leBytes 1 0x55 ++ leBytes 1 role ++ zeros 14 ++ leBytes 2 dev ++ zeros 14
def bytes1 (x : Nat) : List Byte := beBytes 1 x
def bk (role peer : Nat) : List Byte := bytes1 1 ++ bytes1 role ++ zeros 6 ++ beBytes 8 peer ++ zeros 30
def q9 : State := role 2 (setF F.TWIN_STAT_BKP_ALIVE 0 0 (b2n false) (BK (twS 1 1 true false { tHold := 1000, tWarm := 2000, miss := 0, heard := false, bkpAt := some 2200000, downSince := some 2900000, lostAt := some 2000000, bkpTxAt := [(0, 5)] })))
def q4 : State := role 1 (setF F.TWIN_STAT_BKP_ALIVE 0 0 (b2n true) (BK (twS 0 2 true false { tHold := 1000, tWarm := 2000, miss := 0, heard := true, bkpAt := some 0, downSince := some 0, lostAt := some 2000000, bkpTxAt := [(0, 5)] })))
def q26 : State := role 1 (setF F.TWIN_STAT_BKP_ALIVE 0 0 (b2n false) (BK (twS 4 2 true true { tHold := 1000, tWarm := 2000, miss := 7, heard := false, bkpAt := some 2199999, downSince := some 2899999, lostAt := some 2000000, bkpTxAt := [(0, 5)] })))
def q17 : State := role 2 (setF F.TWIN_STAT_BKP_ALIVE 0 0 (b2n true) (BK (twS 2 1 false false { tHold := 1000, tWarm := 2000, miss := 3, heard := false, bkpAt := some 2200000, downSince := some 2900000, lostAt := some 2000000, bkpTxAt := [(0, 5)] })))

theorem witness_TwinPair_1 :
    (Operating q13 ∧ 1 < 4 ∧ stlUp q13 1 = false ∧ 0 < 4 ∧ stlUp q13 0 = true ∧ (∀ (a : Nat), (stlPort q13 0).hbTxAt = some a → a + 10000 ≤ (tick 2000000000 q13).clk.mono) ∧ getF q13 F.STL_PORT_STAT_MODE 0 0 = 1 ∧ q13.twin.periodAt + 10000 ≤ (tick 2000000000 q13).clk.mono) ∧
    (twinUp q13 = true ∧ q13.twin.heard = false ∧ 7 ≤ q13.twin.miss ∧ (twinState q13 = 2 ∨ twinState q13 = 3 ∨ twinState q13 = 4 ∨ twinState q13 = 5) ∧ 1 < 2 ∧ bkpPort q13 1 = none ∧ 0 < 2 ∧ bkpPort q13 0 = some 8) ∧
    (portIsUp q13 8 = true ∧ macIdle q13 8 = true ∧ classPaused q13 8 7 = false ∧ (∀ (a : Nat), tget q13.twin.bkpTxAt 0 = some a → a + 100000 ≤ (tick 2000000000 q13).clk.mono) ∧ 0 < 768 ∧ beAt (hb 77 1) 0 1 ≠ 1 ∧ beAt (bk 2 0) 0 1 = 1 ∧ (¬((bkpPort q13 0 = some 0 ∨ bkpPort q13 1 = some 0) ∧ (beAt (bk 2 0) 8 8 = wide q13 RegName.PEER_SERIAL 0 2 ∨ wide q13 RegName.PEER_SERIAL 0 2 = 0 ∧ twinRole q13 ≠ 0)))) ∧
    (8 < 768 ∧ ((bkpPort q13 0 = some 8 ∨ bkpPort q13 1 = some 8) ∧ (beAt (bk 2 0) 8 8 = wide q13 RegName.PEER_SERIAL 0 2 ∨ wide q13 RegName.PEER_SERIAL 0 2 = 0 ∧ twinRole q13 ≠ 0)) ∧ q13.twin.bkpAt = some 2200000 ∧ bkpAlive q13 = true ∧ 2200000 + 800000 ≤ (tick 2000000000 q13).clk.mono ∧ (flag q13 F.TWIN_STAT_LINK_UP 0 0 = true ∨ twinState q13 < 2 ∨ 5 < twinState q13) ∧ (flag q13 F.TWIN_STAT_LINK_UP 0 0 = false ∨ twinUp q13 = true ∨ q13.twin.downSince = none) ∧ (twinState q13 ≠ 1 ∨ ¬getF q13 F.TWIN_STAT_EFF_ROLE 0 0 = 1 ∨ (tick 2000000000 q13).clk.mono < q13.twin.since + (q13.twin.tHold + q13.twin.tWarm) * 1000000)) ∧
    (twinState q13 = 2 ∧ flag q13 F.TWIN_STAT_LINK_UP 0 0 = true ∧ q13.twin.since + q13.twin.tWarm * 1000000 ≤ (tick 2000000000 q13).clk.mono ∧ (twinState q13 ≠ 4 ∨ (tick 2000000000 q13).clk.mono < q13.twin.lostAt.getD q13.twin.since + q13.twin.tHold * 1000000)) :=
  by refine ⟨?_, ?_, ?_, ?_, ?_⟩ <;> decide +kernel
theorem witness_TwinPair_2 :
    (Operating q9 ∧ q9.twin.periodAt + 10000 ≤ (tick 3000000000 q9).clk.mono ∧ (twinUp q9 = false ∨ q9.twin.heard = true) ∧ (q9.twin.bkpAt = none ∨ bkpAlive q9 = false) ∧ q9.twin.downSince = some 2900000 ∧ flag q9 F.TWIN_STAT_LINK_UP 0 0 = true ∧ twinUp q9 = false ∧ 2900000 + 100000 ≤ (tick 3000000000 q9).clk.mono) ∧
    (twinState q9 = 1 ∧ getF q9 F.TWIN_STAT_EFF_ROLE 0 0 = 1 ∧ q9.twin.since + (q9.twin.tHold + q9.twin.tWarm) * 1000000 ≤ (tick 3000000000 q9).clk.mono ∧ (twinState q9 ≠ 2 ∨ flag q9 F.TWIN_STAT_LINK_UP 0 0 = false ∨ (tick 3000000000 q9).clk.mono < q9.twin.since + q9.twin.tWarm * 1000000)) :=
  by refine ⟨?_, ?_⟩ <;> decide +kernel
theorem witness_TwinPair_3 :
    Operating (pUp 2 2 (setWide RegName.PEER_SERIAL 0 5 2 (role 0 (BK upB)))) ∧ 2 < 4 ∧ stlUp (pUp 2 2 (setWide RegName.PEER_SERIAL 0 5 2 (role 0 (BK upB)))) 2 = true ∧ getF (pUp 2 2 (setWide RegName.PEER_SERIAL 0 5 2 (role 0 (BK upB)))) F.STL_PORT_STAT_MODE 2 0 ≠ 1 ∧ (tick 5 (pUp 2 2 (setWide RegName.PEER_SERIAL 0 5 2 (role 0 (BK upB))))).clk.mono < (pUp 2 2 (setWide RegName.PEER_SERIAL 0 5 2 (role 0 (BK upB)))).twin.periodAt + 10000 :=
  by decide +kernel
theorem witness_TwinPair_4 :
    (Operating q4 ∧ 0 < 2 ∧ bkpPort q4 0 = some 8 ∧ (portIsUp q4 8 = false ∨ macIdle q4 8 = false ∨ classPaused q4 8 7 = true ∨ ∃ a, tget q4.twin.bkpTxAt 0 = some a ∧ (tick 1 q4).clk.mono < a + 100000) ∧ q4.twin.bkpAt = some 0 ∧ bkpAlive q4 = true ∧ (tick 1 q4).clk.mono < 0 + 800000 ∧ q4.twin.downSince = some 0) ∧
    (flag q4 F.TWIN_STAT_LINK_UP 0 0 = true ∧ twinUp q4 = false ∧ (tick 1 q4).clk.mono < 0 + 100000) :=
  by refine ⟨?_, ?_⟩ <;> decide +kernel
theorem witness_TwinPair_5 :
    Operating q26 ∧ twinState q26 = 4 ∧ q26.twin.lostAt.getD q26.twin.since + q26.twin.tHold * 1000000 ≤ (tick 1002000000 q26).clk.mono :=
  by decide +kernel
theorem witness_TwinPair_6 :
    Operating q17 ∧ q17.twin.bkpAt = some 2200000 ∧ bkpAlive q17 = true ∧ 2200000 + 800000 ≤ (tick 3000000 q17).clk.mono ∧ flag q17 F.TWIN_STAT_LINK_UP 0 0 = false ∧ (twinState q17 = 2 ∨ twinState q17 = 3 ∨ twinState q17 = 4 ∨ twinState q17 = 5) :=
  by decide +kernel
end Sys2Proof.Tests.T17
namespace Sys2Proof.Tests.T18
def pUp (n : Nat) (m : Nat) (s : State) : State := setF F.STL_PORT_STAT_UP n 0 1 (setF F.STL_PORT_STAT_LANES n 0 3 (setF F.STL_PORT_STAT_MODE n 0 m s))
def hbS : State := pUp 0 1 { upB with stl := { upB.stl with ports := [(0, { hbTxAt := some 7 })] } }
def ch (s : State) : State := setF F.CHAIN_STAT_CSTATE 0 0 2 (setF F.CHAIN_STAT_DEV_ID 0 0 9 (pUp 2 2 (pUp 3 2 { s with chain := { s.chain with members := [mem 4, { mem 5 with hopsW := 0xFFF, hopsE := 1, heardW := none, heardE := some 7 }] } })))
def c0 : State := ch upB
def badF : List Byte := (zeros 64)
def hd (kind ttl src dst : Nat) (rest : List Byte) : List Byte := chainHeader kind ttl false src dst 0 ++ rest
def tr (ttl : Nat) : List Byte := hd 0 ttl 4 77 (zeros 64)
def ann (src : Nat) : List Byte := hd 4 10 src 0xFFF (beBytes 4 123456 ++ beBytes 2 4 ++ beBytes 2 5 ++ zeros 40)
def tc (tod : Nat) : State := setF F.CHAIN_TIME_CFG_TIME_EN 0 0 1 { c0 with clk := { c0.clk with tod := tod } }
def tb (t1 t3 t4 : Nat) : List Byte := leBytes 8 0x66 ++ leBytes 8 t1 ++ leBytes 8 t3 ++ leBytes 8 t4
def pk (tgt op : Nat) : List Byte := leBytes 2 op ++ leBytes 1 1 ++ leBytes 1 1 ++ leBytes 4 99 ++ leBytes 2 tgt ++ zeros 22
def fw (k sb tg since : Nat) : Forwarded := { kind := k, sub := sb, tag := tg, target := 5, opcode := 1, since := since, ackReq := true, key := 2 ^ 64, port := 2, rbuf := 0, frame := [], nonce := 0 }
def v18_1 : State := { c0 with chain := { c0.chain with forwarded := [fw 0 1 7 5] } }
def lit18_1 : Member := { dev := (mem 5).dev, budget := (mem 5).budget, west := (mem 5).west, east := (mem 5).east, heardW := none, heardE := some 7, hopsW := 4095, hopsE := 1, extSrc := (mem 5).extSrc }

theorem witness_TwinPair :
    Operating hbS ∧ 0 < 4 ∧ (stlPort hbS 0).hbTxAt = some 7 ∧ (tick 10006 hbS).clk.mono < 7 + 10000 ∧ hbS.twin.periodAt + 10000 ≤ (tick 10006 hbS).clk.mono ∧ twinUp hbS = true ∧ hbS.twin.heard = false ∧ hbS.twin.miss + 1 < 8 :=
  by decide +kernel
theorem witness_ChainMembersAndFrames_1 :
    (Operating c0 ∧ 2 ≤ 2 ∧ 2 < 4 ∧ chainUp c0 2 = true ∧ devId c0 ≠ 0 ∧ (getF c0 F.CHAIN_STAT_CSTATE 0 0 = 1 ∨ getF c0 F.CHAIN_STAT_CSTATE 0 0 = 2) ∧ (∀ (a : Nat), (stlPort c0 2).annAt = some a → a + 1000000 ≤ (tick 5 c0).clk.mono) ∧ flag c0 F.STL_PORT_STAT_XOFF_RX 2 0 = false) ∧
    (chainHeaderOk badF = false ∧ chainHeaderOk (tr 0) = true ∧ beAt (tr 0) 0 1 % 16 ≠ 4 ∧ chainHeaderOk (ann 4) = true ∧ beAt (ann 4) 0 1 % 16 = 4 ∧ beAt (ann 4) 2 2 % 4096 ≠ devId c0 ∧ (∃ m, m ∈ c0.chain.members ∧ m.dev = beAt (ann 4) 2 2 % 4096) ∧ (beAt (ann 4) 4 2 % 4096 = devId c0 ∨ beAt (ann 4) 0 1 % 16 = 4)) ∧
    (beAt (tr 0) 4 2 % 4096 ≠ devId c0 ∧ beAt (tr 0) 1 1 ≤ 1 ∧ chainHeaderOk (tr 2) = true ∧ beAt (tr 2) 4 2 % 4096 ≠ devId c0 ∧ beAt (tr 2) 0 1 % 16 ≠ 4 ∧ 2 ≤ beAt (tr 2) 1 1 ∧ beAt (tr 2) 4 2 % 4096 ≠ 4095 ∧ c0.chain.refused.contains (beAt (tr 2) 2 2 % 4096) = false) ∧
    (tgetD c0.chain.transit 2 [] = [] ∧ stlUp c0 (5 - 2) = true ∧ getF c0 F.STL_PORT_STAT_MODE (5 - 2) 0 = 2 ∧ flag c0 F.STL_PORT_STAT_XOFF_RX (5 - 2) 0 = false ∧ getF c0 F.CHAIN_STAT_CSTATE 0 0 = 2 ∧ (∀ (a : Nat), (stlPort c0 2).timeAt = some a → a + 100000 ≤ (tick 5 c0).clk.mono) ∧ (getF c0 F.CHAIN_STAT_CSTATE 0 0 = 2 ∧ rootDev c0 ≠ devId c0 ∧ flag c0 F.CHAIN_TIME_CFG_TIME_EN 0 0 = true ∧ 2 = upstreamPort c0 (rootDev c0) ∧ leAt (ann 4) 16 8 ≠ 0) ∧ 1000 < ((((tick 5 c0).clk.tod : Int) - ((leAt (ann 4) 8 8) : Int) - (((leAt (ann 4) 24 8) : Int) - ((leAt (ann 4) 16 8) : Int))) / 2).natAbs) ∧
    ((¬(getF c0 F.CHAIN_STAT_CSTATE 0 0 = 2 ∧ rootDev c0 ≠ devId c0 ∧ flag c0 F.CHAIN_TIME_CFG_TIME_EN 0 0 = true ∧ 2 = upstreamPort c0 (rootDev c0) ∧ leAt (tr 0) 16 8 ≠ 0)) ∧ 2 ≠ devId c0 ∧ List.find? (fun m => m.dev == 2) c0.chain.members = none ∧ stlUp c0 2 = true ∧ (beAt (ann 4) 0 1 % 16 ≠ 2 ∧ beAt (ann 4) 0 1 % 16 ≠ 3 ∨ beAt (ann 4) 4 2 % 4096 ≠ devId c0) ∧ (∀ (f : Forwarded), f ∈ c0.chain.forwarded → f.kind = 2 → f.sub = 2 → f.tag = 2 → (tick 5 c0).clk.mono < f.since + 100000000)) :=
  by refine ⟨?_, ?_, ?_, ?_, ?_⟩ <;> decide +kernel
theorem witness_ChainMembersAndFrames_2 :
    Operating (tc 100000) ∧ 2 ≤ 2 ∧ 2 < 4 ∧ chainUp (tc 100000) 2 = true ∧ (getF (tc 100000) F.CHAIN_STAT_CSTATE 0 0 = 2 ∧ rootDev (tc 100000) ≠ devId (tc 100000) ∧ flag (tc 100000) F.CHAIN_TIME_CFG_TIME_EN 0 0 = true ∧ 2 = upstreamPort (tc 100000) (rootDev (tc 100000)) ∧ leAt (tb 100000 90000 89995) 16 8 ≠ 0) ∧ ((((tick 5 (tc 100000)).clk.tod : Int) - ((leAt (tb 100000 90000 89995) 8 8) : Int) - (((leAt (tb 100000 90000 89995) 24 8) : Int) - ((leAt (tb 100000 90000 89995) 16 8) : Int))) / 2).natAbs ≤ 1000 ∧ 1 < 4 ∧ stlUp (tc 100000) 1 = false :=
  by decide +kernel
theorem witness_ChainMembersAndFrames_3 :
    (Operating (pUp 0 1 c0) ∧ 2 < 4 ∧ stlUp (pUp 0 1 c0) 2 = true ∧ chainHeaderOk (hd 2 5 4 9 (pk 4095 1)) = true ∧ beAt (hd 2 5 4 9 (pk 4095 1)) 0 1 % 16 = 2 ∧ beAt (hd 2 5 4 9 (pk 4095 1)) 4 2 % 4096 = devId (pUp 0 1 c0) ∧ (pUp 0 1 c0).chain.refused.contains (beAt (hd 2 5 4 9 (pk 4095 1)) 2 2 % 4096) = false ∧ earlyChecks (pUp 0 1 c0) (if 2 < 2 then 3 else 4) (List.drop 16 (hd 2 5 4 9 (pk 4095 1))) (decide ((List.drop 16 (hd 2 5 4 9 (pk 4095 1))).length = 32 + 4 * pParamLen (List.drop 16 (hd 2 5 4 9 (pk 4095 1))))) = none) ∧
    (pTarget (List.drop 16 (hd 2 5 4 9 (pk 4095 1))) = 4095 ∧ firstReserved (List.drop 16 (hd 2 5 4 9 (pk 4095 1))) 32 (paramReserved (pOpcode (List.drop 16 (hd 2 5 4 9 (pk 4095 1)))) (List.drop 16 (hd 2 5 4 9 (pk 4095 1)))) = none ∧ (List.filter (fun x => x.kind == if 2 < 2 then 3 else 4) (pUp 0 1 c0).cmd.outstanding).length < share (if 2 < 2 then 3 else 4)) :=
  by refine ⟨?_, ?_⟩ <;> decide +kernel
theorem witness_ChainMembersAndFrames_4 :
    Operating upB ∧ 2 ≤ 2 ∧ 2 < 4 ∧ (chainUp upB 2 = false ∨ devId upB = 0 ∨ getF upB F.CHAIN_STAT_CSTATE 0 0 ≠ 1 ∧ getF upB F.CHAIN_STAT_CSTATE 0 0 ≠ 2 ∨ ∃ a, (stlPort upB 2).annAt = some a ∧ (tick 5 upB).clk.mono < a + 1000000) ∧ chainUp upB 2 = false ∧ (chainUp upB 2 = false ∨ getF upB F.CHAIN_STAT_CSTATE 0 0 ≠ 2 ∨ ∃ a, (stlPort upB 2).timeAt = some a ∧ (tick 5 upB).clk.mono < a + 100000) :=
  by decide +kernel
theorem witness_ChainMembersAndFrames_5 :
    Operating v18_1 ∧ v18_1.chain.forwarded = [fw 0 1 7 5] ∧ (fw 0 1 7 5).kind ≠ 5 ∧ (fw 0 1 7 5).since + 100000000 ≤ (tick 100000005 v18_1).clk.mono :=
  by decide +kernel
theorem witness_ChainMembersAndFrames_6 :
    Operating c0 ∧ 4 ≠ devId c0 ∧ List.find? (fun m => m.dev == 4) c0.chain.members = some (mem 4) ∧ (∀ (a : Nat), (mem 4).heardW = some a → a + 3000000 ≤ (tick 3000005 c0).clk.mono) ∧ (∀ (a : Nat), (mem 4).heardE = some a → a + 3000000 ≤ (tick 3000005 c0).clk.mono) :=
  by decide +kernel
theorem witness_ChainMembersAndFrames_7 :
    Operating (ch (setF F.STL_PORT_STAT_XOFF_RX 3 0 1 upB)) ∧ 2 ≤ 3 ∧ 3 < 4 ∧ chainUp (ch (setF F.STL_PORT_STAT_XOFF_RX 3 0 1 upB)) 3 = true ∧ devId (ch (setF F.STL_PORT_STAT_XOFF_RX 3 0 1 upB)) ≠ 0 ∧ (getF (ch (setF F.STL_PORT_STAT_XOFF_RX 3 0 1 upB)) F.CHAIN_STAT_CSTATE 0 0 = 1 ∨ getF (ch (setF F.STL_PORT_STAT_XOFF_RX 3 0 1 upB)) F.CHAIN_STAT_CSTATE 0 0 = 2) ∧ (∀ (a : Nat), (stlPort (ch (setF F.STL_PORT_STAT_XOFF_RX 3 0 1 upB)) 3).annAt = some a → a + 1000000 ≤ (tick 3000005 (ch (setF F.STL_PORT_STAT_XOFF_RX 3 0 1 upB))).clk.mono) ∧ flag (ch (setF F.STL_PORT_STAT_XOFF_RX 3 0 1 upB)) F.STL_PORT_STAT_XOFF_RX 3 0 = true :=
  by decide +kernel
theorem witness_ChainMembersAndFrames_8 :
    (Operating c0 ∧ 2 ≤ 2 ∧ 2 < 4 ∧ chainUp c0 2 = true ∧ chainHeaderOk (ann 4) = true ∧ beAt (ann 4) 0 1 % 16 = 4 ∧ devId c0 ≠ 0 ∧ beAt (ann 4) 2 2 % 4096 ≠ devId c0) ∧
    ((∃ m, m ∈ c0.chain.members ∧ m.dev = beAt (ann 4) 2 2 % 4096) ∧ lit18_1 ∈ c0.chain.members ∧ lit18_1.dev ≠ beAt (ann 4) 2 2 % 4096) :=
  by refine ⟨?_, ?_⟩ <;> decide +kernel
theorem witness_ChainMembersAndFrames_9 :
    Operating (tc 100000) ∧ 2 ≤ 2 ∧ 2 < 4 ∧ chainUp (tc 100000) 2 = true ∧ (getF (tc 100000) F.CHAIN_STAT_CSTATE 0 0 = 2 ∧ rootDev (tc 100000) ≠ devId (tc 100000) ∧ flag (tc 100000) F.CHAIN_TIME_CFG_TIME_EN 0 0 = true ∧ 2 = upstreamPort (tc 100000) (rootDev (tc 100000)) ∧ leAt (tb 99000 90000 88900) 16 8 ≠ 0) ∧ 1000 < ((((tick 5 (tc 100000)).clk.tod : Int) - ((leAt (tb 99000 90000 88900) 8 8) : Int) - (((leAt (tb 99000 90000 88900) 24 8) : Int) - ((leAt (tb 99000 90000 88900) 16 8) : Int))) / 2).natAbs :=
  by decide +kernel
end Sys2Proof.Tests.T18
namespace Sys2Proof.Tests.T19
def nextOf (o : Host.Outcome State Fault Refusal) (s : State) : State := match o with | .next z => z | _ => s
def one : State := { State.reset with pending := [.polStage h0, .varnishTrigger 5] }
def wrm : State := { up with boot := { up.boot with warmPending := true } }
def menv : MicroEnv := ⟨0, false, false⟩

theorem witness_StepRunsTheFrontCommand : one.pending = .polStage h0 :: [.varnishTrigger 5] := rfl
theorem witness_EveryCommandAnswers : (Instr.sysNop h0).wf = true := by decide +kernel
theorem witness_ResetEmptiesTables :
    (∃ t, Instr.rstN 5 = .rstN t ∧ up.boot.off = false) ∧ (∃ t, Instr.warmResetStart 5 = .warmResetStart t ∧ Operating wrm ∧ wrm.boot.warmPending = true) :=
  ⟨⟨5, rfl, by decide +kernel⟩, ⟨5, rfl, by decide +kernel, by decide +kernel⟩⟩
theorem witness_ScratchStaysCanonical : (∀ q, Scratch.wf (engine upB q).scratch = true) ∧ exec (.uNext 5 3 menv) upB = .next (nextOf (exec (.uNext 5 3 menv) upB) upB) :=
  ⟨fun _ => rfl, rfl⟩

/-- The worked example after R259: a write back of the word read before another event came clears nothing, and one of the word read after it clears both bits. -/
def macEvt : State := setReg .MAC_EVT 6 0 0x07000004 upB
def evKey : RegKey := ⟨.MAC_EVT, 6, 0⟩
theorem test_event_write_back :
    reg (raise Ev.MAC_TX_SHORT 6 0 macEvt) .MAC_EVT 6 0 = 0x08000005 ∧
    reg (clearEvents evKey 0x07000004 (raise Ev.MAC_TX_SHORT 6 0 macEvt)) .MAC_EVT 6 0 = 0x08000005 ∧
    reg (clearEvents evKey 0x08000005 (clearMark evKey (raise Ev.MAC_TX_SHORT 6 0 macEvt))) .MAC_EVT 6 0 = 0x08000000 := by decide +kernel
/-- The worked example after R33: PORT_START 0b0111_0001 gives ports of 4, 1, 1 and 2 lanes. -/
theorem test_port_start : widthAt 0x71 0 = 4 ∧ widthAt 0x71 4 = 1 ∧ widthAt 0x71 5 = 1 ∧ widthAt 0x71 6 = 2 := by decide +kernel
/-- The worked example of Chapter 1: the port at lane 437 lies in macro 54, which pipeline 18 serves. -/
theorem test_port_437 : 437 / 8 = 54 ∧ 437 % 8 = 5 ∧ homePipe State.reset 437 = 18 := by decide +kernel
/-- The reset word of GLB_SRC_MAP0 (Table 1.3). -/
theorem test_reset_word : reg State.reset .GLB_SRC_MAP0 0 0 = 0x1B130B03 := by decide +kernel
/-- A command in front of the queue runs, and leaves the rest (a step on an empty queue idles, log 1). -/
theorem test_step : (nextOf (step one) one).pending = [.varnishTrigger 5] ∧ step State.reset = .next State.reset := ⟨rfl, rfl⟩
end Sys2Proof.Tests.T19
namespace Sys2Proof.Tests.Wf
def fu : FuseParams := ⟨1, 1, 1⟩
def ky : TblKey := { table := 1, replace := false, static := false, chainWide := false, keyLen := 1, dataLen := 1, prefixLen := 1, key := 1, data := 1 }
def nx : TblNext := { table := 1, max := 1, staleOnly := false, chainWide := false, destFilter := false, originMask := 1, dest := 1, destMask := 1, cursor := 1, key := 1, keyMask := 1 }
def fl : TblFlush := { table := 1, kind := 1, inclStatic := false, keyFilter := false, value := 1, key := 1, keyMask := 1 }
def tc : TcamParams := { table := 1, actionId := 1, scope := 1, priority := 1, rangeEn := 1, data := 1, ranges := [(1, 1), (1, 1), (1, 1), (1, 1)], key := 1, mask := 1 }
def ps : PolSet := { dir := 1, pipe := 1, index := 1, en := true, tokenReset := 1, lenAdj := 1, rate := 1, burst := 1 }
def sh : ShpSet := { kind := 1, index := 1, en := true, tokenReset := 1, rate := 1, burst := 1 }
def nd : NodeSet := { kind := 1, index := 1, attach := 1, parent := 1, band := 1, weight := 1, cls := 1, lenAdj := 1 }
def mc : MacroCfg := { mac := 1, enable := true, directDrive := false, laneRate := 1, reach := 1, portStart := 1, anEn := 1, txLane := 1, rxLane := 1, txInv := 1, rxInv := 1, maxFrame := [1, 1, 1, 1, 1, 1, 1, 1] }
def gs : Gesso := { version := 1, minHitless := 1, formOk := true, digest := 1, sig := 1, owner := none, pipe := img, roles := [], store := [(0, 0, 0)] }
def ts : TargetSet := { target := 1, en := false, kind := 1, vlanEn := false, ipv6 := false, resume := false, port := 1, expRate := 1, expClass := 1, dscp := 1, srcMac := 1, dstMac := 1, vid := 1, pcp := 1, srcUdp := 1, srcIp := 1, dstIp := 1, dstUdp := 1, msgMax := 1, obsDomain := 1, destQp := 1, pmtu := 1, pKey := 1, rKey := 1, startPsn := 1, baseVa := 1, size := 1, gbase := 1 }

/-- `hdrOk` accepts a term in bounds and refuses one for each of its checks. -/
theorem test_hdrOk :
    hdrOk h0 = true ∧ [{ h0 with kind := 5 }, { h0 with sub := 4096 }, { h0 with serial := 2 ^ 64 }, { h0 with tag := 2 ^ 32 }].any hdrOk = false :=
  by decide +kernel
/-- `imageOk` accepts a term in bounds and refuses one for each of its checks. -/
theorem test_imageOk :
    imageOk gs = true ∧ [{ gs with version := 2 ^ 32 }, { gs with store := [(0, 8192, 0)] }, { gs with store := [(0, 0, 2 ^ 128)] }].any imageOk = false :=
  by decide +kernel
/-- `fuseOk` accepts a term in bounds and refuses one for each of its checks. -/
theorem test_fuseOk :
    fuseOk fu = true ∧ [{ fu with value := 2 ^ 32 }, { fu with key := 2 ^ 256 }, { fu with auth := 2 ^ 768 }].any fuseOk = false :=
  by decide +kernel
/-- `keyOk` accepts a term in bounds and refuses one for each of its checks. -/
theorem test_keyOk :
    keyOk ky = true ∧ [{ ky with table := 256 }, { ky with keyLen := 256 }, { ky with dataLen := 256 }, { ky with prefixLen := 256 }, { ky with key := 2 ^ 256 }, { ky with data := 2 ^ 256 }].any keyOk = false :=
  by decide +kernel
/-- `nextOk` accepts a term in bounds and refuses one for each of its checks. -/
theorem test_nextOk :
    nextOk nx = true ∧ [{ nx with table := 256 }, { nx with max := 256 }, { nx with originMask := 4 }, { nx with dest := 65536 }, { nx with destMask := 65536 }, { nx with cursor := 2 ^ 64 }, { nx with key := 2 ^ 128 }, { nx with keyMask := 2 ^ 128 }].any nextOk = false :=
  by decide +kernel
/-- `flushOk` accepts a term in bounds and refuses one for each of its checks. -/
theorem test_flushOk :
    flushOk fl = true ∧ [{ fl with table := 256 }, { fl with kind := 256 }, { fl with value := 65536 }, { fl with key := 2 ^ 128 }, { fl with keyMask := 2 ^ 128 }].any flushOk = false :=
  by decide +kernel
/-- `tcamOk` accepts a term in bounds and refuses one for each of its checks. -/
theorem test_tcamOk :
    tcamOk tc = true ∧ [{ tc with table := 256 }, { tc with actionId := 256 }, { tc with scope := 65536 }, { tc with priority := 2 ^ 24 }, { tc with rangeEn := 16 }, { tc with data := 2 ^ 128 }, { tc with ranges := [] }, { tc with ranges := [(65536, 1), (1, 1), (1, 1), (1, 1)] }, { tc with ranges := [(1, 65536), (1, 1), (1, 1), (1, 1)] }, { tc with key := 2 ^ 640 }, { tc with mask := 2 ^ 640 }].any tcamOk = false :=
  by decide +kernel
/-- `polOk` accepts a term in bounds and refuses one for each of its checks. -/
theorem test_polOk :
    polOk ps = true ∧ [{ ps with dir := 256 }, { ps with pipe := 256 }, { ps with index := 65536 }, { ps with tokenReset := 256 }, { ps with lenAdj := -129 }, { ps with lenAdj := 128 }, { ps with rate := 2 ^ 32 }, { ps with burst := 65536 }].any polOk = false :=
  by decide +kernel
/-- `shpOk` accepts a term in bounds and refuses one for each of its checks. -/
theorem test_shpOk :
    shpOk sh = true ∧ [{ sh with kind := 256 }, { sh with index := 2 ^ 32 }, { sh with tokenReset := 256 }, { sh with rate := 2 ^ 32 }, { sh with burst := 65536 }].any shpOk = false :=
  by decide +kernel
/-- `nodeOk` accepts a term in bounds and refuses one for each of its checks. -/
theorem test_nodeOk :
    nodeOk nd = true ∧ [{ nd with kind := 256 }, { nd with index := 2 ^ 32 }, { nd with attach := 256 }, { nd with parent := 65536 }, { nd with band := 256 }, { nd with weight := 65536 }, { nd with cls := 256 }, { nd with lenAdj := -129 }, { nd with lenAdj := 128 }].any nodeOk = false :=
  by decide +kernel
/-- `macroOk` accepts a term in bounds and refuses one for each of its checks. -/
theorem test_macroOk :
    macroOk mc = true ∧ [{ mc with mac := 256 }, { mc with laneRate := 256 }, { mc with reach := 256 }, { mc with portStart := 256 }, { mc with anEn := 256 }, { mc with txLane := 2 ^ 24 }, { mc with rxLane := 2 ^ 24 }, { mc with txInv := 256 }, { mc with rxInv := 256 }, { mc with maxFrame := [] }, { mc with maxFrame := [65536, 1, 1, 1, 1, 1, 1, 1] }].any macroOk = false :=
  by decide +kernel
/-- `targetOk` accepts a term in bounds and refuses one for each of its checks. -/
theorem test_targetOk :
    targetOk ts = true ∧ [{ ts with target := 256 }, { ts with kind := 2 }, { ts with port := 65536 }, { ts with expRate := 65536 }, { ts with expClass := 256 }, { ts with dscp := 256 }, { ts with srcMac := 2 ^ 48 }, { ts with dstMac := 2 ^ 48 }, { ts with vid := 4096 }, { ts with pcp := 8 }, { ts with srcUdp := 65536 }, { ts with srcIp := 2 ^ 128 }, { ts with dstIp := 2 ^ 128 }, { ts with dstUdp := 65536 }, { ts with msgMax := 65536 }, { ts with obsDomain := 2 ^ 32 }, { ts with destQp := 2 ^ 24 }, { ts with pmtu := 256 }, { ts with pKey := 65536 }, { ts with rKey := 2 ^ 32 }, { ts with startPsn := 2 ^ 24 }, { ts with baseVa := 2 ^ 64 }, { ts with size := 2 ^ 64 }, { ts with gbase := 2 ^ 64 }].any targetOk = false :=
  by decide +kernel
theorem test_frameOk : frameOk ⟨List.replicate 16384 0⟩ = true ∧ frameOk ⟨List.replicate 16385 0⟩ = false := by decide +kernel
theorem test_tempOk : tempOk 32767 = true ∧ tempOk 32768 = false ∧ tempOk (-32768) = true ∧ tempOk (-32769) = false := by decide +kernel
theorem test_barOk : barOk 0x3FFFFFF = true ∧ barOk 0x4000000 = false ∧ barOk 0x10000000 = true ∧ barOk 0x10100000 = false := by decide +kernel
/-- Well-formed and ill-formed terms of sysInfo to fuseProgramPowerCeiling. -/
theorem test_wf_1 :
    Instr.wf (.sysInfo h0) = true ∧
    Instr.wf (.sysInfo { h0 with kind := 5 }) = false ∧
    Instr.wf (.sysNop h0) = true ∧
    Instr.wf (.sysNop { h0 with kind := 5 }) = false ∧
    Instr.wf (.sysProgress h0 1 1) = true ∧
    Instr.wf (.sysProgress { h0 with kind := 5 } 1 1) = false ∧
    Instr.wf (.sysProgress h0 0x100000000 1) = false ∧
    Instr.wf (.sysProgress h0 1 65536) = false ∧
    Instr.wf (.objLock h0 1 1) = true ∧
    Instr.wf (.objLock { h0 with kind := 5 } 1 1) = false ∧
    Instr.wf (.objLock h0 256 1) = false ∧
    Instr.wf (.objLock h0 1 0x100000000) = false ∧
    Instr.wf (.objUnlock h0 1) = true ∧
    Instr.wf (.objUnlock { h0 with kind := 5 } 1) = false ∧
    Instr.wf (.objUnlock h0 256) = false ∧
    Instr.wf (.objLockQuery h0) = true ∧
    Instr.wf (.objLockQuery { h0 with kind := 5 }) = false ∧
    Instr.wf (.sysWarmReset h0 1) = true ∧
    Instr.wf (.sysWarmReset { h0 with kind := 5 } 1) = false ∧
    Instr.wf (.sysWarmReset h0 0x100000000) = false ∧
    Instr.wf (.fuseProgramPowerCeiling h0 fu) = true ∧
    Instr.wf (.fuseProgramPowerCeiling { h0 with kind := 5 } fu) = false ∧
    Instr.wf (.fuseProgramPowerCeiling h0 { fu with value := 2 ^ 32 }) = false := by decide +kernel
/-- Well-formed and ill-formed terms of fuseProgramOwnerEnrol to tblSearch. -/
theorem test_wf_2 :
    Instr.wf (.fuseProgramOwnerEnrol h0 fu) = true ∧
    Instr.wf (.fuseProgramOwnerEnrol { h0 with kind := 5 } fu) = false ∧
    Instr.wf (.fuseProgramOwnerEnrol h0 { fu with value := 2 ^ 32 }) = false ∧
    Instr.wf (.fuseProgramOwnerEnrol h0 { fu with value := 256 }) = false ∧
    Instr.wf (.fuseProgramOwnerRevoke h0 { fu with value := 256 }) = true ∧
    Instr.wf (.fuseProgramOwnerRevoke { h0 with kind := 5 } { fu with value := 256 }) = false ∧
    Instr.wf (.fuseProgramOwnerRevoke h0 { fu with value := 2 ^ 32 }) = false ∧
    Instr.wf (.fuseProgramOwnerRevoke h0 fu) = false ∧
    Instr.wf (.fuseProgramLaneLicense h0 fu) = true ∧
    Instr.wf (.fuseProgramLaneLicense { h0 with kind := 5 } fu) = false ∧
    Instr.wf (.fuseProgramLaneLicense h0 { fu with value := 2 ^ 32 }) = false ∧
    Instr.wf (.fuseProgramInbandKey h0 fu) = true ∧
    Instr.wf (.fuseProgramInbandKey { h0 with kind := 5 } fu) = false ∧
    Instr.wf (.fuseProgramInbandKey h0 { fu with value := 2 ^ 32 }) = false ∧
    Instr.wf (.fuseLogRead h0 1) = true ∧
    Instr.wf (.fuseLogRead { h0 with kind := 5 } 1) = false ∧
    Instr.wf (.fuseLogRead h0 0x100000000) = false ∧
    Instr.wf (.tblInsert h0 ky) = true ∧
    Instr.wf (.tblInsert { h0 with kind := 5 } ky) = false ∧
    Instr.wf (.tblInsert h0 { ky with table := 256 }) = false ∧
    Instr.wf (.tblInsert h0 { ky with chainWide := true }) = false ∧
    Instr.wf (.tblDelete h0 ky) = true ∧
    Instr.wf (.tblDelete { h0 with kind := 5 } ky) = false ∧
    Instr.wf (.tblDelete h0 { ky with table := 256 }) = false ∧
    Instr.wf (.tblDelete h0 { ky with chainWide := true }) = false ∧
    Instr.wf (.tblSearch h0 ky) = true ∧
    Instr.wf (.tblSearch { h0 with kind := 5 } ky) = false ∧
    Instr.wf (.tblSearch h0 { ky with table := 256 }) = false ∧
    Instr.wf (.tblSearch h0 { ky with chainWide := true }) = false := by decide +kernel
/-- Well-formed and ill-formed terms of tblSearchChainWide to mcGroupRead. -/
theorem test_wf_3 :
    Instr.wf (.tblSearchChainWide h0 { ky with chainWide := true }) = true ∧
    Instr.wf (.tblSearchChainWide { h0 with kind := 5 } { ky with chainWide := true }) = false ∧
    Instr.wf (.tblSearchChainWide h0 { ky with table := 256 }) = false ∧
    Instr.wf (.tblSearchChainWide h0 ky) = false ∧
    Instr.wf (.tblNext h0 nx) = true ∧
    Instr.wf (.tblNext { h0 with kind := 5 } nx) = false ∧
    Instr.wf (.tblNext h0 { nx with table := 256 }) = false ∧
    Instr.wf (.tblNext h0 { nx with chainWide := true }) = false ∧
    Instr.wf (.tblNextChainWide h0 { nx with chainWide := true }) = true ∧
    Instr.wf (.tblNextChainWide { h0 with kind := 5 } { nx with chainWide := true }) = false ∧
    Instr.wf (.tblNextChainWide h0 { nx with table := 256 }) = false ∧
    Instr.wf (.tblNextChainWide h0 nx) = false ∧
    Instr.wf (.tblFlushPort h0 fl) = true ∧
    Instr.wf (.tblFlushPort { h0 with kind := 5 } fl) = false ∧
    Instr.wf (.tblFlushPort h0 { fl with table := 256 }) = false ∧
    Instr.wf (.tblRehash h0 1 1) = true ∧
    Instr.wf (.tblRehash { h0 with kind := 5 } 1 1) = false ∧
    Instr.wf (.tblRehash h0 256 1) = false ∧
    Instr.wf (.tblRehash h0 1 0x100000000) = false ∧
    Instr.wf (.tblAgeCfg h0 1 false 1 1 1) = true ∧
    Instr.wf (.tblAgeCfg { h0 with kind := 5 } 1 false 1 1 1) = false ∧
    Instr.wf (.tblAgeCfg h0 256 false 1 1 1) = false ∧
    Instr.wf (.tblAgeCfg h0 1 false 65536 1 1) = false ∧
    Instr.wf (.tblAgeCfg h0 1 false 1 65536 1) = false ∧
    Instr.wf (.tblAgeCfg h0 1 false 1 1 65536) = false ∧
    Instr.wf (.mcGroupWrite h0 1 1 false []) = true ∧
    Instr.wf (.mcGroupWrite { h0 with kind := 5 } 1 1 false []) = false ∧
    Instr.wf (.mcGroupWrite h0 65536 1 false []) = false ∧
    Instr.wf (.mcGroupWrite h0 1 65536 false []) = false ∧
    Instr.wf (.mcGroupWrite h0 1 1 false (List.replicate 49 0)) = false ∧
    Instr.wf (.mcGroupWrite h0 1 1 false [0x100000000]) = false ∧
    Instr.wf (.mcGroupRead h0 1 1 1) = true ∧
    Instr.wf (.mcGroupRead { h0 with kind := 5 } 1 1 1) = false ∧
    Instr.wf (.mcGroupRead h0 65536 1 1) = false ∧
    Instr.wf (.mcGroupRead h0 1 65536 1) = false ∧
    Instr.wf (.mcGroupRead h0 1 1 256) = false := by decide +kernel
/-- Well-formed and ill-formed terms of polStage to polSet. -/
theorem test_wf_4 :
    Instr.wf (.polStage h0) = true ∧
    Instr.wf (.polStage { h0 with kind := 5 }) = false ∧
    Instr.wf (.polCommit h0) = true ∧
    Instr.wf (.polCommit { h0 with kind := 5 }) = false ∧
    Instr.wf (.polAbort h0) = true ∧
    Instr.wf (.polAbort { h0 with kind := 5 }) = false ∧
    Instr.wf (.tcamInsert h0 tc) = true ∧
    Instr.wf (.tcamInsert { h0 with kind := 5 } tc) = false ∧
    Instr.wf (.tcamInsert h0 { tc with table := 256 }) = false ∧
    Instr.wf (.tcamDelete h0 1) = true ∧
    Instr.wf (.tcamDelete { h0 with kind := 5 } 1) = false ∧
    Instr.wf (.tcamDelete h0 0x100000000) = false ∧
    Instr.wf (.tcamRead h0 1) = true ∧
    Instr.wf (.tcamRead { h0 with kind := 5 } 1) = false ∧
    Instr.wf (.tcamRead h0 0x100000000) = false ∧
    Instr.wf (.tcamNext h0 1 1 1) = true ∧
    Instr.wf (.tcamNext { h0 with kind := 5 } 1 1 1) = false ∧
    Instr.wf (.tcamNext h0 256 1 1) = false ∧
    Instr.wf (.tcamNext h0 1 256 1) = false ∧
    Instr.wf (.tcamNext h0 1 1 0x100000000) = false ∧
    Instr.wf (.polSet h0 ps) = true ∧
    Instr.wf (.polSet { h0 with kind := 5 } ps) = false ∧
    Instr.wf (.polSet h0 { ps with dir := 256 }) = false := by decide +kernel
/-- Well-formed and ill-formed terms of polGet to telTargetDisable. -/
theorem test_wf_5 :
    Instr.wf (.polGet h0 1 1 1) = true ∧
    Instr.wf (.polGet { h0 with kind := 5 } 1 1 1) = false ∧
    Instr.wf (.polGet h0 256 1 1) = false ∧
    Instr.wf (.polGet h0 1 256 1) = false ∧
    Instr.wf (.polGet h0 1 1 65536) = false ∧
    Instr.wf (.shpSet h0 sh) = true ∧
    Instr.wf (.shpSet { h0 with kind := 5 } sh) = false ∧
    Instr.wf (.shpSet h0 { sh with kind := 256 }) = false ∧
    Instr.wf (.schNodeSet h0 nd) = true ∧
    Instr.wf (.schNodeSet { h0 with kind := 5 } nd) = false ∧
    Instr.wf (.schNodeSet h0 { nd with kind := 256 }) = false ∧
    Instr.wf (.schNodeDetach h0 1 1) = true ∧
    Instr.wf (.schNodeDetach { h0 with kind := 5 } 1 1) = false ∧
    Instr.wf (.schNodeDetach h0 256 1) = false ∧
    Instr.wf (.schNodeDetach h0 1 0x100000000) = false ∧
    Instr.wf (.portMacroCfg h0 mc) = true ∧
    Instr.wf (.portMacroCfg { h0 with kind := 5 } mc) = false ∧
    Instr.wf (.portMacroCfg h0 { mc with mac := 256 }) = false ∧
    Instr.wf (.portMacroDisable h0 1) = true ∧
    Instr.wf (.portMacroDisable { h0 with kind := 5 } 1) = false ∧
    Instr.wf (.portMacroDisable h0 256) = false ∧
    Instr.wf (.telTargetSet h0 ts) = true ∧
    Instr.wf (.telTargetSet { h0 with kind := 5 } ts) = false ∧
    Instr.wf (.telTargetSet h0 { ts with target := 256 }) = false ∧
    Instr.wf (.telTargetDisable h0 1) = true ∧
    Instr.wf (.telTargetDisable { h0 with kind := 5 } 1) = false ∧
    Instr.wf (.telTargetDisable h0 256) = false := by decide +kernel
/-- Well-formed and ill-formed terms of telFlowFlush to pwrModeSet. -/
theorem test_wf_6 :
    Instr.wf (.telFlowFlush h0) = true ∧
    Instr.wf (.telFlowFlush { h0 with kind := 5 }) = false ∧
    Instr.wf (.cntRead h0 1 1 1) = true ∧
    Instr.wf (.cntRead { h0 with kind := 5 } 1 1 1) = false ∧
    Instr.wf (.cntRead h0 256 1 1) = false ∧
    Instr.wf (.cntRead h0 1 256 1) = false ∧
    Instr.wf (.cntRead h0 1 1 0x100000000) = false ∧
    Instr.wf (.cntVfPermit h0 1 1 false 1 1) = true ∧
    Instr.wf (.cntVfPermit { h0 with kind := 5 } 1 1 false 1 1) = false ∧
    Instr.wf (.cntVfPermit h0 256 1 false 1 1) = false ∧
    Instr.wf (.cntVfPermit h0 1 256 false 1 1) = false ∧
    Instr.wf (.cntVfPermit h0 1 1 false 65536 1) = false ∧
    Instr.wf (.cntVfPermit h0 1 1 false 1 65536) = false ∧
    Instr.wf (.cntVfQuery h0 1) = true ∧
    Instr.wf (.cntVfQuery { h0 with kind := 5 } 1) = false ∧
    Instr.wf (.cntVfQuery h0 256) = false ∧
    Instr.wf (.swatchTake h0 1) = true ∧
    Instr.wf (.swatchTake { h0 with kind := 5 } 1) = false ∧
    Instr.wf (.swatchTake h0 0x10000000000000000) = false ∧
    Instr.wf (.swatchRelease h0 1) = true ∧
    Instr.wf (.swatchRelease { h0 with kind := 5 } 1) = false ∧
    Instr.wf (.swatchRelease h0 0x100000000) = false ∧
    Instr.wf (.pwrCapSet h0 1) = true ∧
    Instr.wf (.pwrCapSet { h0 with kind := 5 } 1) = false ∧
    Instr.wf (.pwrCapSet h0 65536) = false ∧
    Instr.wf (.pwrModeSet h0 1) = true ∧
    Instr.wf (.pwrModeSet { h0 with kind := 5 } 1) = false ∧
    Instr.wf (.pwrModeSet h0 256) = false := by decide +kernel
/-- Well-formed and ill-formed terms of pwrThreshSet to fltInject. -/
theorem test_wf_7 :
    Instr.wf (.pwrThreshSet h0 1 1 1 1) = true ∧
    Instr.wf (.pwrThreshSet { h0 with kind := 5 } 1 1 1 1) = false ∧
    Instr.wf (.pwrThreshSet h0 256 1 1 1) = false ∧
    Instr.wf (.pwrThreshSet h0 1 256 1 1) = false ∧
    Instr.wf (.pwrThreshSet h0 1 1 256 1) = false ∧
    Instr.wf (.pwrThreshSet h0 1 1 1 256) = false ∧
    Instr.wf (.pwrStatus h0) = true ∧
    Instr.wf (.pwrStatus { h0 with kind := 5 }) = false ∧
    Instr.wf (.pwrCoefRead h0) = true ∧
    Instr.wf (.pwrCoefRead { h0 with kind := 5 }) = false ∧
    Instr.wf (.pipeReturn h0 1 1) = true ∧
    Instr.wf (.pipeReturn { h0 with kind := 5 } 1 1) = false ∧
    Instr.wf (.pipeReturn h0 256 1) = false ∧
    Instr.wf (.pipeReturn h0 1 256) = false ∧
    Instr.wf (.bankReturn h0 1) = true ∧
    Instr.wf (.bankReturn { h0 with kind := 5 } 1) = false ∧
    Instr.wf (.bankReturn h0 256) = false ∧
    Instr.wf (.varnishArm h0 1) = true ∧
    Instr.wf (.varnishArm { h0 with kind := 5 } 1) = false ∧
    Instr.wf (.varnishArm h0 65536) = false ∧
    Instr.wf (.varnishDisarm h0 1) = true ∧
    Instr.wf (.varnishDisarm { h0 with kind := 5 } 1) = false ∧
    Instr.wf (.varnishDisarm h0 65536) = false ∧
    Instr.wf (.fltInject h0 1) = true ∧
    Instr.wf (.fltInject { h0 with kind := 5 } 1) = false ∧
    Instr.wf (.fltInject h0 65536) = false := by decide +kernel
/-- Well-formed and ill-formed terms of macroReturn to fwStage. -/
theorem test_wf_8 :
    Instr.wf (.macroReturn h0 1) = true ∧
    Instr.wf (.macroReturn { h0 with kind := 5 } 1) = false ∧
    Instr.wf (.macroReturn h0 256) = false ∧
    Instr.wf (.stlPortCfg h0 1 1 1 false false) = true ∧
    Instr.wf (.stlPortCfg { h0 with kind := 5 } 1 1 1 false false) = false ∧
    Instr.wf (.stlPortCfg h0 256 1 1 false false) = false ∧
    Instr.wf (.stlPortCfg h0 1 256 1 false false) = false ∧
    Instr.wf (.stlPortCfg h0 1 1 256 false false) = false ∧
    Instr.wf (.twinCfg h0 1 1 1 1 1) = true ∧
    Instr.wf (.twinCfg { h0 with kind := 5 } 1 1 1 1 1) = false ∧
    Instr.wf (.twinCfg h0 256 1 1 1 1) = false ∧
    Instr.wf (.twinCfg h0 1 65536 1 1 1) = false ∧
    Instr.wf (.twinCfg h0 1 1 0x100000000 1 1) = false ∧
    Instr.wf (.twinCfg h0 1 1 1 65536 1) = false ∧
    Instr.wf (.twinCfg h0 1 1 1 1 65536) = false ∧
    Instr.wf (.chainCfg h0 1 1) = true ∧
    Instr.wf (.chainCfg { h0 with kind := 5 } 1 1) = false ∧
    Instr.wf (.chainCfg h0 65536 1) = false ∧
    Instr.wf (.chainCfg h0 1 0x100000000) = false ∧
    Instr.wf (.chainMembers h0 1) = true ∧
    Instr.wf (.chainMembers { h0 with kind := 5 } 1) = false ∧
    Instr.wf (.chainMembers h0 65536) = false ∧
    Instr.wf (.twinStatus h0) = true ∧
    Instr.wf (.twinStatus { h0 with kind := 5 }) = false ∧
    Instr.wf (.fwInfo h0) = true ∧
    Instr.wf (.fwInfo { h0 with kind := 5 }) = false ∧
    Instr.wf (.fwStage h0 1 1 1 gs) = true ∧
    Instr.wf (.fwStage { h0 with kind := 5 } 1 1 1 gs) = false ∧
    Instr.wf (.fwStage h0 256 1 1 gs) = false ∧
    Instr.wf (.fwStage h0 1 0x100000000 1 gs) = false ∧
    Instr.wf (.fwStage h0 1 1 0x10000000000000000 gs) = false ∧
    Instr.wf (.fwStage h0 1 1 1 { gs with version := 2 ^ 32 }) = false := by decide +kernel
/-- Well-formed and ill-formed terms of fwActivate to registerWrite. -/
theorem test_wf_9 :
    Instr.wf (.fwActivate h0 0) = true ∧
    Instr.wf (.fwActivate { h0 with kind := 5 } 0) = false ∧
    Instr.wf (.fwActivate h0 256) = false ∧
    Instr.wf (.fwActivate h0 1) = false ∧
    Instr.wf (.fwActivateNextReset h0) = true ∧
    Instr.wf (.fwActivateNextReset { h0 with kind := 5 }) = false ∧
    Instr.wf (.fwFlashWrite h0 1) = true ∧
    Instr.wf (.fwFlashWrite { h0 with kind := 5 } 1) = false ∧
    Instr.wf (.fwFlashWrite h0 256) = false ∧
    Instr.wf (.engReturn h0 1) = true ∧
    Instr.wf (.engReturn { h0 with kind := 5 } 1) = false ∧
    Instr.wf (.engReturn h0 256) = false ∧
    Instr.wf (.commandDispatch 1 1) = true ∧
    Instr.wf (.commandDispatch 1 64) = false ∧
    Instr.wf (.progressReply 1 1) = true ∧
    Instr.wf (.progressReply 1 0x10000000000000000) = false ∧
    Instr.wf (.lockExpired 1 1) = true ∧
    Instr.wf (.lockExpired 1 8) = false ∧
    Instr.wf (.registerWrite 1 1 4 0) = true ∧
    Instr.wf (.registerWrite 1 0x4000000 4 0) = false ∧
    Instr.wf (.registerWrite 1 0x10100000 4 0) = false ∧
    Instr.wf (.registerWrite 1 1 0 0) = false ∧
    Instr.wf (.registerWrite 1 1 5 0) = false := by decide +kernel
/-- Well-formed and ill-formed terms of unmappedAccess to parseCfgWrite. -/
theorem test_wf_10 :
    Instr.wf (.unmappedAccess 1 1 false) = true ∧
    Instr.wf (.unmappedAccess 1 0x4000000 false) = false ∧
    Instr.wf (.unmappedAccess 1 0x10100000 false) = false ∧
    Instr.wf (.eventRegClear 1 1 0) = true ∧
    Instr.wf (.eventRegClear 1 0x4000000 0) = false ∧
    Instr.wf (.eventRegClear 1 0x10100000 0) = false ∧
    Instr.wf (.wideShadowRead 1 1) = true ∧
    Instr.wf (.wideShadowRead 1 0x4000000) = false ∧
    Instr.wf (.wideShadowRead 1 0x10100000) = false ∧
    Instr.wf (.wideFieldWrite 1 1 0) = true ∧
    Instr.wf (.wideFieldWrite 1 0x4000000 0) = false ∧
    Instr.wf (.wideFieldWrite 1 0x10100000 0) = false ∧
    Instr.wf (.tsPopRead 1 1) = true ∧
    Instr.wf (.tsPopRead 1 96) = false ∧
    Instr.wf (.srcMapWrite 1 1 0) = true ∧
    Instr.wf (.srcMapWrite 1 2 0) = false ∧
    Instr.wf (.srcMoveDone 1 1) = true ∧
    Instr.wf (.srcMoveDone 1 5) = false ∧
    Instr.wf (.parseCfgWrite 1 1 0) = true ∧
    Instr.wf (.parseCfgWrite 1 5 0) = false := by decide +kernel
/-- Well-formed and ill-formed terms of poolSizeWrite to ringReset. -/
theorem test_wf_11 :
    Instr.wf (.poolSizeWrite 1 1 0) = true ∧
    Instr.wf (.poolSizeWrite 1 0x4000000 0) = false ∧
    Instr.wf (.poolSizeWrite 1 0x10100000 0) = false ∧
    Instr.wf (.windowUsWrite 1 1 0) = true ∧
    Instr.wf (.windowUsWrite 1 773 0) = false ∧
    Instr.wf (.laneTxeqWrite 1 1 1 0) = true ∧
    Instr.wf (.laneTxeqWrite 1 100 1 0) = false ∧
    Instr.wf (.laneTxeqWrite 1 1 8 0) = false ∧
    Instr.wf (.rearm 1 1 1) = true ∧
    Instr.wf (.rearm 1 101 1) = false ∧
    Instr.wf (.rearm 1 1 8) = false ∧
    Instr.wf (.txSquelch 1 1 1 false) = true ∧
    Instr.wf (.txSquelch 1 101 1 false) = false ∧
    Instr.wf (.txSquelch 1 1 8 false) = false ∧
    Instr.wf (.todSet 1 1) = true ∧
    Instr.wf (.todSet 1 0x10000000000000000) = false ∧
    Instr.wf (.ringEnable 1 1 0) = true ∧
    Instr.wf (.ringEnable 1 64 0) = false ∧
    Instr.wf (.ringReset 1 1) = true ∧
    Instr.wf (.ringReset 1 64) = false := by decide +kernel
/-- Well-formed and ill-formed terms of ringResetDone to sampleConsWrite. -/
theorem test_wf_12 :
    Instr.wf (.ringResetDone 1 1) = true ∧
    Instr.wf (.ringResetDone 1 64) = false ∧
    Instr.wf (.ringTailWrite 1 1 1 []) = true ∧
    Instr.wf (.ringTailWrite 1 64 1 []) = false ∧
    Instr.wf (.ringTailWrite 1 1 32768 []) = false ∧
    Instr.wf (.cmdRingEnable 1 1 0) = true ∧
    Instr.wf (.cmdRingEnable 1 16 0) = false ∧
    Instr.wf (.cmdRingReset 1 1) = true ∧
    Instr.wf (.cmdRingReset 1 16) = false ∧
    Instr.wf (.sqTailWrite 1 1 1 []) = true ∧
    Instr.wf (.sqTailWrite 1 16 1 []) = false ∧
    Instr.wf (.sqTailWrite 1 1 4096 []) = false ∧
    Instr.wf (.sqTailWrite 1 1 1 [[0]]) = false ∧
    Instr.wf (.cqHeadWrite 1 1 1) = true ∧
    Instr.wf (.cqHeadWrite 1 16 1) = false ∧
    Instr.wf (.cqHeadWrite 1 1 4096) = false ∧
    Instr.wf (.sampleRingEnable 1 1 0) = true ∧
    Instr.wf (.sampleRingEnable 1 8 0) = false ∧
    Instr.wf (.sampleConsWrite 1 1 1) = true ∧
    Instr.wf (.sampleConsWrite 1 8 1) = false ∧
    Instr.wf (.sampleConsWrite 1 1 0x100000000) = false := by decide +kernel
/-- Well-formed and ill-formed terms of coalTimer to inbandCommandRx. -/
theorem test_wf_13 :
    Instr.wf (.coalTimer 1 false 1) = true ∧
    Instr.wf (.coalTimer 1 false 64) = false ∧
    Instr.wf (.hostReset 1 1) = true ∧
    Instr.wf (.hostReset 1 4) = false ∧
    Instr.wf (.bootStageDone 1 none none) = true ∧
    Instr.wf (.bootStageDone 1 (some { gs with version := 2 ^ 32 }) none) = false ∧
    Instr.wf (.bootStageDone 1 none (some { gs with version := 2 ^ 32 })) = false ∧
    Instr.wf (.railFault 1 1) = true ∧
    Instr.wf (.railFault 1 6) = false ∧
    Instr.wf (.scanDomain 1 1 1 1) = true ∧
    Instr.wf (.scanDomain 1 0 1 1) = false ∧
    Instr.wf (.scanDomain 1 26 1 1) = false ∧
    Instr.wf (.bmcAddrWrite 1 1) = true ∧
    Instr.wf (.bmcAddrWrite 1 0x100000000) = false ∧
    Instr.wf (.bmcCommandWrite 1 []) = true ∧
    Instr.wf (.bmcCommandWrite 1 (List.replicate 256 0)) = false ∧
    Instr.wf (.inbandCommandRx 1 1 ⟨[]⟩) = true ∧
    Instr.wf (.inbandCommandRx 1 768 ⟨[]⟩) = false ∧
    Instr.wf (.inbandCommandRx 1 1 ⟨List.replicate 16385 0⟩) = false := by decide +kernel
/-- Well-formed and ill-formed terms of inbandReplyTx to portUp. -/
theorem test_wf_14 :
    Instr.wf (.inbandReplyTx 1 1) = true ∧
    Instr.wf (.inbandReplyTx 1 768) = false ∧
    Instr.wf (.frameRx 1 1 ⟨[]⟩ ⟨false, false⟩ ⟨1, 1⟩) = true ∧
    Instr.wf (.frameRx 1 768 ⟨[]⟩ ⟨false, false⟩ ⟨1, 1⟩) = false ∧
    Instr.wf (.frameRx 1 1 ⟨List.replicate 16385 0⟩ ⟨false, false⟩ ⟨1, 1⟩) = false ∧
    Instr.wf (.pfcFrameRx 1 1 1 1 []) = true ∧
    Instr.wf (.pfcFrameRx 1 768 1 1 []) = false ∧
    Instr.wf (.pfcFrameRx 1 1 65536 1 []) = false ∧
    Instr.wf (.pfcFrameRx 1 1 1 65536 []) = false ∧
    Instr.wf (.pfcFrameRx 1 1 1 1 [65536]) = false ∧
    Instr.wf (.pauseTimerExpire 1 1 1) = true ∧
    Instr.wf (.pauseTimerExpire 1 768 1) = false ∧
    Instr.wf (.pauseTimerExpire 1 1 8) = false ∧
    Instr.wf (.pfcFrameTx 1 1) = true ∧
    Instr.wf (.pfcFrameTx 1 768) = false ∧
    Instr.wf (.pfcRefresh 1 1) = true ∧
    Instr.wf (.pfcRefresh 1 768) = false ∧
    Instr.wf (.rxTailError 1 1 false) = true ∧
    Instr.wf (.rxTailError 1 768 false) = false ∧
    Instr.wf (.portUp 1 1) = true ∧
    Instr.wf (.portUp 1 768) = false := by decide +kernel
/-- Well-formed and ill-formed terms of portDown to shortRetry. -/
theorem test_wf_15 :
    Instr.wf (.portDown 1 ⟨1, false⟩) = true ∧
    Instr.wf (.portDown 1 ⟨768, false⟩) = false ∧
    Instr.wf (.anRestart 1 1) = true ∧
    Instr.wf (.anRestart 1 768) = false ∧
    Instr.wf (.ltFail 1 1) = true ∧
    Instr.wf (.ltFail 1 768) = false ∧
    Instr.wf (.serdesWakeDone 1 1) = true ∧
    Instr.wf (.serdesWakeDone 1 100) = false ∧
    Instr.wf (.rampComplete 1 1 1) = true ∧
    Instr.wf (.rampComplete 1 101 1) = false ∧
    Instr.wf (.rampComplete 1 1 8) = false ∧
    Instr.wf (.txTrip 1 1 1) = true ∧
    Instr.wf (.txTrip 1 101 1) = false ∧
    Instr.wf (.txTrip 1 1 8) = false ∧
    Instr.wf (.ocGlitch 1 1 1) = true ∧
    Instr.wf (.ocGlitch 1 101 1) = false ∧
    Instr.wf (.ocGlitch 1 1 8) = false ∧
    Instr.wf (.shortRetry 1 1 1) = true ∧
    Instr.wf (.shortRetry 1 101 1) = false ∧
    Instr.wf (.shortRetry 1 1 8) = false := by decide +kernel
/-- Well-formed and ill-formed terms of retryClear to detachDone. -/
theorem test_wf_16 :
    Instr.wf (.retryClear 1 1 1) = true ∧
    Instr.wf (.retryClear 1 101 1) = false ∧
    Instr.wf (.retryClear 1 1 8) = false ∧
    Instr.wf (.pipelineEntry 1 1) = true ∧
    Instr.wf (.pipelineEntry 1 32) = false ∧
    Instr.wf (.actionResolve 1 ⟨1, 1⟩) = true ∧
    Instr.wf (.actionResolve 1 ⟨(2 ^ 32), 1⟩) = false ∧
    Instr.wf (.actionResolve 1 ⟨1, (2 ^ 32)⟩) = false ∧
    Instr.wf (.schedSelect 1 1) = true ∧
    Instr.wf (.schedSelect 1 773) = false ∧
    Instr.wf (.shaperRelease 1 1 1) = true ∧
    Instr.wf (.shaperRelease 1 1 1000000) = false ∧
    Instr.wf (.pfcWdDrop 1 1 1) = true ∧
    Instr.wf (.pfcWdDrop 1 768 1) = false ∧
    Instr.wf (.pfcWdDrop 1 1 8) = false ∧
    Instr.wf (.pfcWdRestore 1 1 1) = true ∧
    Instr.wf (.pfcWdRestore 1 768 1) = false ∧
    Instr.wf (.pfcWdRestore 1 1 8) = false ∧
    Instr.wf (.detachDone 1 0 1) = true ∧
    Instr.wf (.detachDone 1 0 1000000) = false ∧
    Instr.wf (.detachDone 1 1 1) = false := by decide +kernel
/-- Well-formed and ill-formed terms of agingTick to wireFault. -/
theorem test_wf_17 :
    Instr.wf (.agingTick 1 1) = true ∧
    Instr.wf (.agingTick 1 64) = false ∧
    Instr.wf (.rehashDone 1 1) = true ∧
    Instr.wf (.rehashDone 1 64) = false ∧
    Instr.wf (.residualRetry 1 1) = true ∧
    Instr.wf (.residualRetry 1 64) = false ∧
    Instr.wf (.flushDone 1 1) = true ∧
    Instr.wf (.flushDone 1 64) = false ∧
    Instr.wf (.epochExpire 1 1) = true ∧
    Instr.wf (.epochExpire 1 16) = false ∧
    Instr.wf (.scrubVisit 1 1 1) = true ∧
    Instr.wf (.scrubVisit 1 32 1) = false ∧
    Instr.wf (.scrubVisit 1 1 0x100000000) = false ∧
    Instr.wf (.scopeCopyDone 1 1 1) = true ∧
    Instr.wf (.scopeCopyDone 1 4 1) = false ∧
    Instr.wf (.scopeCopyDone 1 1 1000) = false ∧
    Instr.wf (.wireFault 1 1) = true ∧
    Instr.wf (.wireFault 1 0x60A) = false := by decide +kernel
/-- Well-formed and ill-formed terms of memCe to thermSample. -/
theorem test_wf_18 :
    Instr.wf (.memCe 1 1 1 1) = true ∧
    Instr.wf (.memCe 1 1 128 1) = false ∧
    Instr.wf (.memCe 1 1 1 0x100000000) = false ∧
    Instr.wf (.memUe 1 1 1 1) = true ∧
    Instr.wf (.memUe 1 1 128 1) = false ∧
    Instr.wf (.memUe 1 1 1 0x100000000) = false ∧
    Instr.wf (.pipeQuarantine 1 1 1) = true ∧
    Instr.wf (.pipeQuarantine 1 2 1) = false ∧
    Instr.wf (.pipeQuarantine 1 1 32) = false ∧
    Instr.wf (.bankDrainDone 1 1) = true ∧
    Instr.wf (.bankDrainDone 1 128) = false ∧
    Instr.wf (.macroPllLoss 1 1) = true ∧
    Instr.wf (.macroPllLoss 1 96) = false ∧
    Instr.wf (.tileLinkRetry 1 1 false 1) = true ∧
    Instr.wf (.tileLinkRetry 1 8 false 1) = false ∧
    Instr.wf (.tileLinkDown 1 1) = true ∧
    Instr.wf (.tileLinkDown 1 8) = false ∧
    Instr.wf (.thermSample 1 (List.replicate 64 0)) = true ∧
    Instr.wf (.thermSample 1 (List.replicate 63 0)) = false ∧
    Instr.wf (.thermSample 1 (List.replicate 64 32768)) = false ∧
    Instr.wf (.thermSample 1 (List.replicate 64 (-32769))) = false := by decide +kernel
/-- Well-formed and ill-formed terms of sensorCheck to uBrt. -/
theorem test_wf_19 :
    Instr.wf (.sensorCheck 1 (List.replicate 64 0)) = true ∧
    Instr.wf (.sensorCheck 1 (List.replicate 63 0)) = false ∧
    Instr.wf (.sensorCheck 1 (List.replicate 64 32768)) = false ∧
    Instr.wf (.sensorCheck 1 (List.replicate 64 (-32769))) = false ∧
    Instr.wf (.droopDetect 1 2) = true ∧
    Instr.wf (.droopDetect 1 1) = false ∧
    Instr.wf (.droopDetect 1 11) = false ∧
    Instr.wf (.ageingReadout 1 (List.replicate 96 0)) = true ∧
    Instr.wf (.ageingReadout 1 (List.replicate 95 0)) = false ∧
    Instr.wf (.unitSleep 1 1 1) = true ∧
    Instr.wf (.unitSleep 1 4 1) = false ∧
    Instr.wf (.unitSleep 1 1 1000) = false ∧
    Instr.wf (.unitWake 1 1 1) = true ∧
    Instr.wf (.unitWake 1 4 1) = false ∧
    Instr.wf (.unitWake 1 1 1000) = false ∧
    Instr.wf (.uNext 1 1 ⟨0, false, false⟩) = true ∧
    Instr.wf (.uNext 1 64 ⟨0, false, false⟩) = false ∧
    Instr.wf (.uNext 1 1 ⟨3, false, false⟩) = false ∧
    Instr.wf (.uBr 1 1 ⟨0, false, false⟩) = true ∧
    Instr.wf (.uBr 1 64 ⟨0, false, false⟩) = false ∧
    Instr.wf (.uBr 1 1 ⟨3, false, false⟩) = false ∧
    Instr.wf (.uBrt 1 1 ⟨0, false, false⟩) = true ∧
    Instr.wf (.uBrt 1 64 ⟨0, false, false⟩) = false ∧
    Instr.wf (.uBrt 1 1 ⟨3, false, false⟩) = false := by decide +kernel
/-- Well-formed and ill-formed terms of uBrf to uAdd. -/
theorem test_wf_20 :
    Instr.wf (.uBrf 1 1 ⟨0, false, false⟩) = true ∧
    Instr.wf (.uBrf 1 64 ⟨0, false, false⟩) = false ∧
    Instr.wf (.uBrf 1 1 ⟨3, false, false⟩) = false ∧
    Instr.wf (.uCall 1 1 ⟨0, false, false⟩) = true ∧
    Instr.wf (.uCall 1 64 ⟨0, false, false⟩) = false ∧
    Instr.wf (.uCall 1 1 ⟨3, false, false⟩) = false ∧
    Instr.wf (.uRet 1 1 ⟨0, false, false⟩) = true ∧
    Instr.wf (.uRet 1 64 ⟨0, false, false⟩) = false ∧
    Instr.wf (.uRet 1 1 ⟨3, false, false⟩) = false ∧
    Instr.wf (.uUret 1 1 ⟨0, false, false⟩) = true ∧
    Instr.wf (.uUret 1 64 ⟨0, false, false⟩) = false ∧
    Instr.wf (.uUret 1 1 ⟨3, false, false⟩) = false ∧
    Instr.wf (.uWait 1 1 ⟨0, false, false⟩) = true ∧
    Instr.wf (.uWait 1 64 ⟨0, false, false⟩) = false ∧
    Instr.wf (.uWait 1 1 ⟨3, false, false⟩) = false ∧
    Instr.wf (.uHalt 1 1 ⟨0, false, false⟩) = true ∧
    Instr.wf (.uHalt 1 64 ⟨0, false, false⟩) = false ∧
    Instr.wf (.uHalt 1 1 ⟨3, false, false⟩) = false ∧
    Instr.wf (.uPassA 1 1 ⟨0, false, false⟩) = true ∧
    Instr.wf (.uPassA 1 64 ⟨0, false, false⟩) = false ∧
    Instr.wf (.uPassA 1 1 ⟨3, false, false⟩) = false ∧
    Instr.wf (.uAdd 1 1 ⟨0, false, false⟩) = true ∧
    Instr.wf (.uAdd 1 64 ⟨0, false, false⟩) = false ∧
    Instr.wf (.uAdd 1 1 ⟨3, false, false⟩) = false := by decide +kernel
/-- Well-formed and ill-formed terms of uSubtract to uMinimum. -/
theorem test_wf_21 :
    Instr.wf (.uSubtract 1 1 ⟨0, false, false⟩) = true ∧
    Instr.wf (.uSubtract 1 64 ⟨0, false, false⟩) = false ∧
    Instr.wf (.uSubtract 1 1 ⟨3, false, false⟩) = false ∧
    Instr.wf (.uAnd 1 1 ⟨0, false, false⟩) = true ∧
    Instr.wf (.uAnd 1 64 ⟨0, false, false⟩) = false ∧
    Instr.wf (.uAnd 1 1 ⟨3, false, false⟩) = false ∧
    Instr.wf (.uOr 1 1 ⟨0, false, false⟩) = true ∧
    Instr.wf (.uOr 1 64 ⟨0, false, false⟩) = false ∧
    Instr.wf (.uOr 1 1 ⟨3, false, false⟩) = false ∧
    Instr.wf (.uXor 1 1 ⟨0, false, false⟩) = true ∧
    Instr.wf (.uXor 1 64 ⟨0, false, false⟩) = false ∧
    Instr.wf (.uXor 1 1 ⟨3, false, false⟩) = false ∧
    Instr.wf (.uShiftLeft 1 1 ⟨0, false, false⟩) = true ∧
    Instr.wf (.uShiftLeft 1 64 ⟨0, false, false⟩) = false ∧
    Instr.wf (.uShiftLeft 1 1 ⟨3, false, false⟩) = false ∧
    Instr.wf (.uShiftRight 1 1 ⟨0, false, false⟩) = true ∧
    Instr.wf (.uShiftRight 1 64 ⟨0, false, false⟩) = false ∧
    Instr.wf (.uShiftRight 1 1 ⟨3, false, false⟩) = false ∧
    Instr.wf (.uArithmeticShiftRight 1 1 ⟨0, false, false⟩) = true ∧
    Instr.wf (.uArithmeticShiftRight 1 64 ⟨0, false, false⟩) = false ∧
    Instr.wf (.uArithmeticShiftRight 1 1 ⟨3, false, false⟩) = false ∧
    Instr.wf (.uMinimum 1 1 ⟨0, false, false⟩) = true ∧
    Instr.wf (.uMinimum 1 64 ⟨0, false, false⟩) = false ∧
    Instr.wf (.uMinimum 1 1 ⟨3, false, false⟩) = false := by decide +kernel
/-- Well-formed and ill-formed terms of uMaximum to uStoreScratch. -/
theorem test_wf_22 :
    Instr.wf (.uMaximum 1 1 ⟨0, false, false⟩) = true ∧
    Instr.wf (.uMaximum 1 64 ⟨0, false, false⟩) = false ∧
    Instr.wf (.uMaximum 1 1 ⟨3, false, false⟩) = false ∧
    Instr.wf (.uMultiply 1 1 ⟨0, false, false⟩) = true ∧
    Instr.wf (.uMultiply 1 64 ⟨0, false, false⟩) = false ∧
    Instr.wf (.uMultiply 1 1 ⟨3, false, false⟩) = false ∧
    Instr.wf (.uCrc32cStep 1 1 ⟨0, false, false⟩) = true ∧
    Instr.wf (.uCrc32cStep 1 64 ⟨0, false, false⟩) = false ∧
    Instr.wf (.uCrc32cStep 1 1 ⟨3, false, false⟩) = false ∧
    Instr.wf (.uPopulationCount 1 1 ⟨0, false, false⟩) = true ∧
    Instr.wf (.uPopulationCount 1 64 ⟨0, false, false⟩) = false ∧
    Instr.wf (.uPopulationCount 1 1 ⟨3, false, false⟩) = false ∧
    Instr.wf (.uCompare 1 1 ⟨0, false, false⟩) = true ∧
    Instr.wf (.uCompare 1 64 ⟨0, false, false⟩) = false ∧
    Instr.wf (.uCompare 1 1 ⟨3, false, false⟩) = false ∧
    Instr.wf (.uDeposit 1 1 ⟨0, false, false⟩) = true ∧
    Instr.wf (.uDeposit 1 64 ⟨0, false, false⟩) = false ∧
    Instr.wf (.uDeposit 1 1 ⟨3, false, false⟩) = false ∧
    Instr.wf (.uLoadScratch 1 1 ⟨0, false, false⟩) = true ∧
    Instr.wf (.uLoadScratch 1 64 ⟨0, false, false⟩) = false ∧
    Instr.wf (.uLoadScratch 1 1 ⟨3, false, false⟩) = false ∧
    Instr.wf (.uStoreScratch 1 1 ⟨0, false, false⟩) = true ∧
    Instr.wf (.uStoreScratch 1 64 ⟨0, false, false⟩) = false ∧
    Instr.wf (.uStoreScratch 1 1 ⟨3, false, false⟩) = false := by decide +kernel
/-- Well-formed and ill-formed terms of uLoadEngineBus to taskMigrated. -/
theorem test_wf_23 :
    Instr.wf (.uLoadEngineBus 1 1 ⟨0, false, false⟩) = true ∧
    Instr.wf (.uLoadEngineBus 1 64 ⟨0, false, false⟩) = false ∧
    Instr.wf (.uLoadEngineBus 1 1 ⟨3, false, false⟩) = false ∧
    Instr.wf (.uStoreEngineBus 1 1 ⟨0, false, false⟩) = true ∧
    Instr.wf (.uStoreEngineBus 1 64 ⟨0, false, false⟩) = false ∧
    Instr.wf (.uStoreEngineBus 1 1 ⟨3, false, false⟩) = false ∧
    Instr.wf (.uPopWorkQueue 1 1 ⟨0, false, false⟩) = true ∧
    Instr.wf (.uPopWorkQueue 1 64 ⟨0, false, false⟩) = false ∧
    Instr.wf (.uPopWorkQueue 1 1 ⟨3, false, false⟩) = false ∧
    Instr.wf (.uPushWorkQueue 1 1 ⟨0, false, false⟩) = true ∧
    Instr.wf (.uPushWorkQueue 1 64 ⟨0, false, false⟩) = false ∧
    Instr.wf (.uPushWorkQueue 1 1 ⟨3, false, false⟩) = false ∧
    Instr.wf (.uWatchdogAck 1 1 ⟨0, false, false⟩) = true ∧
    Instr.wf (.uWatchdogAck 1 64 ⟨0, false, false⟩) = false ∧
    Instr.wf (.uWatchdogAck 1 1 ⟨3, false, false⟩) = false ∧
    Instr.wf (.engWatchdog 1 1) = true ∧
    Instr.wf (.engWatchdog 1 64) = false ∧
    Instr.wf (.engFailed 1 1 1) = true ∧
    Instr.wf (.engFailed 1 64 1) = false ∧
    Instr.wf (.engFailed 1 1 0) = false ∧
    Instr.wf (.engFailed 1 1 6) = false ∧
    Instr.wf (.taskMigrated 1 1) = true ∧
    Instr.wf (.taskMigrated 1 64) = false := by decide +kernel
/-- Well-formed and ill-formed terms of periodicSlice to cpuRxDeliver. -/
theorem test_wf_24 :
    Instr.wf (.periodicSlice 1 1) = true ∧
    Instr.wf (.periodicSlice 1 64) = false ∧
    Instr.wf (.overrun 1 1) = true ∧
    Instr.wf (.overrun 1 64) = false ∧
    Instr.wf (.fwRollback 1 1) = true ∧
    Instr.wf (.fwRollback 1 64) = false ∧
    Instr.wf (.batchComplete 1 1) = true ∧
    Instr.wf (.batchComplete 1 16) = false ∧
    Instr.wf (.exportFrameTx 1 1) = true ∧
    Instr.wf (.exportFrameTx 1 16) = false ∧
    Instr.wf (.rateWindowEnd 1 1) = true ∧
    Instr.wf (.rateWindowEnd 1 773) = false ∧
    Instr.wf (.sampleDma 1 1) = true ∧
    Instr.wf (.sampleDma 1 8) = false ∧
    Instr.wf (.cpuRxDeliver 1 1 1) = true ∧
    Instr.wf (.cpuRxDeliver 1 32 1) = false := by decide +kernel
/-- Well-formed and ill-formed terms of rxHoldExpire to laneAdapted. -/
theorem test_wf_25 :
    Instr.wf (.rxHoldExpire 1 1) = true ∧
    Instr.wf (.rxHoldExpire 1 48) = false ∧
    Instr.wf (.codewordRx 1 1 1 false false 1) = true ∧
    Instr.wf (.codewordRx 1 4 1 false false 1) = false ∧
    Instr.wf (.codewordRx 1 1 8 false false 1) = false ∧
    Instr.wf (.stlBlockRx 1 1 (List.replicate 33 0)) = true ∧
    Instr.wf (.stlBlockRx 1 4 (List.replicate 33 0)) = false ∧
    Instr.wf (.stlBlockRx 1 1 (List.replicate 32 0)) = false ∧
    Instr.wf (.stlFrameRx 1 1 1 ⟨[]⟩ false) = true ∧
    Instr.wf (.stlFrameRx 1 4 1 ⟨[]⟩ false) = false ∧
    Instr.wf (.stlFrameRx 1 1 8 ⟨[]⟩ false) = false ∧
    Instr.wf (.stlFrameRx 1 1 1 ⟨List.replicate 16385 0⟩ false) = false ∧
    Instr.wf (.flowRx 1 1 1) = true ∧
    Instr.wf (.flowRx 1 4 1) = false ∧
    Instr.wf (.flowRx 1 1 256) = false ∧
    Instr.wf (.flowTx 1 1) = true ∧
    Instr.wf (.flowTx 1 4) = false ∧
    Instr.wf (.xoffLapse 1 1) = true ∧
    Instr.wf (.xoffLapse 1 4) = false ∧
    Instr.wf (.laneAdapted 1 1 1) = true ∧
    Instr.wf (.laneAdapted 1 4 1) = false ∧
    Instr.wf (.laneAdapted 1 1 8) = false := by decide +kernel
/-- Well-formed and ill-formed terms of adaptRestart to hbRx. -/
theorem test_wf_26 :
    Instr.wf (.adaptRestart 1 1 1) = true ∧
    Instr.wf (.adaptRestart 1 4 1) = false ∧
    Instr.wf (.adaptRestart 1 1 8) = false ∧
    Instr.wf (.laneAligned 1 1 1 1 false false) = true ∧
    Instr.wf (.laneAligned 1 4 1 1 false false) = false ∧
    Instr.wf (.laneAligned 1 1 8 1 false false) = false ∧
    Instr.wf (.laneAligned 1 1 1 8 false false) = false ∧
    Instr.wf (.resizeTimeout 1 1) = true ∧
    Instr.wf (.resizeTimeout 1 4) = false ∧
    Instr.wf (.laneRestore 1 1) = true ∧
    Instr.wf (.laneRestore 1 4) = false ∧
    Instr.wf (.refMismatch 1 1 1 0) = true ∧
    Instr.wf (.refMismatch 1 4 1 0) = false ∧
    Instr.wf (.refMismatch 1 1 8 0) = false ∧
    Instr.wf (.lastGaspRx 1 1 1 1) = true ∧
    Instr.wf (.lastGaspRx 1 4 1 1) = false ∧
    Instr.wf (.lastGaspRx 1 1 16 1) = false ∧
    Instr.wf (.lastGaspRx 1 1 1 0x10000000000000000) = false ∧
    Instr.wf (.hbTx 1 1) = true ∧
    Instr.wf (.hbTx 1 4) = false ∧
    Instr.wf (.hbRx 1 1 []) = true ∧
    Instr.wf (.hbRx 1 4 []) = false := by decide +kernel
/-- Well-formed and ill-formed terms of bkpHbTx to timeBlockTx. -/
theorem test_wf_27 :
    Instr.wf (.bkpHbTx 1 1) = true ∧
    Instr.wf (.bkpHbTx 1 2) = false ∧
    Instr.wf (.bkpHbRx 1 1 []) = true ∧
    Instr.wf (.bkpHbRx 1 768 []) = false ∧
    Instr.wf (.announceTx 1 2) = true ∧
    Instr.wf (.announceTx 1 1) = false ∧
    Instr.wf (.announceTx 1 4) = false ∧
    Instr.wf (.announceRx 1 2 []) = true ∧
    Instr.wf (.announceRx 1 1 []) = false ∧
    Instr.wf (.announceRx 1 4 []) = false ∧
    Instr.wf (.memberExpire 1 1) = true ∧
    Instr.wf (.memberExpire 1 4096) = false ∧
    Instr.wf (.chainTransit 1 2 []) = true ∧
    Instr.wf (.chainTransit 1 1 []) = false ∧
    Instr.wf (.chainTransit 1 4 []) = false ∧
    Instr.wf (.chainCommandRx 1 1 []) = true ∧
    Instr.wf (.chainCommandRx 1 4 []) = false ∧
    Instr.wf (.timeBlockTx 1 2) = true ∧
    Instr.wf (.timeBlockTx 1 1) = false ∧
    Instr.wf (.timeBlockTx 1 4) = false := by decide +kernel
/-- Well-formed and ill-formed terms of timeBlockRx to registerRead. -/
theorem test_wf_28 :
    Instr.wf (.timeBlockRx 1 2 []) = true ∧
    Instr.wf (.timeBlockRx 1 1 []) = false ∧
    Instr.wf (.timeBlockRx 1 4 []) = false ∧
    Instr.wf (.railGood 1 1) = true ∧
    Instr.wf (.railGood 1 6) = false ∧
    Instr.wf (.pcieLinkUp 1 4 1) = true ∧
    Instr.wf (.pcieLinkUp 1 3 1) = false ∧
    Instr.wf (.pcieLinkUp 1 7 1) = false ∧
    Instr.wf (.pcieLinkUp 1 4 3) = false ∧
    Instr.wf (.stlRxSignal 1 1 1 false) = true ∧
    Instr.wf (.stlRxSignal 1 4 1 false) = false ∧
    Instr.wf (.stlRxSignal 1 1 8 false) = false ∧
    Instr.wf (.pcsLock 1 1) = true ∧
    Instr.wf (.pcsLock 1 768) = false ∧
    Instr.wf (.anComplete 1 ⟨1, ⟨100, 1, true, true, false⟩⟩) = true ∧
    Instr.wf (.anComplete 1 ⟨768, ⟨100, 1, true, true, false⟩⟩) = false ∧
    Instr.wf (.anComplete 1 ⟨1, { (⟨100, 1, true, true, false⟩ : BasePage) with gbps := 2001 }⟩) = false ∧
    Instr.wf (.anComplete 1 ⟨1, { (⟨100, 1, true, true, false⟩ : BasePage) with width := 9 }⟩) = false ∧
    Instr.wf (.linkTrainingDone 1 1 []) = true ∧
    Instr.wf (.linkTrainingDone 1 768 []) = false ∧
    Instr.wf (.linkTrainingDone 1 1 (List.replicate 9 0)) = false ∧
    Instr.wf (.linkTrainingDone 1 1 [0x40000000]) = false ∧
    Instr.wf (.registerRead 1 1 1) = true ∧
    Instr.wf (.registerRead 1 0x4000000 1) = false ∧
    Instr.wf (.registerRead 1 0x10100000 1) = false ∧
    Instr.wf (.registerRead 1 1 0) = false ∧
    Instr.wf (.registerRead 1 1 4097) = false := by decide +kernel
/-- Well-formed and ill-formed terms of vfCounterRead to engSelfTestDone. -/
theorem test_wf_29 :
    Instr.wf (.vfCounterRead 1 1 ⟨1, 1⟩) = true ∧
    Instr.wf (.vfCounterRead 1 64 ⟨1, 1⟩) = false ∧
    Instr.wf (.vfCounterRead 1 1 ⟨1, 0⟩) = false ∧
    Instr.wf (.vfCounterRead 1 1 ⟨0x400000, 1⟩) = false ∧
    Instr.wf (.entdaa 1 1) = true ∧
    Instr.wf (.entdaa 1 128) = false ∧
    Instr.wf (.returnTestDone 1 1 1 false) = true ∧
    Instr.wf (.returnTestDone 1 3 1 false) = false ∧
    Instr.wf (.returnTestDone 1 1 1000 false) = false ∧
    Instr.wf (.engSelfTestDone 1 1 false) = true ∧
    Instr.wf (.engSelfTestDone 1 64 false) = false := by decide +kernel
end Sys2Proof.Tests.Wf

end
end

section
/-! SUPPORT. What the end of copies, records and frames at a port can change (R26, R45, R158, R177, R180): nothing but the registers of `endingRegs`, and of the rest of the state what `OnlyEnded` lists. -/

namespace Sys2Proof.Machine

open Sys2Proof.Safety

variable {keys : List RegKey} {s z y : State}

/-- The registers that the end of a copy or of a frame can change: those of an event, the counts a closed record leaves, depths, pools and priority groups, pause, and the epochs' counts. -/
def endingRegs : List RegName :=
  [.PAL_DROP_CNT, .SMP_DROP, .DEV_LEVEL, .FLOW_EVICT, .PC_SENT, .PC_LIMITED, .METER_MERGED_CNT, .REC_OVF, .QUEUE_DEPTH0, .QUEUE_DEPTH1,
   .CPU_QUEUE_DEPTH, .PAL_POOL_USED, .PAL_HP_USED, .PAL_STAT0, .PAL_STAT1, .PG_STAT0, .PG_STAT1, .PORT_STAT, .EPOCH_INFLIGHT] ++ eventRegs

/-- Two states that differ only in registers, the ports' records, the Palette, the queues, telemetry, command and host state, faults and what has left the device. -/
def OnlyEnded (s s' : State) : Prop :=
  ∃ r p l d e c k f o, s' = { s with rf := r, port := { s.port with ports := p }, pal := l, sched := d, tele := e, cmd := c, host := k, flt := f, out := o }

/-- A state that may follow another where copies and frames end: of the registers, those of `endingRegs` and the listed ones may have changed. -/
def Ended (keys : List RegKey) (s s' : State) : Prop := OnlyEnded s s' ∧ RegsKeptExcept keys endingRegs s s'

theorem OnlyStruck.ended (h : OnlyStruck s z) : OnlyEnded s z := by
  obtain ⟨r, o, f, p, d, e, rfl⟩ := h
  exact ⟨_, _, _, _, _, _, _, _, _, rfl⟩

theorem OnlyWords.ended (h : OnlyWords s z) : OnlyEnded s z := h.sent.struck.ended

namespace Ended

/-- A change of no register. -/
theorem silent (h : OnlyEnded s z) (hr : z.rf = s.rf) : Ended keys s z :=
  ⟨h, fun n i j _ _ => reg_congr (congrArg RegFile.words hr) n i j⟩

theorem refl (s : State) : Ended keys s s := silent ⟨_, _, _, _, _, _, _, _, _, rfl⟩ rfl

theorem trans (h1 : Ended keys s z) (h2 : Ended keys z y) : Ended keys s y := by
  obtain ⟨⟨r1, p1, l1, d1, e1, c1, k1, f1, o1, rfl⟩, hr1⟩ := h1
  obtain ⟨⟨r2, p2, l2, d2, e2, c2, k2, f2, o2, rfl⟩, hr2⟩ := h2
  exact ⟨⟨_, _, _, _, _, _, _, _, _, rfl⟩, fun n i j hk hn => (hr2 n i j hk hn).trans (hr1 n i j hk hn)⟩

theorem pal (x : PaletteState) : Ended keys s { s with pal := x } := silent ⟨_, _, _, _, _, _, _, _, _, rfl⟩ rfl
theorem sched (x : SchedState) : Ended keys s { s with sched := x } := silent ⟨_, _, _, _, _, _, _, _, _, rfl⟩ rfl
theorem tele (x : TeleState) : Ended keys s { s with tele := x } := silent ⟨_, _, _, _, _, _, _, _, _, rfl⟩ rfl
theorem cmd (x : CmdState) : Ended keys s { s with cmd := x } := silent ⟨_, _, _, _, _, _, _, _, _, rfl⟩ rfl
theorem host (x : HostState) : Ended keys s { s with host := x } := silent ⟨_, _, _, _, _, _, _, _, _, rfl⟩ rfl
theorem emit (o : Out) : Ended keys s (emit o s) := silent ⟨_, _, _, _, _, _, _, _, _, rfl⟩ rfl
theorem setPortRt (p : Nat) (x : PortRt) : Ended keys s (setPortRt p x s) := silent ⟨_, _, _, _, _, _, _, _, _, rfl⟩ rfl

theorem setF (f : Fld) (i j v : Nat) (h : f.reg ∈ endingRegs := by decide) : Ended keys s (setF f i j v s) :=
  ⟨(OnlyWords.setF ..).ended, fun _ _ _ _ hn => reg_setF_of s (ne_of_mem_of_not_mem h hn) ..⟩

/-- A write of a listed register. -/
theorem setKey (f : Fld) (i j v : Nat) (h : ⟨f.reg, i, j⟩ ∈ keys) : Ended keys s (Machine.setF f i j v s) :=
  ⟨(OnlyWords.setF ..).ended, fun n' i' j' hk _ => reg_setF_ne s f n' i j i' j' v fun e => hk (by obtain ⟨rfl, rfl, rfl⟩ := e; exact h)⟩

theorem bump (n : RegName) (i j k : Nat) (h : n ∈ endingRegs := by decide) : Ended keys s (bump n i j k s) :=
  ⟨(OnlyWords.bump ..).ended, fun _ _ _ _ hn => reg_bump_of s (ne_of_mem_of_not_mem h hn) ..⟩

theorem raise (ev inst syn : Nat) : Ended keys s (raise ev inst syn s) :=
  ⟨(raiseAs_only ..).ended, fun n i j _ hn => raise_reg s ev inst syn n i j fun h => hn (List.mem_append_right _ h)⟩

/-- A run through a list, each step of which may end copies or frames. -/
theorem foldl {α : Type} {f : State → α → State} {l : List α} (h : ∀ z, ∀ a ∈ l, Ended keys z (f z a)) : Ended keys s (l.foldl f s) :=
  List.foldlRecOn (motive := fun z => Ended keys s z) l f (refl s) fun z hz a ha => hz.trans (h z a ha)

/-- One of two states, both of which may follow. -/
theorem ite {c : Prop} [Decidable c] {a b : State} (ha : Ended keys s a) (hb : Ended keys s b) : Ended keys s (if c then a else b) := by
  split
  · exact ha
  · exact hb

end Ended

/-! ### The close of a record -/

theorem meterLost_ended (m : MeterRec) : Ended keys s (meterLost m s) :=
  ((Ended.tele _).trans (.bump .METER_MERGED_CNT ..)).trans (.raise ..)

theorem recLost_ended (r : ExpRec) : Ended keys s (recLost r s) := by
  unfold recLost
  split
  · exact meterLost_ended _
  · exact .refl s

theorem offerRecord_ended (cls : Nat) (r : ExpRec) : Ended keys s (offerRecord cls r s) := by
  unfold offerRecord
  split
  · exact recLost_ended r
  · simp only
    split
    · exact .refl s
    · exact .ite (.tele _) (((Ended.bump .REC_OVF ..).trans (.raise ..)).trans (recLost_ended r))

theorem setFlows_ended (cluster : Nat) (l : List FlowEnt) : Ended keys s (setFlows cluster l s) :=
  (Ended.tele _).trans (.setF F.FLOW_ACTIVE_FLOW_ACTIVE ..)

theorem flushFlow_ended (cluster reason : Nat) (e : FlowEnt) : Ended keys s (flushFlow cluster reason e s) :=
  (Ended.bump .FLOW_EXPORTED ..).trans (offerRecord_ended ..)

theorem cacheFlow_ended (x : Closing) (key : Nat) (partialKey : Bool) : Ended keys s (cacheFlow x key partialKey s) := by
  unfold cacheFlow
  refine .ite (setFlows_ended ..) (.ite (setFlows_ended ..) ?_)
  split
  · exact .refl s
  · exact (((Ended.bump .FLOW_EVICT ..).trans (.raise ..)).trans (flushFlow_ended ..)).trans (setFlows_ended ..)

theorem postcards_ended (x : Closing) (key : Nat) : Ended keys s (postcards x key s) := by
  unfold postcards
  exact .ite (.refl s) (.ite (((Ended.tele _).trans (.bump .PC_SENT ..)).trans (offerRecord_ended ..))
    (((Ended.tele _).trans (.bump .PC_LIMITED ..)).trans (.raise ..)))

theorem pushSample_ended (cluster : Nat) (bytes : List Byte) : Ended keys s (pushSample cluster bytes s) := by
  unfold pushSample
  exact .ite ((Ended.bump .SMP_DROP ..).trans (.raise ..)) ((Ended.tele _).trans (.setF F.DEV_LEVEL_DEV_LEVEL ..))

theorem samples_ended (x : Closing) : Ended keys s (samples x s) := by
  have h : ∀ bytes, Ended keys s (if x.g.sample then pushSample x.cluster bytes s else s) := fun bytes => .ite (pushSample_ended ..) (.refl s)
  unfold samples
  simp only
  split
  · exact h _
  · exact (h _).trans (pushSample_ended ..)

theorem addCtr_ended (fam unit slot k : Nat) : Ended keys s (addCtr fam unit slot k s) := .tele _

theorem countQueue_ended (g : Glaze) : Ended keys s (countQueue g s) := by
  unfold countQueue
  exact .ite (.refl s) (.ite ((addCtr_ended ..).trans (addCtr_ended ..)) (.ite ((addCtr_ended ..).trans (addCtr_ended ..)) (.refl s)))

theorem countTac_ended (x : Closing) : Ended keys s (countTac x s) := by
  unfold countTac
  exact .ite ((addCtr_ended ..).trans (addCtr_ended ..)) (.ite (addCtr_ended ..) (.refl s))

theorem chargeEnergy_ended (g : Glaze) : Ended keys s (chargeEnergy g s) := (Ended.tele _).trans (addCtr_ended ..)

theorem closeRecord_ended (x : Closing) : Ended keys s (closeRecord x s) := by
  have h : Ended keys s (if x.g.drop = 0 then s else bump .PAL_DROP_CNT (x.g.drop % 256) 0 1 s) := .ite (.refl s) (.bump ..)
  exact (((((h.trans (countQueue_ended _)).trans (countTac_ended _)).trans (chargeEnergy_ended _)).trans (samples_ended _)).trans
    (cacheFlow_ended ..)).trans (postcards_ended ..)

/-! ### Pause and priority groups -/

theorem queuePause_ended (p : Nat) (f : PauseFrame) : Ended keys s (queuePause p f s) := by
  unfold queuePause
  simp only
  split
  · exact .ite (.setPortRt ..) (.setPortRt ..)
  · exact .setPortRt ..

theorem pauseTx_ended (p c : Nat) (on : Bool) : Ended keys s (pauseTx p c on s) := by
  have h (v : Nat) : Ended keys s (setF F.PORT_STAT_PAUSED_TX (p / 8) (p % 8) v s) := .setF ..
  have hq (v : Nat) (f : PauseFrame) := (h v).trans (queuePause_ended (s := setF F.PORT_STAT_PAUSED_TX (p / 8) (p % 8) v s) p f)
  unfold pauseTx
  exact .ite (.refl s) (.ite (.ite ((hq _ _).trans (.setPortRt ..)) (h _))
    (.ite (.ite ((hq _ _).trans (.setPortRt ..)) (.ite (hq _ _) (h _))) (h _)))

theorem pgPause_ended (p c : Nat) : Ended keys s (pgPause p c s) := .ite (pauseTx_ended ..) (.refl s)

theorem pgRelease_ended (p c : Nat) : Ended keys s (pgRelease p c s) :=
  .ite ((Ended.setF F.PG_STAT1_XOFF ..).trans (pgPause_ended ..)) (.refl s)

theorem pgReleaseAll_ended : Ended keys s (pgReleaseAll s) := .foldl fun _ _ _ => pgRelease_ended ..

/-! ### Depths, charges and descriptors -/

theorem addF_ended (f : Fld) (i j : Nat) (up : Bool) (n : Nat) (h : f.reg ∈ endingRegs := by decide) : Ended keys s (addF f i j up n s) :=
  .setF f _ _ _ h

theorem addDepth_ended (q : Node) (up : Bool) (cells bytes : Nat) : Ended keys s (addDepth q up cells bytes s) :=
  .ite (addF_ended ..) ((addF_ended F.QUEUE_DEPTH0_CELLS ..).trans (addF_ended ..))

theorem setQueueCharge_ended (q : Node) (pool n : Nat) (move : Bool) : Ended keys s (setQueueCharge q pool n move s) := by
  have h (l : PaletteState) (a b : Nat) : Ended keys s (addF F.PAL_POOL_USED_USED pool 0 true n
      (addF F.PAL_POOL_USED_USED a 0 false b { s with pal := l })) := ((Ended.pal l).trans (addF_ended ..)).trans (addF_ended ..)
  unfold setQueueCharge
  exact .ite (.ite ((h _ _ _).trans pgReleaseAll_ended) (h _ _ _)) (.pal _)

theorem uncharge_ended (p : Pkt) (n : Nat) : Ended keys s (uncharge p n s).2 := by
  have h1 : Ended keys s (addF F.PAL_STAT0_FREE_CELLS 0 0 true n s) := addF_ended ..
  unfold uncharge
  simp only
  refine Ended.trans ?_ pgReleaseAll_ended
  refine Ended.trans ?_ (.ite ((addF_ended F.PAL_HP_USED_USED ..).trans (addF_ended F.PG_STAT1_HR_USED ..))
    (.ite (addF_ended F.PG_STAT0_SHARED_USED ..) (.refl _)))
  split
  · exact h1.trans (addF_ended F.PAL_POOL_USED_USED ..)
  · exact h1

theorem settlePkt_ended (id : Nat) : Ended keys s (settlePkt id s) := by
  unfold settlePkt
  split
  · exact .refl s
  · next p _ =>
    simp only
    have h : Ended keys s (if p.refcnt = 0 ∧ (!p.writing) = true ∧ p.charged ≠ 0 then
        setPkt (uncharge p p.charged (freeBanks p.cells s)).1 (uncharge p p.charged (freeBanks p.cells s)).2 else s) :=
      .ite (((Ended.pal _).trans (uncharge_ended ..)).trans (.pal _)) (.refl s)
    exact .ite (h.trans (.pal _)) h

theorem dropRef_ended (c : Copy) : Ended keys s (dropRef c s) := by
  unfold dropRef
  split
  · exact .refl s
  · exact (((Ended.pal _).trans (.pal _)).trans (addF_ended F.PAL_STAT1_QDESC_FREE ..)).trans (settlePkt_ended _)

theorem inflight_ended (e : Nat) (up : Bool) : Ended keys s (inflight e up s) := .setF F.EPOCH_INFLIGHT_COUNT ..

theorem closeCopy_ended (c : Copy) : Ended keys s (closeCopy c s) := by
  have h (l : PaletteState) (k : HostState) : Ended keys s { s with pal := l, host := k } := (Ended.pal l).trans (.host k)
  unfold closeCopy
  simp only
  split
  · exact h _ _
  · exact (((h _ _).trans (.pal _)).trans (.ite (inflight_ended ..) (.refl _))).trans (settlePkt_ended _)

/-! ### Discards -/

theorem detachProgress_ended (q : Node) : Ended keys s (detachProgress q s) := by
  unfold detachProgress
  simp only
  split
  · exact .cmd _
  · exact .refl s

theorem leavePool_ended (c : Copy) : Ended keys s (leavePool c s) := by
  unfold leavePool
  refine .ite ?_ (setQueueCharge_ended ..)
  simp only
  split
  · exact (setQueueCharge_ended ..).trans (.pal _)
  · exact setQueueCharge_ended ..

theorem unqueue_ended (c : Copy) : Ended keys s (unqueue c s) :=
  ((((Ended.sched _).trans (addDepth_ended ..)).trans (.pal _)).trans (leavePool_ended _)).trans (detachProgress_ended _)

/-- A copy discarded anywhere. -/
theorem discard_ended (c : Copy) (point reason : Nat) : Ended keys s (discard c point reason s) := by
  unfold discard
  split
  · exact .refl s
  · have h1 : Ended keys s (if c.phase = .placing ∨ c.phase = .queued then unqueue c s else s) := .ite (unqueue_ended c) (.refl s)
    refine Ended.trans ?_ (closeCopy_ended c)
    exact .ite (h1.trans (closeRecord_ended _)) (((h1.trans (closeRecord_ended _)).trans (.pal _)).trans (dropRef_ended _))

/-! ### The loss of a link -/

theorem abortTx_ended (c : Copy) (reason : Nat) : Ended keys s (abortTx c reason s) := by
  have h : Ended keys s (emit (.frame c.port c.img.bytes false) (if c.port < 768 then addCtr 1 c.port 8 1 s else s)) :=
    Ended.trans (.ite (addCtr_ended ..) (.refl s)) (.emit _)
  exact Ended.trans (.ite (h.trans (.raise ..)) h) (discard_ended ..)

theorem abortSending_ended (port : Nat) : Ended keys s (abortSending port s) := .foldl fun _ _ _ => abortTx_ended ..

theorem settleTail_ended (id : Nat) (good : Bool) : Ended keys s (settleTail id good s) := .pal _

theorem dropInMac_ended (p : Nat) : Ended keys s (dropInMac p s) := by
  unfold dropInMac
  simp only
  split
  · exact abortSending_ended p
  · exact (((abortSending_ended p).trans (.setPortRt ..)).trans (settleTail_ended ..)).trans (.foldl fun _ _ _ => abortTx_ended ..)

theorem dropReplies_ended (p : Nat) : Ended keys s (dropReplies p s) := (Ended.cmd _).trans (.foldl fun _ _ _ => .cmd _)

/-- A port that loses its link changes no macro's setting but the PORT_UP of its own. -/
theorem linkLost_ended (remote : Bool) (p : Nat) : Ended [⟨.MAC_MACRO_CFG, p / 8, 0⟩] s (linkLost remote p s) := by
  unfold linkLost
  have h (r : PortRt) : Ended [⟨.MAC_MACRO_CFG, p / 8, 0⟩] s (setPortRt p r (dropReplies p (dropInMac p s))) :=
    ((dropInMac_ended p).trans (dropReplies_ended p)).trans (.setPortRt ..)
  refine Ended.trans (.ite ?_ (h _)) (.emit _)
  exact (((h _).trans (.setKey F.MAC_MACRO_CFG_PORT_UP _ _ _ (List.mem_singleton.2 rfl))).trans
    (.setF F.PORT_STAT_PAUSED_RX ..)).trans (.raise ..)

/-- Every port of a macro going down changes no other macro's setting. -/
theorem macPortsDown_ended (m : Nat) : Ended [⟨.MAC_MACRO_CFG, m, 0⟩] s (macPortsDown m s) := by
  refine .foldl fun z l hl => .ite ?_ (.refl z)
  have e : (8 * m + l) / 8 = m := by have := List.mem_range.1 hl; omega
  have h := linkLost_ended (s := z) false (8 * m + l)
  rwa [e] at h

end Sys2Proof.Machine
end

section
/-! SUPPORT. Drivers, macros and their configuration (R34, R46): what the start of a lane, the loss of a macro's ports, and the settings of a PORT_MACRO_CFG change. -/

namespace Sys2Proof.Machine

open Sys2Proof.Safety

variable {s s' : State}

/-! ### What a notion of a macro reads -/

theorem getF_of_reg {f : Fld} {i j : Nat} (h : reg s' f.reg i j = reg s f.reg i j) : getF s' f i j = getF s f i j := by simp only [getF, h]

theorem macRt_congr (h : s'.port.macs = s.port.macs) (m : Nat) : macRt s' m = macRt s m := by simp only [macRt, h]

theorem startsPort_congr (hr : RegsKept [.LANE_TXCTL] s s') (p : Nat) : startsPort s' p = startsPort s p := by
  have h (f : Fld) (hf : f.reg ∉ [RegName.LANE_TXCTL]) : getF s' f (p / 8) 0 = getF s f (p / 8) 0 := getF_of_reg (hr _ _ 0 hf)
  simp only [startsPort, macEnabled, flag, h F.MAC_MACRO_CFG_ENABLED (by decide), h F.MAC_MACRO_CFG_PORT_START (by decide)]

theorem txLanes_congr (hr : RegsKept [.LANE_TXCTL] s s') (p : Nat) : txLanes s' p = txLanes s p := by
  have h (f : Fld) (hf : f.reg ∉ [RegName.LANE_TXCTL]) : getF s' f (p / 8) 0 = getF s f (p / 8) 0 := getF_of_reg (hr _ _ 0 hf)
  simp only [txLanes, portWidth, h F.MAC_TXMAP_TX_LANE (by decide), h F.MAC_MACRO_CFG_PORT_START (by decide)]

theorem portOfLane_congr (hr : RegsKept [.LANE_TXCTL] s s') (m l : Nat) : portOfLane s' m l = portOfLane s m l := by
  unfold portOfLane
  congr 1
  funext k
  rw [startsPort_congr hr, txLanes_congr hr]

/-- Whether a front driver is enabled does not depend on the drivers' own registers. -/
theorem drvEnabled_congr {m : Nat} (hm : m < 96) (hr : RegsKept [.LANE_TXCTL] s s') (hp : s'.port.macs = s.port.macs) (l : Nat) :
    drvEnabled s' m l = drvEnabled s m l := by
  have h (f : Fld) (hf : f.reg ∉ [RegName.LANE_TXCTL]) (i : Nat) : getF s' f i 0 = getF s f i 0 := getF_of_reg (hr _ i 0 hf)
  have hb (n : RegName) (hn : n ∉ [RegName.LANE_TXCTL]) (k : Nat) : mapBit s' n k = mapBit s n k := by simp only [mapBit, hr _ _ _ hn]
  simp only [drvEnabled, if_pos hm, macEnabled, flag, macFailed, heldPort, portOfLane_congr hr, macRt_congr hp, hb _ (by decide : RegName.MACRO_FAILED ∉ _),
    hb _ (by decide : RegName.TWIN_DH ∉ _), h F.MAC_MACRO_CFG_ENABLED (by decide), h F.TWIN_STAT_HELD (by decide)]

/-! ### Front drivers -/

/-- Two states that differ only in registers and in what the macros, lanes and ports hold beside them. -/
def OnlyPort (s s' : State) : Prop := ∃ r p, s' = { s with rf := r, port := p }

theorem OnlyPort.trans {z : State} (h1 : OnlyPort s z) (h2 : OnlyPort z s') : OnlyPort s s' := by
  obtain ⟨r1, p1, rfl⟩ := h1
  obtain ⟨r2, p2, rfl⟩ := h2
  exact ⟨_, _, rfl⟩

theorem OnlyPort.rest (h : OnlyPort s s') : { s' with rf := s.rf, port := s.port } = s := by obtain ⟨_, _, rfl⟩ := h; rfl

theorem OnlyPort.clk (h : OnlyPort s s') : s'.clk = s.clk := by obtain ⟨_, _, rfl⟩ := h; rfl

theorem OnlyWords.ported (h : OnlyWords s s') : OnlyPort s s' := by obtain ⟨_, rfl⟩ := h; exact ⟨_, _, rfl⟩

theorem setMacRt_ported (m : Nat) (x : MacroRt) : OnlyPort s (setMacRt m x s) := ⟨_, _, rfl⟩

/-- Two states that differ only in words of LANE_TXCTL and in the lanes' records. -/
def OnlyLanes (s s' : State) : Prop :=
  (∃ ws ls, s' = { s with rf := { s.rf with words := ws }, port := { s.port with lanes := ls } }) ∧ RegsKept [.LANE_TXCTL] s s'

theorem OnlyLanes.refl (s : State) : OnlyLanes s s := ⟨⟨_, _, rfl⟩, fun _ _ _ _ => rfl⟩

theorem OnlyLanes.trans {z : State} (h1 : OnlyLanes s z) (h2 : OnlyLanes z s') : OnlyLanes s s' := by
  obtain ⟨⟨w1, l1, rfl⟩, hr1⟩ := h1
  obtain ⟨⟨w2, l2, rfl⟩, hr2⟩ := h2
  exact ⟨⟨_, _, rfl⟩, fun n i j hn => (hr2 n i j hn).trans (hr1 n i j hn)⟩

theorem OnlyLanes.macs (h : OnlyLanes s s') : s'.port.macs = s.port.macs := by obtain ⟨⟨_, _, rfl⟩, _⟩ := h; rfl

theorem OnlyLanes.ported (h : OnlyLanes s s') : OnlyPort s s' := by obtain ⟨⟨_, _, rfl⟩, _⟩ := h; exact ⟨_, _, rfl⟩

theorem drvCtl_front {m : Nat} (hm : m < 96) : drvCtl m = .LANE_TXCTL := if_pos hm

theorem drvUnit_front {m : Nat} (hm : m < 96) : drvUnit m = m := if_pos hm

theorem setDrv_front {m : Nat} (hm : m < 96) (l st : Nat) : setDrv m l st s = setF F.LANE_TXCTL_TX_STATE m l st s := by
  rw [setDrv, drvCtl_front hm, drvUnit_front hm]; rfl

theorem drvState_front {m : Nat} (hm : m < 96) (l : Nat) :
    drvState s m l = if isSafe s then 5 else getF s F.LANE_TXCTL_TX_STATE m l := by
  have h : m < 100 := by omega
  simp only [drvState, drvCtl_front hm, drvUnit_front hm, h, decide_true, Bool.and_true, F.LANE_TXCTL_TX_STATE]

theorem drvSquelch_front {m : Nat} (hm : m < 96) (l : Nat) : drvSquelch s m l = flag s F.LANE_TXCTL_TX_SQUELCH m l := by
  rw [drvSquelch, drvCtl_front hm, drvUnit_front hm]; rfl

/-- What lets `drvStart` begin a ramp. -/
def canRamp (s : State) (m l : Nat) : Prop := drvState s m l = 0 ∧ drvEnabled s m l = true ∧ (!drvSquelch s m l) = true

/-- The start of a front lane: RAMP where it can ramp, nothing otherwise. -/
theorem drvStart_cases {m : Nat} (hm : m < 96) (l : Nat) :
    (canRamp s m l ∧ ∃ x, drvStart m l s = setLaneRt m l x (setF F.LANE_TXCTL_TX_STATE m l 1 s)) ∨ (¬ canRamp s m l ∧ drvStart m l s = s) := by
  by_cases hc : canRamp s m l
  · exact .inl ⟨hc, _, (if_pos hc).trans (congrArg _ (setDrv_front hm l 1))⟩
  · exact .inr ⟨hc, if_neg hc⟩

theorem drvStart_only {m : Nat} (hm : m < 96) (l : Nat) : OnlyLanes s (drvStart m l s) := by
  obtain ⟨-, x, e⟩ | ⟨-, e⟩ := drvStart_cases (s := s) hm l <;> rw [e]
  · exact ⟨⟨_, _, rfl⟩, fun n i j hn => reg_setF_of s (ne_of_mem_of_not_mem (List.mem_singleton_self _) hn) ..⟩
  · exact .refl s

theorem drvStarts_only {m : Nat} (hm : m < 96) (ls : List Nat) : OnlyLanes s (ls.foldl (fun z l => drvStart m l z) s) :=
  List.foldlRecOn (motive := OnlyLanes s) ls _ (.refl s) fun _ hz l _ => hz.trans (drvStart_only hm l)

theorem isSafe_drvStart {m : Nat} (hm : m < 96) (a : Nat) : isSafe (drvStart m a s) = isSafe s := by
  simp only [isSafe, flag, getF_of_reg (f := F.FLT_STAT_SAFE) ((drvStart_only (s := s) hm a).2 _ 0 0 (by decide))]

theorem reg_drvStart_ne {m a l : Nat} (hm : m < 96) (h : a ≠ l) : reg (drvStart m a s) .LANE_TXCTL m l = reg s .LANE_TXCTL m l := by
  obtain ⟨-, x, e⟩ | ⟨-, e⟩ := drvStart_cases (s := s) hm a <;> rw [e]
  exact reg_setF_ne s _ _ _ _ _ _ _ fun e => h e.2.2

theorem drvState_drvStart_ne {m a l : Nat} (hm : m < 96) (h : a ≠ l) : drvState (drvStart m a s) m l = drvState s m l := by
  rw [drvState_front hm, isSafe_drvStart hm, getF_of_reg (reg_drvStart_ne hm h), drvState_front hm]

/-- The start of a lane leaves another lane's driver as it was. -/
theorem canRamp_drvStart_ne {m a l : Nat} (hm : m < 96) (h : a ≠ l) (hc : canRamp s m l) : canRamp (drvStart m a s) m l := by
  have ho := drvStart_only (s := s) hm a
  have hq : drvSquelch (drvStart m a s) m l = drvSquelch s m l := by
    rw [drvSquelch_front hm, drvSquelch_front hm, flag, getF_of_reg (reg_drvStart_ne hm h), flag]
  rwa [canRamp, drvState_drvStart_ne hm h, drvEnabled_congr hm ho.2 ho.macs, hq]

/-- A lane that can ramp is in RAMP once it has been started. -/
theorem drvState_drvStart {m l : Nat} (hm : m < 96) (hc : canRamp s m l) : drvState (drvStart m l s) m l = 1 := by
  have hs : isSafe s ≠ true := fun e => by have h := hc.1; rw [drvState_front hm, if_pos e] at h; exact absurd h (by decide)
  obtain ⟨-, x, e⟩ | ⟨hn, -⟩ := drvStart_cases (s := s) hm l
  · rw [drvState_front hm, isSafe_drvStart hm, if_neg hs, e]
    exact getF_setF_same s _ m l 1 (by decide)
  · exact absurd hc hn

/-- A lane in RAMP stays there while any lane is started. -/
theorem drvState_drvStart_ramp {m a l : Nat} (hm : m < 96) (h : drvState s m l = 1) : drvState (drvStart m a s) m l = 1 := by
  by_cases ha : a = l
  · subst ha
    obtain ⟨hc, -⟩ | ⟨-, e⟩ := drvStart_cases (s := s) hm a
    · exact absurd (h.symm.trans hc.1) (by decide)
    · rwa [e]
  · rwa [drvState_drvStart_ne hm ha]

/-- Where a list of lanes is started, each of them that could ramp at the beginning is in RAMP at the end. -/
theorem drvState_drvStarts {m l : Nat} (hm : m < 96) {ls : List Nat} (hl : l ∈ ls) (hc : canRamp s m l) :
    drvState (ls.foldl (fun z l => drvStart m l z) s) m l = 1 := by
  induction ls generalizing s with
  | nil => exact absurd hl List.not_mem_nil
  | cons a ls ih =>
    by_cases h : a = l
    · subst h
      exact List.foldlRecOn (motive := fun z => drvState z m a = 1) ls _ (drvState_drvStart hm hc) fun _ hz _ _ => drvState_drvStart_ramp hm hz
    · exact ih ((List.mem_cons.1 hl).resolve_left (Ne.symm h)) (canRamp_drvStart_ne hm h hc)

/-! ### What the loss of a macro's ports keeps -/

theorem Ended.clk {keys : List RegKey} (h : Ended keys s s') : s'.clk = s.clk := by obtain ⟨⟨_, _, _, _, _, _, _, _, _, rfl⟩, _⟩ := h; rfl

theorem Ended.macRt {keys : List RegKey} (h : Ended keys s s') (m : Nat) : macRt s' m = macRt s m := by
  obtain ⟨⟨_, _, _, _, _, _, _, _, _, rfl⟩, _⟩ := h; rfl

theorem macPortsDown_cfg_ne {m k : Nat} (h : k ≠ m) : reg (macPortsDown m s) .MAC_MACRO_CFG k 0 = reg s .MAC_MACRO_CFG k 0 :=
  (macPortsDown_ended m).2 _ _ _ (by simpa using h) (by decide)

end Sys2Proof.Machine
end

section
/-! SUPPORT. PORT_MACRO_CFG (R7, R34, R46): the settings, the start of the lanes or of a wake, and the disable of a macro. -/

namespace Sys2Proof.Machine

open Sys2Proof.Safety

variable {s z y : State} {names : List RegName}

/-! ### Writes of named registers -/

/-- Two states that differ only in words of registers of a list of names. -/
def OnlyNamed (names : List RegName) (s z : State) : Prop := OnlyWords s z ∧ RegsKept names s z

namespace OnlyNamed

theorem refl (s : State) : OnlyNamed names s s := ⟨.refl s, fun _ _ _ _ => rfl⟩

theorem trans (h1 : OnlyNamed names s z) (h2 : OnlyNamed names z y) : OnlyNamed names s y :=
  ⟨h1.1.trans h2.1, fun n i j hn => (h2.2 n i j hn).trans (h1.2 n i j hn)⟩

theorem setF (h : OnlyNamed names s z) (f : Fld) (i j v : Nat) (hf : f.reg ∈ names := by decide) : OnlyNamed names s (setF f i j v z) :=
  h.trans ⟨.setF .., fun _ _ _ hn => reg_setF_of z (ne_of_mem_of_not_mem hf hn) ..⟩

theorem foldl {α : Type} {f : State → α → State} (l : List α) (h : ∀ z a, OnlyNamed names z (f z a)) : OnlyNamed names s (l.foldl f s) :=
  List.foldlRecOn (motive := OnlyNamed names s) l f (refl s) fun z hz a _ => hz.trans (h z a)

theorem port (h : OnlyNamed names s z) : z.port = s.port := by obtain ⟨⟨_, rfl⟩, _⟩ := h; rfl

end OnlyNamed

theorem macRt_setF (f : Fld) (i j v m : Nat) : macRt (setF f i j v s) m = macRt s m := rfl
theorem macRt_setMapBit (n : RegName) (k : Nat) (b : Bool) (m : Nat) : macRt (setMapBit n k b s) m = macRt s m := rfl
theorem reg_setMacRt (m : Nat) (x : MacroRt) (n : RegName) (i j : Nat) : reg (setMacRt m x s) n i j = reg s n i j := rfl

/-! ### The checks of PORT_MACRO_CFG -/

theorem firstBad_cons_eq_none {x : Bool × Nat × Nat × Nat} {l : List (Bool × Nat × Nat × Nat)} :
    firstBad (x :: l) = none ↔ x.1 = false ∧ firstBad l = none := by
  obtain ⟨b, _⟩ := x
  cases b <;> simp [firstBad]

/-- Settings of a front macro that fit the fields they are put in. -/
structure FitsFields (p : MacroCfg) : Prop where
  mac : p.mac < 96
  laneRate : p.laneRate < 2 ^ 2
  reach : p.reach < 2 ^ 2
  portStart : p.portStart < 2 ^ 8
  txLane : p.txLane < 2 ^ 24
  rxLane : p.rxLane < 2 ^ 24
  txInv : p.txInv < 2 ^ 8
  rxInv : p.rxInv < 2 ^ 8

/-- Operands in range whose settings pass the checks. -/
theorem fitsFields_of_checks {p : MacroCfg} (h : macroChecks p = none) (htx : p.txLane < 2 ^ 24) (hrx : p.rxLane < 2 ^ 24) (hti : p.txInv < 256)
    (hri : p.rxInv < 256) : FitsFields p := by
  simp only [macroChecks, List.cons_append, firstBad_cons_eq_none, bad, resv, layoutOk, decide_eq_false_iff_not, Bool.not_eq_false',
    Bool.and_eq_true, decide_eq_true_eq] at h
  obtain ⟨hmac, hrate, hreach, -, ⟨⟨-, hstart⟩, -⟩, -⟩ := h
  constructor <;> omega

/-! ### The settings -/

/-- The registers that hold a macro's settings. -/
def settingRegs : List RegName := [.MAC_MACRO_CFG, .MAC_TXMAP, .MAC_RXMAP, .MAC_POL]

/-- A macro's settings put in its registers. -/
def putSettings (p : MacroCfg) (s : State) : State :=
  setF F.MAC_MACRO_CFG_ENABLED p.mac 0 1 s |> setF F.MAC_MACRO_CFG_LANE_RATE p.mac 0 p.laneRate
    |> setF F.MAC_MACRO_CFG_REACH p.mac 0 p.reach |> setF F.MAC_MACRO_CFG_DIRECT_DRIVE p.mac 0 (b2n p.directDrive)
    |> setF F.MAC_MACRO_CFG_PORT_START p.mac 0 p.portStart |> setF F.MAC_TXMAP_TX_LANE p.mac 0 p.txLane
    |> setF F.MAC_RXMAP_RX_LANE p.mac 0 p.rxLane |> setF F.MAC_POL_TX_INV p.mac 0 p.txInv |> setF F.MAC_POL_RX_INV p.mac 0 p.rxInv

/-- The settings of a PORT_MACRO_CFG as the registers show them. -/
def ShowsSettings (p : MacroCfg) (z : State) : Prop :=
  macEnabled z p.mac = true ∧ getF z F.MAC_MACRO_CFG_LANE_RATE p.mac 0 = p.laneRate ∧ getF z F.MAC_MACRO_CFG_REACH p.mac 0 = p.reach ∧
  flag z F.MAC_MACRO_CFG_DIRECT_DRIVE p.mac 0 = p.directDrive ∧ getF z F.MAC_MACRO_CFG_PORT_START p.mac 0 = p.portStart ∧
  getF z F.MAC_TXMAP_TX_LANE p.mac 0 = p.txLane ∧ getF z F.MAC_RXMAP_RX_LANE p.mac 0 = p.rxLane ∧
  getF z F.MAC_POL_TX_INV p.mac 0 = p.txInv ∧ getF z F.MAC_POL_RX_INV p.mac 0 = p.rxInv

theorem ShowsSettings.congr {p : MacroCfg} (h : ShowsSettings p s) (hr : ∀ n ∈ settingRegs, ∀ i j, reg z n i j = reg s n i j) : ShowsSettings p z := by
  have hf (f : Fld) (hf : f.reg ∈ settingRegs) : getF z f p.mac 0 = getF s f p.mac 0 := getF_of_reg (hr _ hf _ _)
  simpa only [ShowsSettings, macEnabled, flag, hf F.MAC_MACRO_CFG_ENABLED (by decide), hf F.MAC_MACRO_CFG_LANE_RATE (by decide),
    hf F.MAC_MACRO_CFG_REACH (by decide), hf F.MAC_MACRO_CFG_DIRECT_DRIVE (by decide), hf F.MAC_MACRO_CFG_PORT_START (by decide),
    hf F.MAC_TXMAP_TX_LANE (by decide), hf F.MAC_RXMAP_RX_LANE (by decide), hf F.MAC_POL_TX_INV (by decide), hf F.MAC_POL_RX_INV (by decide)] using h

theorem putSettings_named (p : MacroCfg) : OnlyNamed settingRegs s (putSettings p s) :=
  ((((((((OnlyNamed.refl s).setF ..).setF ..).setF ..).setF ..).setF ..).setF ..).setF ..).setF .. |>.setF ..

theorem putSettings_cfg_ne {p : MacroCfg} {m : Nat} (h : m ≠ p.mac) : reg (putSettings p s) .MAC_MACRO_CFG m 0 = reg s .MAC_MACRO_CFG m 0 := by
  have hne (f : Fld) : ¬ (f.reg = RegName.MAC_MACRO_CFG ∧ p.mac = m ∧ 0 = 0) := fun e => h e.2.1.symm
  simp only [putSettings, reg_setF_ne _ _ _ _ _ _ _ _ (hne _)]

theorem showsSettings_putSettings {p : MacroCfg} (h : FitsFields p) : ShowsSettings p (putSettings p s) := by
  have hd : (b2n p.directDrive % 2 == 1) = p.directDrive := by cases p.directDrive <;> rfl
  simp (disch := decide) only [ShowsSettings, putSettings, macEnabled, flag, getF_setF_of, getF_setF_apart, getF_setF_same]
  exact ⟨rfl, Nat.mod_eq_of_lt h.laneRate, Nat.mod_eq_of_lt h.reach, hd, Nat.mod_eq_of_lt h.portStart, Nat.mod_eq_of_lt h.txLane,
    Nat.mod_eq_of_lt h.rxLane, Nat.mod_eq_of_lt h.txInv, Nat.mod_eq_of_lt h.rxInv⟩

/-- What `applyMacro` writes before it notes the settings in the macro's record. -/
def putMacro (p : MacroCfg) (s : State) : State :=
  (List.range 8).foldl (fun z l => setF F.LANE_RXEQ_DD_EXT p.mac l (b2n p.directDrive) z) (putSettings p s)

theorem applyMacro_eq (p : MacroCfg) :
    applyMacro p s = countMacros (setMacRt p.mac { macRt (putMacro p s) p.mac with cfg := some p } (putMacro p s)) := rfl

theorem putMacro_named (p : MacroCfg) : OnlyNamed [.LANE_RXEQ] (putSettings p s) (putMacro p s) :=
  .foldl _ fun z _ => (OnlyNamed.refl z).setF ..

theorem reg_applyMacro (p : MacroCfg) (n : RegName) (i j : Nat) (h1 : n ≠ .HIF_ID1) (h2 : n ≠ .LANE_RXEQ) :
    reg (applyMacro p s) n i j = reg (putSettings p s) n i j := by
  rw [applyMacro_eq, countMacros, reg_setF_of _ (Ne.symm h1), reg_setMacRt, (putMacro_named p).2 n i j (by simpa using h2)]

theorem putMacro_port (p : MacroCfg) : (putMacro p s).port = s.port := (putMacro_named p).port.trans (putSettings_named p).port

/-- The record of a macro after its settings are applied. -/
theorem macRt_applyMacro (p : MacroCfg) (m : Nat) :
    macRt (applyMacro p s) m = if p.mac = m then { macRt s p.mac with cfg := some p } else macRt s m := by
  have h (k : Nat) : macRt (putMacro p s) k = macRt s k := by simp only [macRt, putMacro_port]
  rw [applyMacro_eq, countMacros, macRt_setF, macRt_setMacRt, h, h]

/-- The settings change registers and the macro's record alone. -/
theorem applyMacro_ported (p : MacroCfg) : OnlyPort s (applyMacro p s) :=
  (((putSettings_named p).1.trans (putMacro_named p).1).ported.trans (setMacRt_ported ..)).trans (OnlyWords.setF ..).ported

theorem showsSettings_applyMacro {p : MacroCfg} (h : FitsFields p) : ShowsSettings p (applyMacro p s) :=
  (showsSettings_putSettings h).congr fun n hn i j =>
    reg_applyMacro p n i j (fun e => absurd hn (e ▸ by decide)) (fun e => absurd hn (e ▸ by decide))

/-! ### The start of the lanes -/

/-- A configured macro's lanes begin to ramp where its SerDes is powered, and otherwise its wake begins. -/
def wakeOrRamp (m : Nat) (s : State) : State :=
  if (macRt s m).powered then (List.range 8).foldl (fun z l => drvStart m l z) s
  else setMacRt m { macRt s m with wakeAt := some (s.clk.mono + 500000) } s

theorem reg_wakeOrRamp {m : Nat} (hm : m < 96) {n : RegName} (i j : Nat) (hn : n ≠ .LANE_TXCTL) : reg (wakeOrRamp m s) n i j = reg s n i j := by
  unfold wakeOrRamp
  split
  · exact (drvStarts_only hm _).2 n i j (by simpa using hn)
  · rfl

/-- The record of a macro whose lanes start, or whose wake begins. -/
theorem macRt_wakeOrRamp {m : Nat} (hm : m < 96) (k : Nat) : macRt (wakeOrRamp m s) k =
    if m = k ∧ (macRt s m).powered = false then { macRt s m with wakeAt := some (s.clk.mono + 500000) } else macRt s k := by
  unfold wakeOrRamp
  split
  · next h => rw [macRt_congr (drvStarts_only hm _).macs, h, if_neg (fun e => Bool.noConfusion e.2)]
  · next h => simp [macRt_setMacRt, h]

theorem wakeOrRamp_ported {m : Nat} (hm : m < 96) : OnlyPort s (wakeOrRamp m s) := by
  unfold wakeOrRamp
  split
  · exact (drvStarts_only hm _).ported
  · exact setMacRt_ported ..

/-- A lane of a powered macro ramps at once where it was OFF, is not squelched, and is enabled. -/
theorem drvState_wakeOrRamp {m l : Nat} (hm : m < 96) (hl : l < 8) (hp : (macRt s m).powered = true) (h0 : drvState s m l = 0)
    (hq : drvSquelch s m l = false) (he : drvEnabled (wakeOrRamp m s) m l = true) : drvState (wakeOrRamp m s) m l = 1 := by
  rw [wakeOrRamp, if_pos hp] at he ⊢
  have ho := drvStarts_only (s := s) hm (List.range 8)
  rw [drvEnabled_congr hm ho.2 ho.macs] at he
  exact drvState_drvStarts hm (List.mem_range.2 hl) ⟨h0, he, by simp [hq]⟩

/-! ### PORT_MACRO_CFG with ENABLE = 1 -/

/-- The state that a PORT_MACRO_CFG with ENABLE = 1 leaves, before its reply, where it is accepted. -/
def macroConfigured (p : MacroCfg) (s : State) : State :=
  wakeOrRamp p.mac (applyMacro p (if macEnabled s p.mac then macPortsDown p.mac s else s))

theorem configureMacro_unlicensed {h : Hdr} {p : MacroCfg} (hw : macEnabled s p.mac = false) (hl : licensedMacros s ≤ countIx 96 (macEnabled s)) :
    configureMacro h p s = failWith h 0x0401 0x15 0 s := by
  simp [configureMacro, hw, hl]

/-- Where the licence allows a macro, `configureMacro` goes past it. -/
theorem licensed_passes {m : Nat} (hl : macEnabled s m = true ∨ countIx 96 (macEnabled s) < licensedMacros s) :
    (!macEnabled s m && decide (licensedMacros s ≤ countIx 96 (macEnabled s))) = false := by
  obtain h | h := hl
  · rw [h]; rfl
  · rw [decide_eq_false (by omega), Bool.and_false]

theorem configureMacro_busy {h : Hdr} {p : MacroCfg} (hl : macEnabled s p.mac = true ∨ countIx 96 (macEnabled s) < licensedMacros s)
    (hb : pipeMoving s p.mac = true ∨ macFailed s p.mac = true) : configureMacro h p s = failWith h 0x0401 0x24 0 s := by
  have hb' : (pipeMoving s p.mac || macFailed s p.mac) = true := by simpa using hb
  simp only [configureMacro, licensed_passes hl, hb', if_true, Bool.false_eq_true, if_false]

theorem configureMacro_accepted {h : Hdr} {p : MacroCfg} (hl : macEnabled s p.mac = true ∨ countIx 96 (macEnabled s) < licensedMacros s)
    (hm : pipeMoving s p.mac = false) (hf : macFailed s p.mac = false) : configureMacro h p s = ok h 0x0401 (macroConfigured p s) := by
  have hb : (pipeMoving s p.mac || macFailed s p.mac) = false := by rw [hm, hf]; rfl
  simp only [configureMacro, licensed_passes hl, hb, Bool.false_eq_true, if_false]
  rfl

/-- The registers show the settings of an accepted PORT_MACRO_CFG. -/
theorem showsSettings_macroConfigured {p : MacroCfg} (h : FitsFields p) : ShowsSettings p (macroConfigured p s) :=
  (showsSettings_applyMacro h).congr fun _ hn i j => reg_wakeOrRamp h.mac i j fun e => absurd hn (e ▸ by decide)

/-- The record of a configured macro: its settings, and the end of its wake where it was not powered. -/
theorem macRt_macroConfigured {p : MacroCfg} (hm : p.mac < 96) : macRt (macroConfigured p s) p.mac =
    if (macRt s p.mac).powered = false then { macRt s p.mac with cfg := some p, wakeAt := some (s.clk.mono + 500000) }
    else { macRt s p.mac with cfg := some p } := by
  have h : ∀ y, macRt y p.mac = macRt s p.mac → y.clk = s.clk → macRt (wakeOrRamp p.mac (applyMacro p y)) p.mac =
      if (macRt s p.mac).powered = false then { macRt s p.mac with cfg := some p, wakeAt := some (s.clk.mono + 500000) }
      else { macRt s p.mac with cfg := some p } := fun y hy hc => by
    simp only [macRt_wakeOrRamp hm, macRt_applyMacro, if_true, true_and, (applyMacro_ported p).clk, hy, hc]
  unfold macroConfigured
  split
  · exact h _ ((macPortsDown_ended _).macRt _) (macPortsDown_ended _).clk
  · exact h s rfl rfl

/-- A macro that was not enabled is configured with no port going down. -/
theorem macroConfigured_fresh {p : MacroCfg} (h : macEnabled s p.mac = false) : macroConfigured p s = wakeOrRamp p.mac (applyMacro p s) := by
  simp [macroConfigured, h]

theorem macroConfigured_fresh_ported {p : MacroCfg} (hm : p.mac < 96) (h : macEnabled s p.mac = false) : OnlyPort s (macroConfigured p s) := by
  rw [macroConfigured_fresh h]
  exact (applyMacro_ported p).trans (wakeOrRamp_ported hm)

/-- Another macro keeps its record and its settings. -/
theorem macroConfigured_fresh_other {p : MacroCfg} {m : Nat} (hm : p.mac < 96) (h : macEnabled s p.mac = false) (hne : m ≠ p.mac) :
    macRt (macroConfigured p s) m = macRt s m ∧ reg (macroConfigured p s) .MAC_MACRO_CFG m 0 = reg s .MAC_MACRO_CFG m 0 := by
  have hne' : p.mac ≠ m := Ne.symm hne
  rw [macroConfigured_fresh h]
  constructor
  · simp only [macRt_wakeOrRamp hm, macRt_applyMacro, hne', false_and, if_false]
  · rw [reg_wakeOrRamp hm _ _ (by decide), reg_applyMacro _ _ _ _ (by decide) (by decide), putSettings_cfg_ne hne]

/-- A lane of a powered macro that was not enabled ramps at once. -/
theorem drvState_macroConfigured {p : MacroCfg} {l : Nat} (hm : p.mac < 96) (h : macEnabled s p.mac = false) (hp : (macRt s p.mac).powered = true)
    (hl : l < 8) (h0 : drvState s p.mac l = 0) (hq : drvSquelch s p.mac l = false) (he : drvEnabled (macroConfigured p s) p.mac l = true) :
    drvState (macroConfigured p s) p.mac l = 1 := by
  rw [macroConfigured_fresh h] at he ⊢
  have hr (n : RegName) (h1 : n ∉ settingRegs) (h2 : n ≠ .HIF_ID1) (h3 : n ≠ .LANE_RXEQ) (i j : Nat) : reg (applyMacro p s) n i j = reg s n i j :=
    (reg_applyMacro p n i j h2 h3).trans ((putSettings_named p).2 n i j h1)
  have hs : isSafe (applyMacro p s) = isSafe s := by
    simp only [isSafe, flag, getF_of_reg (f := F.FLT_STAT_SAFE) (hr _ (by decide) (by decide) (by decide) 0 0)]
  have hx (f : Fld) (hf : f.reg = .LANE_TXCTL) : getF (applyMacro p s) f p.mac l = getF s f p.mac l :=
    getF_of_reg (hr _ (hf ▸ by decide) (hf ▸ by decide) (hf ▸ by decide) _ _)
  refine drvState_wakeOrRamp hm hl ?_ ?_ ?_ he
  · simpa only [macRt_applyMacro, if_true] using hp
  · rw [drvState_front hm, hs, hx _ rfl, ← drvState_front hm, h0]
  · rw [drvSquelch_front hm, flag, hx _ rfl, ← flag, ← drvSquelch_front hm, hq]

/-! ### The disable of a macro -/

/-- The registers of a front lane that a disable clears. -/
def laneRegs : List RegName := [.LANE_TXCTL, .LANE_STAT, .LANE_RXEQ]

/-- The lanes of a macro powered off: drivers OFF, their counts cleared, no equaliser active. -/
def lanesCleared (m : Nat) (s : State) : State :=
  (List.range 8).foldl (fun z l =>
    setRetry m l 0 (drvOff m l z) |> setF F.LANE_STAT_TRIP_TOTAL m l 0 |> setF F.LANE_STAT_OC_GLITCH m l 0 |> setF F.LANE_RXEQ_DD_EXT m l 0) s

theorem drvOff_named {m : Nat} (hm : m < 96) (l : Nat) : OnlyNamed laneRegs s (drvOff m l s) := by
  unfold drvOff
  split
  · exact .refl s
  · rw [setDrv_front hm]
    exact (OnlyNamed.refl s).setF ..

theorem lanesCleared_named {m : Nat} (hm : m < 96) : OnlyNamed laneRegs s (lanesCleared m s) :=
  .foldl _ fun _ l => ((((drvOff_named hm l).setF _ _ _ _ (by rw [drvCtl_front hm]; decide)).setF ..).setF ..).setF ..

/-- A macro that is powered off, its registers still to be cleared. -/
def macroUnpowered (m : Nat) (s : State) : State :=
  setMacRt m { macRt (lanesCleared m (macPortsDown m s)) m with cfg := none, powered := false, wakeAt := none } (lanesCleared m (macPortsDown m s))

theorem disableMacro_eq (m : Nat) : disableMacro m s = countMacros (setF F.MAC_MACRO_CFG_ENABLED m 0 0 (setF F.MAC_MACRO_CFG_PORT_START m 0 0
    (setF F.MAC_MACRO_CFG_PORT_UP m 0 0 (setMapBit .MACRO_FAILED m false (macroUnpowered m s))))) := rfl

/-- The record of a macro after a disable. -/
theorem macRt_disableMacro {m : Nat} (hm : m < 96) (k : Nat) : macRt (disableMacro m s) k =
    if m = k then { macRt s m with cfg := none, powered := false, wakeAt := none } else macRt s k := by
  have h (k : Nat) : macRt (lanesCleared m (macPortsDown m s)) k = macRt s k := by
    rw [macRt_congr (congrArg PortState.macs (lanesCleared_named hm).port), (macPortsDown_ended m).macRt k]
  rw [disableMacro_eq, countMacros, macRt_setF, macRt_setF, macRt_setF, macRt_setF, macRt_setMapBit, macroUnpowered, macRt_setMacRt, h, h]

/-- A disabled macro is not enabled, starts no port and has none up. -/
theorem disableMacro_cfg (m : Nat) : macEnabled (disableMacro m s) m = false ∧ getF (disableMacro m s) F.MAC_MACRO_CFG_PORT_START m 0 = 0 ∧
    getF (disableMacro m s) F.MAC_MACRO_CFG_PORT_UP m 0 = 0 := by
  simp (disch := decide) only [disableMacro_eq, countMacros, macEnabled, flag, getF_setF_of, getF_setF_apart, getF_setF_same]
  exact ⟨rfl, rfl, rfl⟩

theorem macFailed_disableMacro (m : Nat) : macFailed (disableMacro m s) m = false := by
  have h := mapBit_setMapBit (macroUnpowered m s) .MACRO_FAILED m m false
  rw [if_pos rfl] at h
  simpa (disch := decide) only [macFailed, mapBit, disableMacro_eq, countMacros, reg_setF_of] using h

/-- Another macro keeps its settings. -/
theorem disableMacro_cfg_ne {m k : Nat} (hm : m < 96) (h : k ≠ m) : reg (disableMacro m s) .MAC_MACRO_CFG k 0 = reg s .MAC_MACRO_CFG k 0 := by
  have hne (f : Fld) : ¬ (f.reg = RegName.MAC_MACRO_CFG ∧ m = k ∧ 0 = 0) := fun e => h e.2.1.symm
  rw [disableMacro_eq, countMacros, reg_setF_of _ (by decide), reg_setF_ne _ _ _ _ _ _ _ _ (hne _), reg_setF_ne _ _ _ _ _ _ _ _ (hne _),
    reg_setF_ne _ _ _ _ _ _ _ _ (hne _), reg_setMapBit_ne _ _ _ _ _ _ _ (by decide), macroUnpowered, reg_setMacRt,
    (lanesCleared_named hm).2 _ _ _ (by decide), macPortsDown_cfg_ne h]

end Sys2Proof.Machine
end

section
/-! SUPPORT. Configuring a macro: the proof of `Obligations.MacroConfiguration`. -/

namespace Sys2Proof.Proofs

open Sys2Proof.Machine Sys2Proof.Safety

theorem exec_portMacroCfg (h : Hdr) (p : MacroCfg) (s : State) : exec (.portMacroCfg h p) s = execPortMacroCfg h p s := rfl

theorem exec_portMacroDisable (h : Hdr) (mac : Nat) (s : State) : exec (.portMacroDisable h mac) s = execPortMacroDisable h mac s := rfl

theorem execPortMacroCfg_enable {h : Hdr} {p : MacroCfg} {s : State} (ha : Admitted s h 0x0401 (some 4)) (he : p.enable = true)
    (hc : macroChecks p = none) : execPortMacroCfg h p s = .next (configureMacro h p (tick h.t s)) := by
  rw [execPortMacroCfg, runCmd_runs ha rfl (by rw [he]; exact hc), if_pos he]

theorem execPortMacroCfg_disable {h : Hdr} {p : MacroCfg} {s : State} (ha : Admitted s h 0x0401 (some 4)) (hm : p.mac ≤ 95) (he : p.enable = false) :
    execPortMacroCfg h p s = .next (ok h 0x0401 (disableMacro p.mac (tick h.t s))) := by
  rw [execPortMacroCfg, runCmd_runs ha rfl (by simp [he, firstBad, bad, hm]), if_neg (by simp [he])]

theorem execPortMacroDisable_runs {h : Hdr} {mac : Nat} {s : State} (ha : Admitted s h 0x0401 (some 4)) (hm : mac ≤ 95) :
    execPortMacroDisable h mac s = .next (ok h 0x0401 (disableMacro mac (tick h.t s))) := by
  rw [execPortMacroDisable, runCmd_runs ha rfl (by simp [firstBad, bad, hm])]

/-- Settles O23: past the checks the two rows are `configureMacro` and `disableMacro` at the command's instant; of a macro that goes down
first, `macPortsDown_ended` keeps all that the statement reads. -/
theorem macroConfiguration : Obligations.MacroConfiguration := by
  unfold Obligations.MacroConfiguration
  refine ⟨fun h p s ha he hc htx hrx hti hri => ?_, fun h p s ha hm he => ?_, fun h mac s ha hm => ?_⟩
  · have hfit := fitsFields_of_checks hc htx hrx hti hri
    rw [exec_portMacroCfg, execPortMacroCfg_enable ha he hc]
    refine ⟨fun hw hl => ?_, fun hl hb => ?_, fun hl hp hf => ?_⟩
    · rw [configureMacro_unlicensed (s := tick h.t s) hw hl]
    · rw [configureMacro_busy (s := tick h.t s) hl hb]
    · obtain ⟨hen, hrate, hreach, hdd, hstart, htm, hrm, htp, hrp⟩ := showsSettings_macroConfigured (s := tick h.t s) hfit
      have hr := macRt_macroConfigured (s := tick h.t s) hfit.mac
      refine ⟨macroConfigured p (tick h.t s), ?_, hen, hrate, hreach, hdd, hstart, htm, hrm, htp, hrp, ?_, fun hw => ?_,
        fun hw hpow l hl8 h0 hq hd => ?_, fun hw => ⟨?_, fun m hne => ?_⟩⟩
      · rw [configureMacro_accepted (s := tick h.t s) hl hp hf]
      · rw [hr]; split <;> rfl
      · rw [hr, if_pos (show (macRt (tick h.t s) p.mac).powered = false from hw)]
      · exact drvState_macroConfigured (s := tick h.t s) hfit.mac hw hpow hl8 h0 hq hd
      · exact (macroConfigured_fresh_ported (s := tick h.t s) hfit.mac hw).rest
      · exact macroConfigured_fresh_other (s := tick h.t s) hfit.mac hw hne
  · rw [exec_portMacroCfg, exec_portMacroDisable, execPortMacroCfg_disable ha hm he, execPortMacroDisable_runs ha hm]
  · have hm' : mac < 96 := by omega
    have hr := macRt_disableMacro (s := tick h.t s) hm'
    obtain ⟨hen, hstart, hup⟩ := disableMacro_cfg (s := tick h.t s) mac
    refine ⟨disableMacro mac (tick h.t s), execPortMacroDisable_runs ha hm, hen, hstart, hup, macFailed_disableMacro mac, ?_, ?_, fun m hne => ?_⟩
    · rw [hr, if_pos rfl]
    · rw [hr, if_pos rfl]
    · rw [hr, if_neg (Ne.symm hne)]
      exact ⟨disableMacro_cfg_ne hm' hne, rfl, rfl⟩

end Sys2Proof.Proofs
end
